-- ==== Sys2Proof/Word.lean ====
section
/-! DEFINITION. The word types of the WJZ4-415 and their plainest arithmetic (03 R50, R51). -/

namespace Sys2Proof

/-- A byte of memory or scratchpad. -/
abbrev Byte := BitVec 8

/-- A general register g0 to g63 (03 R50). -/
abbrev Word := BitVec 64

/-- A bundle address: code addresses count in 64-byte bundles, modulo 2^51 (00 R4, 06 R121). -/
abbrev BAddr := BitVec 51

/-- A vector register: 64 lanes of 32 bits, lane i at bits [32i+31:32i] (03 R51). -/
abbrev VWord := BitVec 2048

/-- A lane mask k0 to k15: bit i is lane i (03 R50). -/
abbrev Mask := BitVec 64

/-- An accumulator tile: element (row, col) at bits 32 * (row * 64 + col) (03 R51). -/
abbrev Tile := BitVec 131072

/-- The data of a stream register: lane i at bits [1024i+1023:1024i] (03 R51). -/
abbrev SWord := BitVec 65536

/-- A 128-byte cache line (09 R187). -/
abbrev LineData := BitVec 1024

end Sys2Proof
end

