-- ==== Sys2Proof/Syntax.lean ====
section
/-! DEFINITION. The syntax of the WJZ4-415: one constructor of `Instr` for each row of spec/opcode_table.json
(the slot operations of 05 R93 with their operand fields, and the device events of 95_what_each_step_holds.md). -/

namespace Sys2Proof

/-- Register numbers of the operand fields (05 R91). -/
abbrev GReg := BitVec 6
abbrev VReg := BitVec 6
abbrev AReg := BitVec 4
abbrev KReg := BitVec 4
abbrev SReg := BitVec 4
/-- A predicate field; 96 to 127 are illegal (05 R91, R95). -/
abbrev PReg := BitVec 7
/-- An accumulator tile, a weight slot or a loop counter. -/
abbrev CReg := BitVec 2

/-- The eight slots of a bundle in PRES order (05 R85). -/
inductive Slot where
  | S | V0 | V1 | M | L | W | C | Y
  deriving DecidableEq, Repr

/-- The conditions of CMP, CMPI, BRC and VCMP (06 R117). -/
inductive Cond where
  | eq | ne | lt | ge | le | gt | ltn | gen | len | gtn | bs | bc
  deriving DecidableEq, Repr

/-- The conditions of VFCMP (07 R141). -/
inductive FCond where
  | eq | ne | lt | ge | le | gt | un | ord
  deriving DecidableEq, Repr

/-- What AGET reads (06 R119): the whole register, the offset, the ID or the stride. -/
inductive AgetSel where
  | whole | offset | ident | stride
  deriving DecidableEq, Repr

/-- The register files CHK compares (06 R132). -/
inductive ChkKind where
  | g | v | a | k
  deriving DecidableEq, Repr

/-- Saturation of VADD, VSUB and VABS (07 R138). -/
inductive Sat where
  | wrap | ss | us
  deriving DecidableEq, Repr

/-- The third operand of a binary lane operation (07 R138): a register or a 16-bit signed immediate. -/
inductive VSrc where
  | reg (v : VReg)
  | imm (i : BitVec 16)
  deriving DecidableEq, Repr

/-- The format operand of VCVT and VCVTS (07 R146): a code of R67, a lane integer, or a format slot. -/
inductive CvtFmt where
  | code (c : BitVec 5)
  | i32
  | u32
  | slot (n : BitVec 5)
  deriving DecidableEq, Repr

/-- The position operand of VBFX and VBFI (07 R148). -/
inductive BitPos where
  | reg (v : VReg)
  | imm (p : BitVec 5)
  deriving DecidableEq, Repr

/-- The amount operand of VFSH (07 R148). -/
inductive FunAmt where
  | reg (v : VReg)
  | imm (a : BitVec 6)
  deriving DecidableEq, Repr

/-- The source of VBCAST (07 R150). -/
inductive BcastSrc where
  | g (r : GReg)
  | lane (v : VReg) (l : BitVec 6)
  deriving DecidableEq, Repr

/-- The three forms of KMOV (07 R155). -/
inductive KmovForm where
  | kk (kd ks : KReg)
  | kg (kd : KReg) (gs : GReg)
  | gk (gd : GReg) (ks : KReg)
  deriving DecidableEq, Repr

/-- The result forms of SCNT (13 R271). -/
inductive ScntMode where
  | n | u | b
  deriving DecidableEq, Repr

/-- The panel modes of MLDW (08 R165). -/
inductive MldwMode where
  | dense | pair | masked
  deriving DecidableEq, Repr

/-- A scratchpad operand (08 R162): immediate, or the offset of an address register. -/
inductive SpPos where
  | direct (bank : BitVec 6) (row : BitVec 11)
  | indirect (a : AReg)
  deriving DecidableEq, Repr

/-- The target of a drain (08 R170). -/
inductive DrainTgt where
  | sp (bank : BitVec 6) (row : BitVec 11) (fo : BitVec 5)
  | mem (a : AReg) (imm : BitVec 32)
  deriving DecidableEq, Repr

/-- The two forms of LDS (09 R185): a vector row, or n bytes at an offset of one bank. -/
inductive LdsForm where
  | vec (vd : VReg) (km : KReg)
  | scalar (gd : GReg) (byte : BitVec 6) (sz : BitVec 2) (sx : BitVec 1)
  deriving DecidableEq, Repr

/-- How STV and STG read a lane (09 R193). -/
inductive LaneTy where
  | f32 | i32 | u32
  deriving DecidableEq, Repr

/-- A place of a copy (10 R201). -/
inductive Place where
  | mem (a : AReg)
  | sp (bank : BitVec 6) (row : BitVec 11)
  deriving DecidableEq, Repr

/-- The two places of CPY and CPYX, with the direction they imply (10 R202). -/
structure Places where
  dst : Place
  src : Place
  deriving DecidableEq, Repr

/-- The follow-on command of CPYW (10 R202). -/
inductive FollowOn where
  | mgemm | mattn | mdrain | mdraina
  deriving DecidableEq, Repr

/-- The residency hints (12 R250). -/
inductive Hint where
  | none | soon | done | nozip | nodrop
  deriving DecidableEq, Repr

/-- The selectors of TINFO (12 R261). -/
inductive TinfoSel where
  | state | size | base | nud | cur
  deriving DecidableEq, Repr

/-- The selectors of KVPOS (12 R261). -/
inductive KvposSel where
  | at_ | next | live
  deriving DecidableEq, Repr

/-- The selectors of KVINFO (12 R261). -/
inductive KvinfoSel where
  | next | pages | tags | live | shape | state
  deriving DecidableEq, Repr

/-- The scopes (10 R212, 11 R235). -/
inductive Scope where
  | core | gang | die | pkg | sys
  deriving DecidableEq, Repr

/-- One of the 512 contexts: a core ID (die in [7:6], core in [5:0], 01 R12) and ctx0 or ctx1. -/
structure CtxId where
  core : BitVec 8
  ctx : Bool
  deriving DecidableEq, Repr

/-- A gang of a launch (02 R25). Recipe tasks are solo gangs of their home die's recipe launch (12 R253),
whose launch ID the model writes as 2^24 + the number of the record. -/
structure GangId where
  lid : Nat
  wave : BitVec 16
  gang : BitVec 16
  deriving DecidableEq, Repr

/-- A unit of completion (02 R38). -/
inductive UnitRef where
  | gang (g : GangId)
  | wave (lid : Nat) (w : BitVec 16)
  | launch (lid : Nat)
  deriving DecidableEq, Repr

/-- The read-modify-writes of the atomics (09 R197). -/
inductive AtomicOp where
  | add | and | or | xor | min | max | minn | maxn | swp | cas | fadd
  deriving DecidableEq, Repr

/-- The state of a line held in an L1 (20 R362); `nc` is a valid line of a non-coherent page (11 R231).
State I is the line's absence. -/
inductive LineSt where
  | s | e | m | nc
  deriving DecidableEq, Repr

/-- What an invalidation message asks of an L1 (20 R363). -/
inductive Recall where
  | inv | toS | toI
  deriving DecidableEq, Repr

/-- A unit of residency (12 R245, R257): a tensor, a page of a KV sequence, or a page of the flat window, named by its
leaf's address and size. -/
inductive Item where
  | tensor (id : BitVec 24)
  | kv (id : BitVec 24) (page : BitVec 16)
  | flat (leafPa size : Nat)
  deriving DecidableEq, Repr

/-- What a reply to a frozen context carries (05 R100). -/
inductive Reply where
  | done
  | g (r : GReg) (v : Word)
  | pair (r : GReg) (v : BitVec 128)
  | pred (p : PReg) (b : Bool)
  | fault (slot : Slot) (code : BitVec 16) (tval : Word) (bundle : BAddr)
  | acq (scope : Scope) (va : Nat)
  deriving DecidableEq, Repr

/-- The device events as data: what the agenda, the links and the inputs of the machine hold. Each is a constructor of
`Instr` too, of the same name and arguments, and both have the one meaning (Lean's compiler can build no value of a
constructor beyond the 244th, so the machine keeps its events in this type and not in `Instr`). -/
inductive Event where
  | spawnPost (x : CtxId) (id : Nat) (q : BitVec 4) (lba : BitVec 57) (dbg : Bool) (cookie : Word)
  | nullBundle
  | mldwFillLand (x : CtxId) (ws : CReg) (fill : Nat)
  | scratchpadDrainRow (x : CtxId) (drain row : Nat)
  | memoryDrainRow (x : CtxId) (drain row : Nat)
  | engineDc (core : BitVec 8)
  | piccoloResidencyResume (x : CtxId)
  | pageLanded (core : BitVec 8) (bank row : Nat) (page : BitVec 16)
  | l1Fill (core : BitVec 8) (line : Nat) (data : LineData) (st : LineSt) (guardTag : Nat) (poison : Bool)
  | refillComplete (item : Item)
  | lineDrain (x : CtxId) (id : Nat)
  | atomicAtHome (x : CtxId) (id : Nat) (op : AtomicOp) (pa n : Nat) (a b : BitVec 128) (dst : Option GReg)
  | replyArrival (x : CtxId) (id : Nat) (r : Reply)
  | monitorArm (x : CtxId) (id : Nat) (mon : BitVec 12) (pa : Nat)
  | spuriousMonitorEvent (x : CtxId) (mon : BitVec 12)
  | copyBlockIssue (x : CtxId) (job block : Nat)
  | copyBlockLand (x : CtxId) (job block : Nat)
  | barrierArrival (g : GangId) (bar : BitVec 11) (src : Option CtxId) (id : Nat)
  | relPerform (x : CtxId) (id pa : Nat)
  | fenceComplete (x : CtxId)
  | holdRelease (x : CtxId)
  | holdTimeout (x : CtxId)
  | memoryTimeout (x : CtxId)
  | progressWatchdog (x : CtxId)
  | hardWatchdog (x : CtxId)
  | shadowLatchSquash (core : BitVec 8)
  | regulatorSettleEnd (core : BitVec 8)
  | takeAsyncRequest (x : CtxId)
  | preemptRequest (x : CtxId)
  | pickup (x : CtxId) (task : Nat)
  | writeBack (x : CtxId)
  | taskRelease (x : CtxId)
  | unitCompletion (u : UnitRef)
  | completionEntryPost (u : UnitRef)
  | doorbell (die : BitVec 2) (q : BitVec 4)
  | schdb (die : BitVec 2) (q : BitVec 4)
  | takeCommand (die : BitVec 2)
  | admitGang (die : BitVec 2)
  | gangReservation (g : GangId)
  | priorityPromotion (task : Nat)
  | migrationRequest (core : BitVec 8)
  | migration (src dst : BitVec 8)
  | dutyTakesEffect (x : CtxId)
  | thermalDutyUpdate (core : BitVec 8)
  | gets (core : BitVec 8) (line : Nat) (coh : Bool) (guardTag : Nat)
  | getm (core : BitVec 8) (line : Nat)
  | putm (core : BitVec 8) (line : Nat)
  | invalidation (core : BitVec 8) (line : Nat) (kind : Recall)
  | invalidationAck (core : BitVec 8) (line : Nat) (data : Option LineData)
  | residencyAction (die : BitVec 2) (tier : BitVec 2)
  | residencyActionFinish (item : Item)
  | sramThermalShutdown (die : BitVec 2)
  | loopLost (loopB : Bool)
  | loopRecovered (loopB : Bool)
  | tableChange
  | shutdownStop
  | blackboxSquashWindow (core : BitVec 8)
  | coldReset
  | warmReset
  | maintenanceReset (mode : BitVec 2)
  | laneLendTimeout (die : BitVec 2) (pair : BitVec 5)
  | mgnWrite (core : BitVec 8) (val : Word)
  | registerWrite (x : CtxId) (num : BitVec 10) (val : Word)
  | hostWrite (func : BitVec 2) (bar0 : Bool) (off n data : Nat)
  | hostRead (func : BitVec 2) (bar0 : Bool) (off n : Nat)
  | functionLevelReset (func : BitVec 2)
  | acmd (func : BitVec 2)
  | attestationReportDone (func : BitVec 2)
  | lkctlUp (die peer : BitVec 2)
  | dataFlit (src dst : BitVec 2) (m : BitVec 3) (ok : Bool)
  | acknowledgement (src dst : BitVec 2) (m : BitVec 3) (ack : BitVec 12)
  | nak (src dst : BitVec 2) (m : BitVec 3) (ack : BitVec 12)
  | ackTimer (src dst : BitVec 2) (m : BitVec 3)
  | replayTimeout (src dst : BitVec 2) (m : BitVec 3)
  | crcWindowClose (src dst : BitVec 2) (m : BitVec 3)
  | retrainComplete (src dst : BitVec 2) (m : BitVec 3) (ok : Bool)
  | linkDead (p q : BitVec 2)
  | linkStateUpdate (die : BitVec 2) (live : BitVec 6) (version : BitVec 16)
  | drainMarker (die peer : BitVec 2) (m : BitVec 3) (seq : BitVec 12)
  | drainRound (die peer : BitVec 2)
  | illegalEncoding (mask : BitVec 9)
  deriving DecidableEq, Repr

/-- The instructions and device events, one constructor per row of spec/opcode_table.json. -/
inductive Instr where
  /-- ADD (R113): gd := gs1 + gs2. -/
  | add (gd : GReg) (gs1 : GReg) (gs2 : GReg)
  /-- SUB (R113): gd := gs1 - gs2. -/
  | sub (gd : GReg) (gs1 : GReg) (gs2 : GReg)
  /-- MUL (R113): low 64 bits of the product. -/
  | mul (gd : GReg) (gs1 : GReg) (gs2 : GReg)
  /-- MULH (R113): bits [127:64], signed. -/
  | mulh (gd : GReg) (gs1 : GReg) (gs2 : GReg)
  /-- MULHN (R113): bits [127:64], unsigned. -/
  | mulhn (gd : GReg) (gs1 : GReg) (gs2 : GReg)
  /-- DIV (R113): signed division. -/
  | div (gd : GReg) (gs1 : GReg) (gs2 : GReg)
  /-- DIVN (R113): unsigned division. -/
  | divn (gd : GReg) (gs1 : GReg) (gs2 : GReg)
  /-- REM (R113): signed remainder. -/
  | rem (gd : GReg) (gs1 : GReg) (gs2 : GReg)
  /-- REMN (R113): unsigned remainder. -/
  | remn (gd : GReg) (gs1 : GReg) (gs2 : GReg)
  /-- AND (R113): AND. -/
  | and (gd : GReg) (gs1 : GReg) (gs2 : GReg)
  /-- OR (R113): OR. -/
  | or (gd : GReg) (gs1 : GReg) (gs2 : GReg)
  /-- XOR (R113): XOR. -/
  | xor (gd : GReg) (gs1 : GReg) (gs2 : GReg)
  /-- ANDN (R113): gs1 AND NOT gs2. -/
  | andn (gd : GReg) (gs1 : GReg) (gs2 : GReg)
  /-- SHL (R113): shift left by gs2[5:0]. -/
  | shl (gd : GReg) (gs1 : GReg) (gs2 : GReg)
  /-- SHR (R113): logical shift right. -/
  | shr (gd : GReg) (gs1 : GReg) (gs2 : GReg)
  /-- SHA (R113): arithmetic shift right. -/
  | sha (gd : GReg) (gs1 : GReg) (gs2 : GReg)
  /-- ROT (R113): rotate left. -/
  | rot (gd : GReg) (gs1 : GReg) (gs2 : GReg)
  /-- MIN (R113): signed minimum. -/
  | min (gd : GReg) (gs1 : GReg) (gs2 : GReg)
  /-- MAX (R113): signed maximum. -/
  | max (gd : GReg) (gs1 : GReg) (gs2 : GReg)
  /-- MINN (R113): unsigned minimum. -/
  | minn (gd : GReg) (gs1 : GReg) (gs2 : GReg)
  /-- MAXN (R113): unsigned maximum. -/
  | maxn (gd : GReg) (gs1 : GReg) (gs2 : GReg)
  /-- CLZ (R113): leading zeros. -/
  | clz (gd : GReg) (gs1 : GReg)
  /-- CTZ (R113): trailing zeros. -/
  | ctz (gd : GReg) (gs1 : GReg)
  /-- POPC (R113): one bits. -/
  | popc (gd : GReg) (gs1 : GReg)
  /-- SEL (R113): gs1 if ps, else gs2. -/
  | sel (gd : GReg) (ps : PReg) (gs1 : GReg) (gs2 : GReg)
  /-- ADDI (R116): 36-bit signed immediate. -/
  | addi (gd : GReg) (gs1 : GReg) (imm : BitVec 36)
  /-- ANDI (R116): 36-bit signed immediate. -/
  | andi (gd : GReg) (gs1 : GReg) (imm : BitVec 36)
  /-- ORI (R116): 36-bit signed immediate. -/
  | ori (gd : GReg) (gs1 : GReg) (imm : BitVec 36)
  /-- XORI (R116): 36-bit signed immediate. -/
  | xori (gd : GReg) (gs1 : GReg) (imm : BitVec 36)
  /-- SHLI (R116): shift by n. -/
  | shli (gd : GReg) (gs1 : GReg) (n : BitVec 6)
  /-- SHRI (R116): shift by n. -/
  | shri (gd : GReg) (gs1 : GReg) (n : BitVec 6)
  /-- SHAI (R116): shift by n. -/
  | shai (gd : GReg) (gs1 : GReg) (n : BitVec 6)
  /-- MOVI (R116): sign-extended 42-bit immediate. -/
  | movi (gd : GReg) (imm : BitVec 42)
  /-- MOVHI (R116): writes gd[63:42], keeps gd[41:0]. -/
  | movhi (gd : GReg) (imm : BitVec 22)
  /-- CMPI (R117): compare with a 27-bit signed immediate. -/
  | cmpi (pd : PReg) (gs1 : GReg) (imm : BitVec 27) (cond : Cond)
  /-- CMP (R117): compare two registers. -/
  | cmp (pd : PReg) (gs1 : GReg) (gs2 : GReg) (cond : Cond)
  /-- PAND (R118): predicate logic. -/
  | pand (pd : PReg) (ps1 : PReg) (ps2 : PReg)
  /-- POR (R118): predicate logic. -/
  | por (pd : PReg) (ps1 : PReg) (ps2 : PReg)
  /-- PXOR (R118): predicate logic. -/
  | pxor (pd : PReg) (ps1 : PReg) (ps2 : PReg)
  /-- PANDN (R118): predicate logic. -/
  | pandn (pd : PReg) (ps1 : PReg) (ps2 : PReg)
  /-- PNOT (R118): predicate logic. -/
  | pnot (pd : PReg) (ps1 : PReg)
  /-- PMOV (R118): predicate logic. -/
  | pmov (pd : PReg) (ps1 : PReg)
  /-- AMOV (R120): copies an address register and its stride. -/
  | amov (ad : AReg) (asr : AReg)
  /-- AADD (R120): offset + gs + imm * stride, modulo 2^40. -/
  | aadd (ad : AReg) (asr : AReg) (gs : GReg) (imm : BitVec 16)
  /-- AGET (R120): reads an address register. -/
  | aget (gd : GReg) (asr : AReg) (sel : AgetSel)
  /-- ABIND (R120): ID := gs1[23:0], offset := gs2[39:0]. -/
  | abind (ad : AReg) (gs1 : GReg) (gs2 : GReg)
  /-- ASTR (R120): stride := gs + imm. -/
  | astr (ad : AReg) (gs : GReg) (imm : BitVec 24)
  /-- BR (R121): PC + off. -/
  | br (off : BitVec 32)
  /-- BRC (R121): PC + off when the condition holds. -/
  | brc (gs1 : GReg) (gs2 : GReg) (off : BitVec 24) (cond : Cond)
  /-- JMP (R121): to gs[50:0]. -/
  | jmp (gs : GReg)
  /-- CALL (R121): PC + off, gd := PC + 1. -/
  | call (gd : GReg) (off : BitVec 32)
  /-- RET (R121): to gs[50:0]. -/
  | ret (gs : GReg)
  /-- LOOP (R125): starts level lc (body offset off, sm1 + 1 stages). -/
  | loop (lc : CReg) (gs : GReg) (off : BitVec 12) (sm1 : BitVec 3)
  /-- LEXIT (R128): ends level lc and deeper, goes to PC + off. -/
  | lexit (lc : CReg) (off : BitVec 32)
  /-- SPAWN (R129): launch command for queue q. -/
  | spawn (gs : GReg) (q : BitVec 4)
  /-- TEND (R130): ends the task. -/
  | tend
  /-- TRAP (R131): software trap. -/
  | trap (imm : BitVec 16)
  /-- CHK (R132): compares two registers whole. -/
  | chk (x1 : BitVec 6) (x2 : BitVec 6) (kind : ChkKind)
  /-- CHKP (R132): compares two predicates. -/
  | chkp (ps1 : PReg) (ps2 : PReg)
  /-- MFC (R133): reads a user control register. -/
  | mfc (gd : GReg) (num : BitVec 8)
  /-- MTC (R133): writes a user control register. -/
  | mtc (num : BitVec 8) (gs : GReg)
  /-- MFS (R315): reads a system register. -/
  | mfs (gd : GReg) (num : BitVec 10)
  /-- MTS (R315): writes a system register. -/
  | mts (num : BitVec 10) (gs : GReg)
  /-- TRET (R316): resume. -/
  | tret
  /-- TRET_END (R316): end the task. -/
  | tretEnd (gs : GReg)
  /-- TRET_YIELD (R316): write the task back. -/
  | tretYield
  /-- CTXSV (R317): saves the context image. -/
  | ctxsv (gs : GReg)
  /-- CTXLD (R317): loads a context image. -/
  | ctxld (gs : GReg)
  /-- MOWN (R319): takes the array. -/
  | mown
  /-- MGIVE (R320): gives the array back. -/
  | mgive
  /-- TLBI_ALL (R318): clears TLBs. -/
  | tlbiAll (sc : BitVec 1) (gs : GReg)
  /-- TLBI_VA (R318): clears the entries of an address. -/
  | tlbiVa (sc : BitVec 1) (gs : GReg)
  /-- TLBI_WALK (R318): clears walk caches. -/
  | tlbiWalk (sc : BitVec 1) (gs : GReg)
  /-- VADD (R139): lane operation. -/
  | vadd (vd : VReg) (vs1 : VReg) (src : VSrc) (km : KReg) (sat : Sat)
  /-- VSUB (R139): lane operation. -/
  | vsub (vd : VReg) (vs1 : VReg) (src : VSrc) (km : KReg) (sat : Sat)
  /-- VMUL (R139): lane operation. -/
  | vmul (vd : VReg) (vs1 : VReg) (src : VSrc) (km : KReg) (sat : Sat)
  /-- VMULH (R139): lane operation. -/
  | vmulh (vd : VReg) (vs1 : VReg) (src : VSrc) (km : KReg) (sat : Sat)
  /-- VMIN (R139): lane operation. -/
  | vmin (vd : VReg) (vs1 : VReg) (src : VSrc) (km : KReg) (sat : Sat)
  /-- VMAX (R139): lane operation. -/
  | vmax (vd : VReg) (vs1 : VReg) (src : VSrc) (km : KReg) (sat : Sat)
  /-- VMINN (R139): lane operation. -/
  | vminn (vd : VReg) (vs1 : VReg) (src : VSrc) (km : KReg) (sat : Sat)
  /-- VMAXN (R139): lane operation. -/
  | vmaxn (vd : VReg) (vs1 : VReg) (src : VSrc) (km : KReg) (sat : Sat)
  /-- VABS (R139): absolute value. -/
  | vabs (vd : VReg) (vs1 : VReg) (km : KReg) (sat : Sat)
  /-- VAND (R139): lane operation. -/
  | vand (vd : VReg) (vs1 : VReg) (src : VSrc) (km : KReg) (sat : Sat)
  /-- VOR (R139): lane operation. -/
  | vor (vd : VReg) (vs1 : VReg) (src : VSrc) (km : KReg) (sat : Sat)
  /-- VXOR (R139): lane operation. -/
  | vxor (vd : VReg) (vs1 : VReg) (src : VSrc) (km : KReg) (sat : Sat)
  /-- VANDN (R139): lane operation. -/
  | vandn (vd : VReg) (vs1 : VReg) (src : VSrc) (km : KReg) (sat : Sat)
  /-- VSHL (R139): lane operation. -/
  | vshl (vd : VReg) (vs1 : VReg) (src : VSrc) (km : KReg) (sat : Sat)
  /-- VSHR (R139): lane operation. -/
  | vshr (vd : VReg) (vs1 : VReg) (src : VSrc) (km : KReg) (sat : Sat)
  /-- VSHA (R139): lane operation. -/
  | vsha (vd : VReg) (vs1 : VReg) (src : VSrc) (km : KReg) (sat : Sat)
  /-- VCMP (R140): lane compare. -/
  | vcmp (kd : KReg) (vs1 : VReg) (src : VSrc) (km : KReg) (cond : Cond)
  /-- VSEL (R139): lane select. -/
  | vsel (vd : VReg) (vs1 : VReg) (vs2 : VReg) (km : KReg)
  /-- VFADD (R144): binary32 lane operation. -/
  | vfadd (vd : VReg) (vs1 : VReg) (vs2 : VReg) (km : KReg)
  /-- VFSUB (R144): binary32 lane operation. -/
  | vfsub (vd : VReg) (vs1 : VReg) (vs2 : VReg) (km : KReg)
  /-- VFMUL (R144): binary32 lane operation. -/
  | vfmul (vd : VReg) (vs1 : VReg) (vs2 : VReg) (km : KReg)
  /-- VFMA (R144): fused, rounded once. -/
  | vfma (vd : VReg) (vs1 : VReg) (vs2 : VReg) (vs3 : VReg) (km : KReg)
  /-- VFMS (R144): fused, rounded once. -/
  | vfms (vd : VReg) (vs1 : VReg) (vs2 : VReg) (vs3 : VReg) (km : KReg)
  /-- VFMIN (R144): binary32 minimum / maximum. -/
  | vfmin (vd : VReg) (vs1 : VReg) (vs2 : VReg) (km : KReg)
  /-- VFMAX (R144): binary32 minimum / maximum. -/
  | vfmax (vd : VReg) (vs1 : VReg) (vs2 : VReg) (km : KReg)
  /-- VFABS (R144): sign bit operation. -/
  | vfabs (vd : VReg) (vs1 : VReg) (km : KReg)
  /-- VFNEG (R144): sign bit operation. -/
  | vfneg (vd : VReg) (vs1 : VReg) (km : KReg)
  /-- VFCMP (R141): binary32 compare. -/
  | vfcmp (kd : KReg) (vs1 : VReg) (vs2 : VReg) (km : KReg) (cond : FCond)
  /-- VEXP2 (R145): correctly rounded function. -/
  | vexp2 (vd : VReg) (vs1 : VReg) (km : KReg)
  /-- VLOG2 (R145): correctly rounded function. -/
  | vlog2 (vd : VReg) (vs1 : VReg) (km : KReg)
  /-- VRCP (R145): correctly rounded function. -/
  | vrcp (vd : VReg) (vs1 : VReg) (km : KReg)
  /-- VRSQ (R145): correctly rounded function. -/
  | vrsq (vd : VReg) (vs1 : VReg) (km : KReg)
  /-- VCVT (R147): conversion. -/
  | vcvt (vd : VReg) (vs1 : VReg) (km : KReg) (src : CvtFmt) (tgt : CvtFmt)
  /-- VCVTS (R147): conversion with a per-lane shift. -/
  | vcvts (vd : VReg) (vs1 : VReg) (vs2 : VReg) (km : KReg) (src : CvtFmt) (tgt : CvtFmt)
  /-- VBFX (R149): bit-field extract. -/
  | vbfx (vd : VReg) (vs1 : VReg) (pos : BitPos) (len : BitVec 6) (sx : BitVec 1) (km : KReg)
  /-- VBFI (R149): bit-field insert. -/
  | vbfi (vd : VReg) (vs1 : VReg) (pos : BitPos) (len : BitVec 6) (km : KReg)
  /-- VFSH (R149): funnel shift. -/
  | vfsh (vd : VReg) (vs1 : VReg) (vs2 : VReg) (amt : FunAmt) (km : KReg)
  /-- VPOPC (R149): bit count. -/
  | vpopc (vd : VReg) (vs1 : VReg) (km : KReg)
  /-- VCLZ (R149): bit count. -/
  | vclz (vd : VReg) (vs1 : VReg) (km : KReg)
  /-- VPERM (R151): permute. -/
  | vperm (vd : VReg) (vs1 : VReg) (vs2 : VReg) (km : KReg)
  /-- VBCAST (R151): broadcast. -/
  | vbcast (vd : VReg) (src : BcastSrc) (km : KReg)
  /-- VSLIDE (R151): slide. -/
  | vslide (vd : VReg) (vs1 : VReg) (vs2 : VReg) (n : BitVec 6) (km : KReg)
  /-- VLUT (R152): table lookup in scratchpad. -/
  | vlut (vd : VReg) (vs1 : VReg) (bank : BitVec 6) (row0 : BitVec 11) (sz : BitVec 4) (km : KReg)
  /-- VCOMP (R151): compress. -/
  | vcomp (vd : VReg) (vs1 : VReg) (km : KReg)
  /-- VEXPD (R151): expand. -/
  | vexpd (vd : VReg) (vs1 : VReg) (km : KReg)
  /-- VRADD (R154): reduction. -/
  | vradd (gd : GReg) (vs1 : VReg) (km : KReg)
  /-- VRMAX (R154): reduction. -/
  | vrmax (gd : GReg) (vs1 : VReg) (km : KReg)
  /-- VRMIN (R154): reduction. -/
  | vrmin (gd : GReg) (vs1 : VReg) (km : KReg)
  /-- VRFADD (R154): reduction. -/
  | vrfadd (gd : GReg) (vs1 : VReg) (km : KReg)
  /-- VRFMAX (R154): reduction. -/
  | vrfmax (gd : GReg) (vs1 : VReg) (km : KReg)
  /-- VMOV (R153): copy. -/
  | vmov (vd : VReg) (vs1 : VReg) (km : KReg)
  /-- VMOVI (R153): 32-bit immediate. -/
  | vmovi (vd : VReg) (imm : BitVec 32) (km : KReg)
  /-- VINS (R153): insert into one lane. -/
  | vins (vd : VReg) (gs : GReg) (lane : BitVec 6)
  /-- VEXT (R153): extract one lane. -/
  | vext (gd : GReg) (vs1 : VReg) (lane : BitVec 6) (sx : BitVec 1)
  /-- KAND (R155): mask logic. -/
  | kand (kd : KReg) (ks1 : KReg) (ks2 : KReg)
  /-- KOR (R155): mask logic. -/
  | kor (kd : KReg) (ks1 : KReg) (ks2 : KReg)
  /-- KXOR (R155): mask logic. -/
  | kxor (kd : KReg) (ks1 : KReg) (ks2 : KReg)
  /-- KNOT (R155): mask inverse. -/
  | knot (kd : KReg) (ks1 : KReg)
  /-- KMOV (R155): copies between k and g. -/
  | kmov (form : KmovForm)
  /-- KPOP (R155): set bits of a mask. -/
  | kpop (gd : GReg) (ks1 : KReg)
  /-- SSEED (R264): seeds a generator. -/
  | sseed (gen : BitVec 4) (gs : GReg) (kind : BitVec 1)
  /-- SGEN (R269): generates streams. -/
  | sgen (sd : SReg) (vs : VReg) (gen : BitVec 4) (bp : BitVec 1)
  /-- SAND (R270): stream gate. -/
  | sand (sd : SReg) (sa : SReg) (sb : SReg)
  /-- SOR (R270): stream gate. -/
  | sor (sd : SReg) (sa : SReg) (sb : SReg)
  /-- SMIN (R270): stream gate. -/
  | smin (sd : SReg) (sa : SReg) (sb : SReg)
  /-- SMAX (R270): stream gate. -/
  | smax (sd : SReg) (sa : SReg) (sb : SReg)
  /-- SXNOR (R270): stream gate. -/
  | sxnor (sd : SReg) (sa : SReg) (sb : SReg)
  /-- SMUX (R270): stream multiplexer. -/
  | smux (sd : SReg) (sa : SReg) (sb : SReg) (ssel : SReg)
  /-- SCNT (R271): counts ones. -/
  | scnt (vd : VReg) (ss : SReg) (mode : ScntMode) (km : KReg)
  /-- SREGEN (R272): regenerates. -/
  | sregen (sd : SReg) (ss : SReg) (gen : BitVec 4)
  /-- SDLY (R272): rotates. -/
  | sdly (sd : SReg) (ss : SReg) (n : BitVec 10)
  /-- SCLS (R272): reads tag and length. -/
  | scls (gd : GReg) (ss : SReg)
  /-- MZERO (R168): zeroes a tile. -/
  | mzero (ct : CReg)
  /-- MLDW (R166): fetches a B panel. -/
  | mldw (ws : CReg) (ad : AReg) (imm : BitVec 32) (gk : GReg) (mode : MldwMode)
  /-- MMA (R169): one kpc group. -/
  | mma (ct : CReg) (pos : SpPos) (ws : CReg) (fa : BitVec 5) (kr : BitVec 1)
  /-- MMAT (R169): one kpc group, transposed A. -/
  | mmat (ct : CReg) (pos : SpPos) (ws : CReg) (fa : BitVec 5) (kr : BitVec 1)
  /-- MDRAIN (R171): drains a tile. -/
  | mdrain (ct : CReg) (tgt : DrainTgt) (zc : BitVec 1)
  /-- MDRAINA (R171): accumulates a tile into the target. -/
  | mdraina (ct : CReg) (tgt : DrainTgt) (gc : GReg) (zc : BitVec 1) (cl : BitVec 1)
  /-- MGEMM (R174): matrix-multiply macro. -/
  | mgemm (bank : BitVec 6) (row : BitVec 11)
  /-- MATTN (R176): attention macro. -/
  | mattn (bank : BitVec 6) (row : BitVec 11)
  /-- MSTEP (R178): writes the status word. -/
  | mstep
  /-- MCANCEL (R178): stops the engine work. -/
  | mcancel
  /-- MBIAS (R168): bias rows. -/
  | mbias (ct : CReg) (bank : BitVec 6) (row : BitVec 11)
  /-- MSCALE (R168): column scales. -/
  | mscale (ct : CReg) (bank : BitVec 6) (row : BitVec 11)
  /-- LD (R186): loads n bytes. -/
  | ld (gd : GReg) (ad : AReg) (sz : BitVec 2) (sx : BitVec 1) (imm : BitVec 35)
  /-- LDV (R186): loads 64 elements. -/
  | ldv (vd : VReg) (ad : AReg) (km : KReg) (imm : BitVec 34)
  /-- LDS (R186): loads from scratchpad. -/
  | lds (form : LdsForm) (pos : SpPos) (ma : BitVec 1)
  /-- LDSG (R186): gathers from scratchpad. -/
  | ldsg (vd : VReg) (bank : BitVec 6) (row0 : BitVec 11) (vs : VReg) (km : KReg) (ma : BitVec 1)
  /-- LDG (R186): gathers elements from memory. -/
  | ldg (vd : VReg) (ad : AReg) (vs : VReg) (km : KReg)
  /-- ATADD (R197): atomic. -/
  | atadd (gd : GReg) (ad : AReg) (gs1 : GReg) (sz : BitVec 3) (imm : BitVec 23)
  /-- ATAND (R197): atomic. -/
  | atand (gd : GReg) (ad : AReg) (gs1 : GReg) (sz : BitVec 3) (imm : BitVec 23)
  /-- ATOR (R197): atomic. -/
  | ator (gd : GReg) (ad : AReg) (gs1 : GReg) (sz : BitVec 3) (imm : BitVec 23)
  /-- ATXOR (R197): atomic. -/
  | atxor (gd : GReg) (ad : AReg) (gs1 : GReg) (sz : BitVec 3) (imm : BitVec 23)
  /-- ATMIN (R197): atomic. -/
  | atmin (gd : GReg) (ad : AReg) (gs1 : GReg) (sz : BitVec 3) (imm : BitVec 23)
  /-- ATMAX (R197): atomic. -/
  | atmax (gd : GReg) (ad : AReg) (gs1 : GReg) (sz : BitVec 3) (imm : BitVec 23)
  /-- ATMINN (R197): atomic. -/
  | atminn (gd : GReg) (ad : AReg) (gs1 : GReg) (sz : BitVec 3) (imm : BitVec 23)
  /-- ATMAXN (R197): atomic. -/
  | atmaxn (gd : GReg) (ad : AReg) (gs1 : GReg) (sz : BitVec 3) (imm : BitVec 23)
  /-- ATSWP (R197): atomic. -/
  | atswp (gd : GReg) (ad : AReg) (gs1 : GReg) (sz : BitVec 3) (imm : BitVec 23)
  /-- ATCAS (R197): atomic. -/
  | atcas (gd : GReg) (ad : AReg) (gs1 : GReg) (gs2 : GReg) (sz : BitVec 3) (imm : BitVec 23)
  /-- ATFADD (R197): atomic. -/
  | atfadd (gd : GReg) (ad : AReg) (gs1 : GReg) (sz : BitVec 3) (imm : BitVec 23)
  /-- MARM (R198): arms a monitor. -/
  | marm (mon : BitVec 12) (ad : AReg) (imm : BitVec 32)
  /-- ST (R194): stores n bytes. -/
  | st (gs : GReg) (ad : AReg) (sz : BitVec 2) (imm : BitVec 22)
  /-- STV (R194): stores 64 elements. -/
  | stv (vs : VReg) (ad : AReg) (km : KReg) (lt : LaneTy) (imm : BitVec 18)
  /-- STS (R194): stores to a scratchpad row. -/
  | sts (vs : VReg) (pos : SpPos) (km : KReg) (ma : BitVec 1)
  /-- STSS (R194): stores bytes to scratchpad. -/
  | stss (gs : GReg) (pos : SpPos) (byte : BitVec 6) (sz : BitVec 2) (ma : BitVec 1)
  /-- STG (R194): scatters elements. -/
  | stg (vs : VReg) (ad : AReg) (vi : VReg) (km : KReg) (lt : LaneTy)
  /-- STZ (R194): stores 128 zero bytes. -/
  | stz (ad : AReg) (imm : BitVec 30)
  /-- CPY (R203): copies bytes. -/
  | cpy (pl : Places) (gn : GReg)
  /-- CPYW (R203): copies and carries a matrix command. -/
  | cpyw (bank : BitVec 6) (row : BitVec 11) (ad : AReg) (gn : GReg) (gm : GReg) (fop : FollowOn)
  /-- CPYX (R203): converts elements. -/
  | cpyx (pl : Places) (gn : GReg) (fs : BitVec 5)
  /-- CPYG (R203): gathers rows. -/
  | cpyg (dst : Place) (ad : AReg) (ibank : BitVec 6) (irow : BitVec 11) (gn : GReg)
  /-- JSUB (R207): submits a job card. -/
  | jsub (ad : AReg) (t : BitVec 1) (imm : BitVec 43)
  /-- JCAN (R210): cancels waiting jobs. -/
  | jcan (gs : GReg)
  /-- TNEW (R248): creates a tensor. -/
  | tnew (gd : GReg) (ad : AReg) (imm : BitVec 38)
  /-- TFREE (R251): ends a tensor. -/
  | tfree (gs : GReg)
  /-- TUSE (R249): advances the use list. -/
  | tuse (gs1 : GReg) (gs2 : GReg)
  /-- THINT (R250): sets the hint. -/
  | thint (gs : GReg) (hint : Hint)
  /-- TPIN (R250): pins. -/
  | tpin (gs : GReg)
  /-- TUNPIN (R250): unpins. -/
  | tunpin (gs : GReg)
  /-- TFETCH (R250): fetches into pool (0) or HBM (1). -/
  | tfetch (gs : GReg) (tier : BitVec 1)
  /-- TLOCK (R255): locks a region. -/
  | tlock (ad : AReg) (imm : BitVec 32) (gs : GReg)
  /-- TUNLOCK (R255): releases a lock. -/
  | tunlock (ad : AReg) (imm : BitVec 32)
  /-- TINFO (R261): reads a record field. -/
  | tinfo (gd : GReg) (gs : GReg) (sel : TinfoSel)
  /-- KVNEW (R256): creates a KV sequence. -/
  | kvnew (gd : GReg) (ad : AReg) (imm : BitVec 38)
  /-- KVAPP (R258): appends a token. -/
  | kvapp (gs : GReg) (bank : BitVec 6) (row : BitVec 11) (tag : BitVec 3)
  /-- KVRET (R259): retires pages. -/
  | kvret (gs1 : GReg) (gs2 : GReg) (mask : BitVec 8)
  /-- KVPOS (R261): queries by position. -/
  | kvpos (gd : GReg) (gs1 : GReg) (gs2 : GReg) (sel : KvposSel)
  /-- KVINFO (R261): reads a sequence field. -/
  | kvinfo (gd : GReg) (gs : GReg) (sel : KvinfoSel)
  /-- WAIT (R214): holds for counters. -/
  | wait (z : BitVec 4) (lsel : BitVec 2) (lval : BitVec 6)
  /-- BARI (R216): initialises a barrier. -/
  | bari (pd : PReg) (gs : GReg)
  /-- BARA (R217): posted arrival. -/
  | bara (bar : BitVec 11)
  /-- BARW (R218): waits for a generation. -/
  | barw (bar : BitVec 11) (gs : GReg)
  /-- BARAW (R217): arrives and waits. -/
  | baraw (bar : BitVec 11)
  /-- BFREE (R219): frees a barrier. -/
  | bfree (bar : BitVec 11)
  /-- MONW (R221): waits on a monitor. -/
  | monw (mon : BitVec 12)
  /-- ACQ (R222): acquire. -/
  | acq (scope : Scope) (ad : AReg)
  /-- REL (R222): release. -/
  | rel (scope : Scope) (ad : AReg)
  /-- FENCE (R223): fence. -/
  | fence (gd : GReg) (scope : Scope)
  /-- YIELD (R40): yield. -/
  | yield
  /-- RDV (R225): rendezvous. -/
  | rdv (pd : PReg) (n : BitVec 11)
  /-- SPAWN_POST (R129): a committed SPAWN enters the FIFO of queue q of its die. -/
  | spawnPost (x : CtxId) (id : Nat) (q : BitVec 4) (lba : BitVec 57) (dbg : Bool) (cookie : Word)
  /-- NULL_BUNDLE (R86): a bundle with no present slot. -/
  | nullBundle
  /-- MLDW_FILL_LAND (R166): the last block of fill number `fill` of slot ws has landed. -/
  | mldwFillLand (x : CtxId) (ws : CReg) (fill : Nat)
  /-- SCRATCHPAD_DRAIN_ROW (R172): one row of a scratchpad drain is written through the engine port. -/
  | scratchpadDrainRow (x : CtxId) (drain row : Nat)
  /-- MEMORY_DRAIN_ROW (R172): one row of a memory drain is performed at its home slice. -/
  | memoryDrainRow (x : CtxId) (drain row : Nat)
  /-- ENGINE_DC (R157): one array dc of engine work. -/
  | engineDc (core : BitVec 8)
  /-- PICCOLO_RESIDENCY_RESUME (R174): Piccolo goes on once the pages it waits for are resident. -/
  | piccoloResidencyResume (x : CtxId)
  /-- PAGE_LANDED (R176): the page-landed message of MATTN. -/
  | pageLanded (core : BitVec 8) (bank row : Nat) (page : BitVec 16)
  /-- L1_FILL (R187): a missing line is filled. -/
  | l1Fill (core : BitVec 8) (line : Nat) (data : LineData) (st : LineSt) (guardTag : Nat) (poison : Bool)
  /-- REFILL_COMPLETE (R252): an item is back in the pool or HBM. -/
  | refillComplete (item : Item)
  /-- LINE_DRAIN (R191): committed line number `id` is drained. -/
  | lineDrain (x : CtxId) (id : Nat)
  /-- ATOMIC_AT_HOME (R197): the home slice performs an atomic. -/
  | atomicAtHome (x : CtxId) (id : Nat) (op : AtomicOp) (pa n : Nat) (a b : BitVec 128) (dst : Option GReg)
  /-- REPLY_ARRIVAL (R100): a reply ends a freeze and writes its register. -/
  | replyArrival (x : CtxId) (id : Nat) (r : Reply)
  /-- MONITOR_ARM (R198): the home slice arms a monitor. -/
  | monitorArm (x : CtxId) (id : Nat) (mon : BitVec 12) (pa : Nat)
  /-- SPURIOUS_MONITOR_EVENT (R220): a spurious monitor event. -/
  | spuriousMonitorEvent (x : CtxId) (mon : BitVec 12)
  /-- COPY_BLOCK_ISSUE (R353): a requested block issues in its lane's slot. -/
  | copyBlockIssue (x : CtxId) (job block : Nat)
  /-- COPY_BLOCK_LAND (R353): a block lands or is performed at home. -/
  | copyBlockLand (x : CtxId) (job block : Nat)
  /-- BARRIER_ARRIVAL (R217): an arrival counts at the barrier's home. -/
  | barrierArrival (g : GangId) (bar : BitVec 11) (src : Option CtxId) (id : Nat)
  /-- REL_PERFORM (R222): the REL increment is performed at home. -/
  | relPerform (x : CtxId) (id pa : Nat)
  /-- FENCE_COMPLETE (R223): every counted write has reached the scope or failed. -/
  | fenceComplete (x : CtxId)
  /-- HOLD_RELEASE (R213): a hold's condition is met. -/
  | holdRelease (x : CtxId)
  /-- HOLD_TIMEOUT (R213): a hold has lasted 2^30 dc. -/
  | holdTimeout (x : CtxId)
  /-- MEMORY_TIMEOUT (R335): a freeze has lasted 2^16 dc. -/
  | memoryTimeout (x : CtxId)
  /-- PROGRESS_WATCHDOG (R41): the cc count has reached 2^WDLOG. -/
  | progressWatchdog (x : CtxId)
  /-- HARD_WATCHDOG (R41): no resumption point within 2^16 dc of the watchdog request. -/
  | hardWatchdog (x : CtxId)
  /-- SHADOW_LATCH_SQUASH (R49): a shadow latch catches a late transition in this dc. -/
  | shadowLatchSquash (core : BitVec 8)
  /-- REGULATOR_SETTLE_END (R399): a regulator settle ends. -/
  | regulatorSettleEnd (core : BitVec 8)
  /-- TAKE_ASYNC_REQUEST (R323): the first pending request is taken at a resumption point. -/
  | takeAsyncRequest (x : CtxId)
  /-- PREEMPT_REQUEST (R34): the scheduler asks for pre-emption. -/
  | preemptRequest (x : CtxId)
  /-- PICKUP (R29): an idle context takes a ready record. -/
  | pickup (x : CtxId) (task : Nat)
  /-- WRITE_BACK (R65): a context leaves its task at a suspension point. -/
  | writeBack (x : CtxId)
  /-- TASK_RELEASE (R30): an ended task releases its context. -/
  | taskRelease (x : CtxId)
  /-- UNIT_COMPLETION (R39): a unit whose counter reached zero completes. -/
  | unitCompletion (u : UnitRef)
  /-- COMPLETION_ENTRY_POST (R328): a completion entry is posted. -/
  | completionEntryPost (u : UnitRef)
  /-- DOORBELL (R390): the host rings a doorbell. -/
  | doorbell (die : BitVec 2) (q : BitVec 4)
  /-- SCHDB (R333): system software rings a doorbell. -/
  | schdb (die : BitVec 2) (q : BitVec 4)
  /-- TAKE_COMMAND (R330): the dispatcher takes one command. -/
  | takeCommand (die : BitVec 2)
  /-- ADMIT_GANG (R331): the dispatcher offers head gangs and places one. -/
  | admitGang (die : BitVec 2)
  /-- GANG_RESERVATION (R331): a passed-over head gang begins reserving. -/
  | gangReservation (g : GangId)
  /-- PRIORITY_PROMOTION (R332): a waiting record's effective priority rises. -/
  | priorityPromotion (task : Nat)
  /-- MIGRATION_REQUEST (R337): a hot column's contexts are asked to migrate. -/
  | migrationRequest (core : BitVec 8)
  /-- MIGRATION (R337): the move of a hot core's occupancy. -/
  | migration (src dst : BitVec 8)
  /-- DUTY_TAKES_EFFECT (R336): a change of duty takes effect at a window boundary. -/
  | dutyTakesEffect (x : CtxId)
  /-- THERMAL_DUTY_UPDATE (R403): the thermal controller's step. -/
  | thermalDutyUpdate (core : BitVec 8)
  /-- GETS (R363): a load miss is served at home. -/
  | gets (core : BitVec 8) (line : Nat) (coh : Bool) (guardTag : Nat)
  /-- GETM (R363): a line drain asks for M. -/
  | getm (core : BitVec 8) (line : Nat)
  /-- PUTM (R363): a line leaves an L1. -/
  | putm (core : BitVec 8) (line : Nat)
  /-- INVALIDATION (R364): an invalidation or recall reaches an L1. -/
  | invalidation (core : BitVec 8) (line : Nat) (kind : Recall)
  /-- INVALIDATION_ACK (R364): an acknowledgement arrives at home. -/
  | invalidationAck (core : BitVec 8) (line : Nat) (data : Option LineData)
  /-- RESIDENCY_ACTION (R373): Bassoon chooses a victim of a full tier and marks it moving. -/
  | residencyAction (die : BitVec 2) (tier : BitVec 2)
  /-- RESIDENCY_ACTION_FINISH (R373): Bassoon carries the action out. -/
  | residencyActionFinish (item : Item)
  /-- SRAM_THERMAL_SHUTDOWN (R374): the SRAM layer passes its shutdown temperature. -/
  | sramThermalShutdown (die : BitVec 2)
  /-- LOOP_LOST (R401): a cooling loop is lost. -/
  | loopLost (loopB : Bool)
  /-- LOOP_RECOVERED (R401): a cooling loop has recovered. -/
  | loopRecovered (loopB : Bool)
  /-- TABLE_CHANGE (R401): the selected operating table takes effect. -/
  | tableChange
  /-- SHUTDOWN_STOP (R404): 1 ms after the orderly shutdown began. -/
  | shutdownStop
  /-- BLACKBOX_SQUASH_WINDOW (R407): a window of 2^16 dc ends. -/
  | blackboxSquashWindow (core : BitVec 8)
  /-- COLD_RESET (R397): power-on. -/
  | coldReset
  /-- WARM_RESET (R397): the reset input or firmware. -/
  | warmReset
  /-- MAINTENANCE_RESET (R397): a warm reset flagged for maintenance, with the mode firmware chooses. -/
  | maintenanceReset (mode : BitVec 2)
  /-- LANE_LEND_TIMEOUT (R409): a lane lend is not complete within 2,048 dc. -/
  | laneLendTimeout (die : BitVec 2) (pair : BitVec 5)
  /-- MGN_WRITE (R398): an MTS to MGN. -/
  | mgnWrite (core : BitVec 8) (val : Word)
  /-- REGISTER_WRITE (R6): a write to a register with no row of its own. -/
  | registerWrite (x : CtxId) (num : BitVec 10) (val : Word)
  /-- HOST_WRITE (R391): a host write through BAR2 (or to a BAR0 register). -/
  | hostWrite (func : BitVec 2) (bar0 : Bool) (off n data : Nat)
  /-- HOST_READ (R391): a host read. -/
  | hostRead (func : BitVec 2) (bar0 : Bool) (off n : Nat)
  /-- FUNCTION_LEVEL_RESET (R391): a function-level reset. -/
  | functionLevelReset (func : BitVec 2)
  /-- ACMD (R412): a write to ACMD. -/
  | acmd (func : BitVec 2)
  /-- ATTESTATION_REPORT_DONE (R412): the report is ready. -/
  | attestationReportDone (func : BitVec 2)
  /-- LKCTL_UP (R386): a one is written to LKCTL.UP. -/
  | lkctlUp (die peer : BitVec 2)
  /-- DATA_FLIT (R379): the next flit of a module arrives, passing its CRC or not. -/
  | dataFlit (src dst : BitVec 2) (m : BitVec 3) (ok : Bool)
  /-- ACKNOWLEDGEMENT (R379): an ACK reaches the sender src. -/
  | acknowledgement (src dst : BitVec 2) (m : BitVec 3) (ack : BitVec 12)
  /-- NAK (R380): a NAK reaches the sender src. -/
  | nak (src dst : BitVec 2) (m : BitVec 3) (ack : BitVec 12)
  /-- ACK_TIMER (R379): 64 flit times without an ACK sent from src. -/
  | ackTimer (src dst : BitVec 2) (m : BitVec 3)
  /-- REPLAY_TIMEOUT (R380): 2,048 dc without ACK advance at the sender src. -/
  | replayTimeout (src dst : BitVec 2) (m : BitVec 3)
  /-- CRC_WINDOW_CLOSE (R381): 2^16 further flits have been received at dst. -/
  | crcWindowClose (src dst : BitVec 2) (m : BitVec 3)
  /-- RETRAIN_COMPLETE (R381): a retrain ends. -/
  | retrainComplete (src dst : BitVec 2) (m : BitVec 3) (ok : Bool)
  /-- LINK_DEAD (R382): the link of two dies is declared dead. -/
  | linkDead (p q : BitVec 2)
  /-- LINK_STATE_UPDATE (R382): a link-state update arrives. -/
  | linkStateUpdate (die : BitVec 2) (live : BitVec 6) (version : BitVec 16)
  /-- DRAIN_MARKER (R383): a drain marker of the peer arrives. -/
  | drainMarker (die peer : BitVec 2) (m : BitVec 3) (seq : BitVec 12)
  /-- DRAIN_ROUND (R383): a drain round ends. -/
  | drainRound (die peer : BitVec 2)
  /-- ILLEGAL_ENCODING (R95): a fetched bundle holds something that is not an instruction. -/
  | illegalEncoding (mask : BitVec 9)
  deriving DecidableEq, Repr

end Sys2Proof
end

