-- ==== Sys2Proof/Config.lean ====
section
/-! DEFINITION. What spec/ leaves open: the free values, opaque constants that nothing can evaluate (logs 5 to 7). -/

namespace Sys2Proof.Config

/-- What a free value stands for. -/
inductive Open where
  /-- The latency of an unslotted act in dc, less one (20 R355, 19 R347). -/
  | latency
  /-- The line of a full L1 set that leaves (09 R187). -/
  | l1Victim
  /-- The block of a full set that leaves a memory-side cache (20 R356). -/
  | mscVictim
  /-- Whether a load is served from a stale non-coherent line or fetched (11 R231). -/
  | staleHit
  /-- A decoder outcome beyond 24 bit errors, and the bits it then delivers (20 R357). -/
  | eccBeyond
  | eccData
  /-- A tensor ID, a virtual base, a frame, the carve-out row and context block that the loader picks (12 R248, 03 R64). -/
  | tensorId
  | virtBase
  | frame
  | loaderSpb
  | loaderCtxb
  /-- The core a gang member takes (02 R33). -/
  | placement
  /-- Whether a page of a KV sequence is opened in the pool (12 R257). -/
  | kvTier
  /-- The trial size of the compressor (20 R372). -/
  | csize
  /-- Sensor readings (22 R401, R403). -/
  | sensor
  /-- The coherent and lockable bits of a new tensor's leaves (12 R248 does not name them). -/
  | leafBits
  /-- An entry of a use list that cannot be read (12 R249). -/
  | useEntry
  /-- Whether a lane, a link or a training run comes up (22 R409, R411). -/
  | training
  /-- The duration of a retrain in ns (22 R407). -/
  | duration
  deriving DecidableEq, Repr

/-- The free value number `n` of a kind. -/
opaque freeNat (what : Open) (n : Nat) : Nat

/-- SHA3-512 and ML-DSA-87 (22 R410 to R412): published algorithms that spec/ names and does not give. Key generation gives a
private key; a signature verifies under a public key. -/
opaque sha3_512 (msg : List Byte) : BitVec 512
opaque mlDsaKeyGen (seed : BitVec 256) : List Byte
opaque mlDsaSign (key msg : List Byte) : List Byte
opaque mlDsaVerify (key msg sig : List Byte) : Bool
/-- The fuses (22 R410): PKH, the identity seed, the security version. -/
opaque pkh : BitVec 512
opaque identitySeed : BitVec 256
opaque svn : Word
/-- The primary and the recovery image (22 R410): the key, the version and the signature of the header, and the body. -/
opaque imageKey (recovery : Bool) : List Byte
opaque imageSvn (recovery : Bool) : Word
opaque imageSig (recovery : Bool) : List Byte
opaque imageBody (recovery : Bool) : List Byte
/-- The operating tables and the boot configuration as the bytes that a report digests (22 R412). -/
opaque tableBytes : List Byte
opaque bootConfig : List Byte
/-- The VER field of a report (22 R412), whose value spec/ does not give. -/
opaque reportVersion : Word
/-- The quarantine map of the boot configuration (22 R398). -/
opaque quarantineMap (core : BitVec 8) : Bool
/-- The partition mode of the boot configuration (21 R388). -/
opaque bootMode : BitVec 2
/-- How many bytes of CXL expanders are populated (20 R350). -/
opaque cxlBytes : Nat
/-- Two 512-byte blocks in one DRAM row (20 R360): the row of a block. -/
opaque dramRow (block : Nat) : Nat

end Sys2Proof.Config
end

