-- ==== Sys2Proof/WellFormed.lean ====
section
/-! DEFINITION. Which operand values an instruction may hold: the field values that the encoding tables call illegal
(05 R95, 06 R111, 07 R136 and the encoding tables of each chapter). -/

namespace Sys2Proof

/-- The user control registers that 03 R58 lists. -/
def cregListed (num : BitVec 8) : Bool :=
  let n := num.toNat
  decide (n ≤ 0x04) || decide (0x08 ≤ n ∧ n ≤ 0x0B) || decide (0x10 ≤ n ∧ n ≤ 0x2F) || n == 0x30 || n == 0x31
    || decide (0x34 ≤ n ∧ n ≤ 0x36) || n == 0x38 || n == 0x39 || decide (0x40 ≤ n ∧ n ≤ 0x4F)
    || decide (0x50 ≤ n ∧ n ≤ 0x53)

/-- A bit-field length: 1 to 32 (07 R148). -/
def lenOk (len : BitVec 6) : Bool := decide (1 ≤ len.toNat ∧ len.toNat ≤ 32)

/-- A lookup table of 2^sz entries that stays within the rows (07 R152). -/
def lutOk (row0 : BitVec 11) (sz : BitVec 4) : Bool :=
  decide (6 ≤ sz.toNat ∧ sz.toNat ≤ 14 ∧ row0.toNat + 2 ^ (sz.toNat - 6) ≤ 2048)

/-- Sizes 1 to 16 bytes; at 16 bytes the registers are even (09 R196). -/
def sz16Ok (sz : BitVec 3) (r1 r2 : GReg) : Bool :=
  decide (sz.toNat < 4) || (sz == 4 && decide (r1.toNat % 2 = 0) && decide (r2.toNat % 2 = 0))

/-- A byte offset in a bank that is a multiple of the access size (09 R185, R193). -/
def byteOk (byte : BitVec 6) (sz : BitVec 2) : Bool := decide (byte.toNat % 2 ^ sz.toNat = 0)

/-- A register number of 4 bits stands in the low bits of its 6-bit field (06 R132). -/
def ChkKind.fits (kind : ChkKind) (x : BitVec 6) : Bool :=
  match kind with
  | .g | .v => true
  | .a | .k => decide (x.toNat < 16)

/-- A format code that a conversion may name: 0 to 27, or a lane integer, or a slot (07 R146). -/
def CvtFmt.ok : CvtFmt → Bool
  | .code c => decide (c.toNat < 28)
  | .i32 | .u32 | .slot _ => true

/-- A scratchpad drain starts at row 1,984 or below (08 R170). -/
def DrainTgt.rowOk : DrainTgt → Bool
  | .sp _ row _ => decide (row.toNat ≤ 1984)
  | .mem _ _ => true

/-- The scalar LDS reads at a multiple of its size (09 R185). -/
def LdsForm.ok : LdsForm → Bool
  | .vec _ _ => true
  | .scalar _ byte sz _ => byteOk byte sz

/-- CPYX converts between memory and scratchpad or within memory, where fs is Zero (10 R202). -/
def Places.cpyxOk (pl : Places) (fs : BitVec 5) : Bool :=
  match pl.dst, pl.src with
  | .mem _, .mem _ => fs == 0
  | .sp _ _, .sp _ _ => false
  | _, _ => true

/-- The operand values an instruction may hold. -/
def Instr.wf : Instr → Bool
  | .add _ _ _ => true
  | .sub _ _ _ => true
  | .mul _ _ _ => true
  | .mulh _ _ _ => true
  | .mulhn _ _ _ => true
  | .div _ _ _ => true
  | .divn _ _ _ => true
  | .rem _ _ _ => true
  | .remn _ _ _ => true
  | .and _ _ _ => true
  | .or _ _ _ => true
  | .xor _ _ _ => true
  | .andn _ _ _ => true
  | .shl _ _ _ => true
  | .shr _ _ _ => true
  | .sha _ _ _ => true
  | .rot _ _ _ => true
  | .min _ _ _ => true
  | .max _ _ _ => true
  | .minn _ _ _ => true
  | .maxn _ _ _ => true
  | .clz _ _ => true
  | .ctz _ _ => true
  | .popc _ _ => true
  | .sel _ ps _ _ => decide (ps.toNat < 96)
  | .addi _ _ _ => true
  | .andi _ _ _ => true
  | .ori _ _ _ => true
  | .xori _ _ _ => true
  | .shli _ _ _ => true
  | .shri _ _ _ => true
  | .shai _ _ _ => true
  | .movi _ _ => true
  | .movhi _ _ => true
  | .cmpi pd _ _ _ => decide (pd.toNat < 96)
  | .cmp pd _ _ _ => decide (pd.toNat < 96)
  | .pand pd ps1 ps2 => decide (pd.toNat < 96) && decide (ps1.toNat < 96) && decide (ps2.toNat < 96)
  | .por pd ps1 ps2 => decide (pd.toNat < 96) && decide (ps1.toNat < 96) && decide (ps2.toNat < 96)
  | .pxor pd ps1 ps2 => decide (pd.toNat < 96) && decide (ps1.toNat < 96) && decide (ps2.toNat < 96)
  | .pandn pd ps1 ps2 => decide (pd.toNat < 96) && decide (ps1.toNat < 96) && decide (ps2.toNat < 96)
  | .pnot pd ps1 => decide (pd.toNat < 96) && decide (ps1.toNat < 96)
  | .pmov pd ps1 => decide (pd.toNat < 96) && decide (ps1.toNat < 96)
  | .amov _ _ => true
  | .aadd _ _ _ _ => true
  | .aget _ _ _ => true
  | .abind _ _ _ => true
  | .astr _ _ _ => true
  | .br _ => true
  | .brc _ _ _ _ => true
  | .jmp _ => true
  | .call _ _ => true
  | .ret _ => true
  | .loop _ _ off _ => (off != 0)
  | .lexit _ _ => true
  | .spawn _ _ => true
  | .tend => true
  | .trap _ => true
  | .chk x1 x2 kind => (kind.fits x1 && kind.fits x2)
  | .chkp ps1 ps2 => decide (ps1.toNat < 96) && decide (ps2.toNat < 96)
  | .mfc _ num => (cregListed num)
  | .mtc num _ => (cregListed num)
  | .mfs _ _ => true
  | .mts _ _ => true
  | .tret => true
  | .tretEnd _ => true
  | .tretYield => true
  | .ctxsv _ => true
  | .ctxld _ => true
  | .mown => true
  | .mgive => true
  | .tlbiAll _ _ => true
  | .tlbiVa _ _ => true
  | .tlbiWalk _ _ => true
  | .vadd _ _ _ _ _ => true
  | .vsub _ _ _ _ _ => true
  | .vmul _ _ _ _ sat => (sat == .wrap)
  | .vmulh _ _ _ _ sat => (sat == .wrap)
  | .vmin _ _ _ _ sat => (sat == .wrap)
  | .vmax _ _ _ _ sat => (sat == .wrap)
  | .vminn _ _ _ _ sat => (sat == .wrap)
  | .vmaxn _ _ _ _ sat => (sat == .wrap)
  | .vabs _ _ _ sat => (sat != .us)
  | .vand _ _ _ _ sat => (sat == .wrap)
  | .vor _ _ _ _ sat => (sat == .wrap)
  | .vxor _ _ _ _ sat => (sat == .wrap)
  | .vandn _ _ _ _ sat => (sat == .wrap)
  | .vshl _ _ _ _ sat => (sat == .wrap)
  | .vshr _ _ _ _ sat => (sat == .wrap)
  | .vsha _ _ _ _ sat => (sat == .wrap)
  | .vcmp _ _ _ _ _ => true
  | .vsel _ _ _ _ => true
  | .vfadd _ _ _ _ => true
  | .vfsub _ _ _ _ => true
  | .vfmul _ _ _ _ => true
  | .vfma _ _ _ _ _ => true
  | .vfms _ _ _ _ _ => true
  | .vfmin _ _ _ _ => true
  | .vfmax _ _ _ _ => true
  | .vfabs _ _ _ => true
  | .vfneg _ _ _ => true
  | .vfcmp _ _ _ _ _ => true
  | .vexp2 _ _ _ => true
  | .vlog2 _ _ _ => true
  | .vrcp _ _ _ => true
  | .vrsq _ _ _ => true
  | .vcvt _ _ _ src tgt => (src.ok) && (tgt.ok)
  | .vcvts _ _ _ _ src tgt => (src.ok) && (tgt.ok)
  | .vbfx _ _ _ len _ _ => (lenOk len)
  | .vbfi _ _ _ len _ => (lenOk len)
  | .vfsh _ _ _ _ _ => true
  | .vpopc _ _ _ => true
  | .vclz _ _ _ => true
  | .vperm _ _ _ _ => true
  | .vbcast _ _ _ => true
  | .vslide _ _ _ _ _ => true
  | .vlut _ _ _ row0 sz _ => (lutOk row0 sz)
  | .vcomp _ _ _ => true
  | .vexpd _ _ _ => true
  | .vradd _ _ _ => true
  | .vrmax _ _ _ => true
  | .vrmin _ _ _ => true
  | .vrfadd _ _ _ => true
  | .vrfmax _ _ _ => true
  | .vmov _ _ _ => true
  | .vmovi _ _ _ => true
  | .vins _ _ _ => true
  | .vext _ _ _ _ => true
  | .kand _ _ _ => true
  | .kor _ _ _ => true
  | .kxor _ _ _ => true
  | .knot _ _ => true
  | .kmov _ => true
  | .kpop _ _ => true
  | .sseed _ _ _ => true
  | .sgen _ _ _ _ => true
  | .sand _ _ _ => true
  | .sor _ _ _ => true
  | .smin _ _ _ => true
  | .smax _ _ _ => true
  | .sxnor _ _ _ => true
  | .smux _ _ _ _ => true
  | .scnt _ _ _ _ => true
  | .sregen _ _ _ => true
  | .sdly _ _ _ => true
  | .scls _ _ => true
  | .mzero _ => true
  | .mldw _ _ _ _ _ => true
  | .mma _ _ _ _ _ => true
  | .mmat _ _ _ _ _ => true
  | .mdrain _ tgt _ => (tgt.rowOk)
  | .mdraina _ tgt _ _ _ => (tgt.rowOk)
  | .mgemm _ _ => true
  | .mattn _ _ => true
  | .mstep => true
  | .mcancel => true
  | .mbias _ _ _ => true
  | .mscale _ _ _ => true
  | .ld _ _ _ _ _ => true
  | .ldv _ _ _ _ => true
  | .lds form _ _ => (form.ok)
  | .ldsg _ _ _ _ _ _ => true
  | .ldg _ _ _ _ => true
  | .atadd _ _ _ sz _ => decide (sz.toNat < 4)
  | .atand gd _ gs1 sz _ => (sz16Ok sz gd gs1)
  | .ator gd _ gs1 sz _ => (sz16Ok sz gd gs1)
  | .atxor gd _ gs1 sz _ => (sz16Ok sz gd gs1)
  | .atmin _ _ _ sz _ => decide (sz.toNat < 4)
  | .atmax _ _ _ sz _ => decide (sz.toNat < 4)
  | .atminn _ _ _ sz _ => decide (sz.toNat < 4)
  | .atmaxn _ _ _ sz _ => decide (sz.toNat < 4)
  | .atswp gd _ gs1 sz _ => (sz16Ok sz gd gs1)
  | .atcas gd _ gs1 gs2 sz _ => (sz16Ok sz gd gs1 && sz16Ok sz gd gs2)
  | .atfadd _ _ _ sz _ => (sz == 2)
  | .marm _ _ _ => true
  | .st _ _ _ _ => true
  | .stv _ _ _ _ _ => true
  | .sts _ _ _ _ => true
  | .stss _ _ byte sz _ => (byteOk byte sz)
  | .stg _ _ _ _ _ => true
  | .stz _ _ => true
  | .cpy _ _ => true
  | .cpyw _ _ _ _ _ _ => true
  | .cpyx pl _ fs => (pl.cpyxOk fs)
  | .cpyg _ _ _ _ _ => true
  | .jsub _ _ _ => true
  | .jcan _ => true
  | .tnew _ _ _ => true
  | .tfree _ => true
  | .tuse _ _ => true
  | .thint _ _ => true
  | .tpin _ => true
  | .tunpin _ => true
  | .tfetch _ _ => true
  | .tlock _ _ _ => true
  | .tunlock _ _ => true
  | .tinfo _ _ _ => true
  | .kvnew _ _ _ => true
  | .kvapp _ _ _ _ => true
  | .kvret _ _ _ => true
  | .kvpos _ _ _ _ => true
  | .kvinfo _ _ _ => true
  | .wait _ _ _ => true
  | .bari pd _ => decide (pd.toNat < 96)
  | .bara _ => true
  | .barw _ _ => true
  | .baraw _ => true
  | .bfree _ => true
  | .monw _ => true
  | .acq _ _ => true
  | .rel _ _ => true
  | .fence _ _ => true
  | .yield => true
  | .rdv pd _ => decide (pd.toNat < 96)
  | .spawnPost _ _ _ _ _ _ => true
  | .nullBundle => true
  | .mldwFillLand _ _ _ => true
  | .scratchpadDrainRow _ _ _ => true
  | .memoryDrainRow _ _ _ => true
  | .engineDc _ => true
  | .piccoloResidencyResume _ => true
  | .pageLanded _ _ _ _ => true
  | .l1Fill _ _ _ _ _ _ => true
  | .refillComplete _ => true
  | .lineDrain _ _ => true
  | .atomicAtHome _ _ _ _ _ _ _ _ => true
  | .replyArrival _ _ _ => true
  | .monitorArm _ _ _ _ => true
  | .spuriousMonitorEvent _ _ => true
  | .copyBlockIssue _ _ _ => true
  | .copyBlockLand _ _ _ => true
  | .barrierArrival _ _ _ _ => true
  | .relPerform _ _ _ => true
  | .fenceComplete _ => true
  | .holdRelease _ => true
  | .holdTimeout _ => true
  | .memoryTimeout _ => true
  | .progressWatchdog _ => true
  | .hardWatchdog _ => true
  | .shadowLatchSquash _ => true
  | .regulatorSettleEnd _ => true
  | .takeAsyncRequest _ => true
  | .preemptRequest _ => true
  | .pickup _ _ => true
  | .writeBack _ => true
  | .taskRelease _ => true
  | .unitCompletion _ => true
  | .completionEntryPost _ => true
  | .doorbell _ _ => true
  | .schdb _ _ => true
  | .takeCommand _ => true
  | .admitGang _ => true
  | .gangReservation _ => true
  | .priorityPromotion _ => true
  | .migrationRequest _ => true
  | .migration _ _ => true
  | .dutyTakesEffect _ => true
  | .thermalDutyUpdate _ => true
  | .gets _ _ _ _ => true
  | .getm _ _ => true
  | .putm _ _ => true
  | .invalidation _ _ _ => true
  | .invalidationAck _ _ _ => true
  | .residencyAction _ _ => true
  | .residencyActionFinish _ => true
  | .sramThermalShutdown _ => true
  | .loopLost _ => true
  | .loopRecovered _ => true
  | .tableChange => true
  | .shutdownStop => true
  | .blackboxSquashWindow _ => true
  | .coldReset => true
  | .warmReset => true
  | .maintenanceReset _ => true
  | .laneLendTimeout _ _ => true
  | .mgnWrite _ _ => true
  | .registerWrite _ _ _ => true
  | .hostWrite _ _ _ _ _ => true
  | .hostRead _ _ _ _ => true
  | .functionLevelReset _ => true
  | .acmd _ => true
  | .attestationReportDone _ => true
  | .lkctlUp _ _ => true
  | .dataFlit _ _ _ _ => true
  | .acknowledgement _ _ _ _ => true
  | .nak _ _ _ _ => true
  | .ackTimer _ _ _ => true
  | .replayTimeout _ _ _ => true
  | .crcWindowClose _ _ _ => true
  | .retrainComplete _ _ _ _ => true
  | .linkDead _ _ => true
  | .linkStateUpdate _ _ _ => true
  | .drainMarker _ _ _ _ => true
  | .drainRound _ _ => true
  | .illegalEncoding _ => true

/-- The privileged opcodes 0x60 to 0x67 of the S slot (06 R134). -/
def Instr.privileged : Instr → Bool
  | .mfs .. | .mts .. | .tret | .tretEnd .. | .tretYield | .ctxsv .. | .ctxld .. | .mown | .mgive
  | .tlbiAll .. | .tlbiVa .. | .tlbiWalk .. => true
  | _ => false

end Sys2Proof
end

