-- ==== Sys2Proof/Decode.lean ====
section
/-! DEFINITION. The decoder of bundles and slots, total on any bits, and the encoder written from the same encoding
tables (05 R84-R96, and the encoding table of each chapter). A slot that is no instruction is rejected by the name of
the check it fails. -/

namespace Sys2Proof

/-! ### Codes of the enumerated fields -/

def Cond.ofCode : Nat → Option Cond
  | 0 => some .eq | 1 => some .ne | 2 => some .lt | 3 => some .ge | 4 => some .le | 5 => some .gt
  | 6 => some .ltn | 7 => some .gen | 8 => some .len | 9 => some .gtn | 10 => some .bs | 11 => some .bc
  | _ => none
def Cond.toCode : Cond → Nat
  | .eq => 0 | .ne => 1 | .lt => 2 | .ge => 3 | .le => 4 | .gt => 5
  | .ltn => 6 | .gen => 7 | .len => 8 | .gtn => 9 | .bs => 10 | .bc => 11
def FCond.ofCode : Nat → Option FCond
  | 0 => some .eq | 1 => some .ne | 2 => some .lt | 3 => some .ge | 4 => some .le | 5 => some .gt
  | 6 => some .un | 7 => some .ord | _ => none
def FCond.toCode : FCond → Nat
  | .eq => 0 | .ne => 1 | .lt => 2 | .ge => 3 | .le => 4 | .gt => 5 | .un => 6 | .ord => 7
def AgetSel.ofCode : Nat → Option AgetSel
  | 0 => some .whole | 1 => some .offset | 2 => some .ident | 3 => some .stride | _ => none
def AgetSel.toCode : AgetSel → Nat
  | .whole => 0 | .offset => 1 | .ident => 2 | .stride => 3
def ChkKind.ofCode : Nat → Option ChkKind
  | 0 => some .g | 1 => some .v | 2 => some .a | 3 => some .k | _ => none
def ChkKind.toCode : ChkKind → Nat
  | .g => 0 | .v => 1 | .a => 2 | .k => 3
def Sat.ofCode : Nat → Option Sat
  | 0 => some .wrap | 1 => some .ss | 2 => some .us | _ => none
def Sat.toCode : Sat → Nat
  | .wrap => 0 | .ss => 1 | .us => 2
def ScntMode.ofCode : Nat → Option ScntMode
  | 0 => some .n | 1 => some .u | 2 => some .b | _ => none
def ScntMode.toCode : ScntMode → Nat
  | .n => 0 | .u => 1 | .b => 2
def MldwMode.ofCode : Nat → Option MldwMode
  | 0 => some .dense | 1 => some .pair | 2 => some .masked | _ => none
def MldwMode.toCode : MldwMode → Nat
  | .dense => 0 | .pair => 1 | .masked => 2
def LaneTy.ofCode : Nat → Option LaneTy
  | 0 => some .f32 | 1 => some .i32 | 2 => some .u32 | _ => none
def LaneTy.toCode : LaneTy → Nat
  | .f32 => 0 | .i32 => 1 | .u32 => 2
def FollowOn.ofCode : Nat → Option FollowOn
  | 0 => some .mgemm | 1 => some .mattn | 2 => some .mdrain | 3 => some .mdraina | _ => none
def FollowOn.toCode : FollowOn → Nat
  | .mgemm => 0 | .mattn => 1 | .mdrain => 2 | .mdraina => 3
def Hint.ofCode : Nat → Option Hint
  | 0 => some .none | 1 => some .soon | 2 => some .done | 3 => some .nozip | 4 => some .nodrop | _ => Option.none
def Hint.toCode : Hint → Nat
  | .none => 0 | .soon => 1 | .done => 2 | .nozip => 3 | .nodrop => 4
def TinfoSel.ofCode : Nat → Option TinfoSel
  | 0 => some .state | 1 => some .size | 2 => some .base | 3 => some .nud | 4 => some .cur | _ => none
def TinfoSel.toCode : TinfoSel → Nat
  | .state => 0 | .size => 1 | .base => 2 | .nud => 3 | .cur => 4
def KvposSel.ofCode : Nat → Option KvposSel
  | 0 => some .at_ | 1 => some .next | 2 => some .live | _ => none
def KvposSel.toCode : KvposSel → Nat
  | .at_ => 0 | .next => 1 | .live => 2
def KvinfoSel.ofCode : Nat → Option KvinfoSel
  | 0 => some .next | 1 => some .pages | 2 => some .tags | 3 => some .live | 4 => some .shape | 5 => some .state
  | _ => none
def KvinfoSel.toCode : KvinfoSel → Nat
  | .next => 0 | .pages => 1 | .tags => 2 | .live => 3 | .shape => 4 | .state => 5
def Scope.ofCode : Nat → Option Scope
  | 0 => some .core | 1 => some .gang | 2 => some .die | 3 => some .pkg | 4 => some .sys | _ => none
def Scope.toCode : Scope → Nat
  | .core => 0 | .gang => 1 | .die => 2 | .pkg => 3 | .sys => 4

/-! ### Composite operands -/

/-- Third operand of a binary lane operation: vs2, BI, imm (07 R138). -/
def VSrc.ofRaw : Nat → Nat → Nat → Option VSrc
  | vs2, 0, 0 => some (.reg (BitVec.ofNat 6 vs2))
  | 0, 1, x => some (.imm (BitVec.ofNat 16 x))
  | _, _, _ => none
def VSrc.toRaw : VSrc → Nat × Nat × Nat
  | .reg v => (v.toNat, 0, 0)
  | .imm i => (0, 1, i.toNat)
/-- A format operand of VCVT: code and SS or TS (07 R146). -/
def CvtFmt.ofRaw (c s : Nat) : Option CvtFmt :=
  if s = 1 then some (.slot (BitVec.ofNat 5 c))
  else if c < 28 then some (.code (BitVec.ofNat 5 c))
  else if c = 28 then some .i32 else if c = 29 then some .u32 else none
def CvtFmt.toRaw : CvtFmt → Nat × Nat
  | .code c => (c.toNat, 0)
  | .i32 => (28, 0)
  | .u32 => (29, 0)
  | .slot n => (n.toNat, 1)
/-- vs2, PI, pos (07 R148). -/
def BitPos.ofRaw : Nat → Nat → Nat → Option BitPos
  | vs2, 0, 0 => some (.reg (BitVec.ofNat 6 vs2))
  | 0, 1, p => some (.imm (BitVec.ofNat 5 p))
  | _, _, _ => none
def BitPos.toRaw : BitPos → Nat × Nat × Nat
  | .reg v => (v.toNat, 0, 0)
  | .imm p => (0, 1, p.toNat)
/-- vs3, FI, amt (07 R148). -/
def FunAmt.ofRaw : Nat → Nat → Nat → Option FunAmt
  | vs3, 0, 0 => some (.reg (BitVec.ofNat 6 vs3))
  | 0, 1, p => some (.imm (BitVec.ofNat 6 p))
  | _, _, _ => none
def FunAmt.toRaw : FunAmt → Nat × Nat × Nat
  | .reg v => (v.toNat, 0, 0)
  | .imm p => (0, 1, p.toNat)
/-- MODE, src, lane of VBCAST (07 R150). -/
def BcastSrc.ofRaw : Nat → Nat → Nat → Option BcastSrc
  | 0, x, 0 => some (.g (BitVec.ofNat 6 x))
  | 1, v, l => some (.lane (BitVec.ofNat 6 v) (BitVec.ofNat 6 l))
  | _, _, _ => none
def BcastSrc.toRaw : BcastSrc → Nat × Nat × Nat
  | .g r => (0, r.toNat, 0)
  | .lane v l => (1, v.toNat, l.toNat)
/-- dst, src, MODE of KMOV; a k number leaves the two high bits Zero (07 R155). -/
def KmovForm.ofRaw (d s m : Nat) : Option KmovForm :=
  if m = 0 ∧ d < 16 ∧ s < 16 then some (.kk (BitVec.ofNat 4 d) (BitVec.ofNat 4 s))
  else if m = 1 ∧ d < 16 then some (.kg (BitVec.ofNat 4 d) (BitVec.ofNat 6 s))
  else if m = 2 ∧ s < 16 then some (.gk (BitVec.ofNat 6 d) (BitVec.ofNat 4 s))
  else none
def KmovForm.toRaw : KmovForm → Nat × Nat × Nat
  | .kk d s => (d.toNat, s.toNat, 0)
  | .kg d s => (d.toNat, s.toNat, 1)
  | .gk d s => (d.toNat, s.toNat, 2)
/-- The 18-bit A field: IND, then bank and row, or aN and 13 Zero bits (08 R162). -/
def SpPos.ofRaw (n : Nat) : Option SpPos :=
  if n < 2 ^ 17 then some (.direct (BitVec.ofNat 6 (n / 2 ^ 11)) (BitVec.ofNat 11 (n % 2 ^ 11)))
  else if n % 2 ^ 13 = 0 then some (.indirect (BitVec.ofNat 4 ((n - 2 ^ 17) / 2 ^ 13))) else none
def SpPos.toRaw : SpPos → Nat
  | .direct b r => b.toNat * 2 ^ 11 + r.toNat
  | .indirect a => 2 ^ 17 + a.toNat * 2 ^ 13
/-- The 37-bit target field of a drain (08 R170). -/
def DrainTgt.ofRaw (n : Nat) : Option DrainTgt :=
  if n < 2 ^ 36 then
    if n % 2 ^ 14 = 0 then
      some (.sp (BitVec.ofNat 6 (n / 2 ^ 30)) (BitVec.ofNat 11 (n / 2 ^ 19 % 2 ^ 11)) (BitVec.ofNat 5 (n / 2 ^ 14 % 2 ^ 5)))
    else none
  else some (.mem (BitVec.ofNat 4 ((n - 2 ^ 36) / 2 ^ 32)) (BitVec.ofNat 32 (n % 2 ^ 32)))
def DrainTgt.toRaw : DrainTgt → Nat
  | .sp b r f => b.toNat * 2 ^ 30 + r.toNat * 2 ^ 19 + f.toNat * 2 ^ 14
  | .mem a imm => 2 ^ 36 + a.toNat * 2 ^ 32 + imm.toNat
/-- dst, V, km, byte, sz, SX of LDS; the fields of the other form are Zero (09 R185). -/
def LdsForm.ofRaw : Nat → Nat → Nat → Nat → Nat → Nat → Option LdsForm
  | d, 1, km, 0, 0, 0 => some (.vec (BitVec.ofNat 6 d) (BitVec.ofNat 4 km))
  | d, 0, 0, byte, sz, sx => some (.scalar (BitVec.ofNat 6 d) (BitVec.ofNat 6 byte) (BitVec.ofNat 2 sz) (BitVec.ofNat 1 sx))
  | _, _, _, _, _, _ => none
def LdsForm.toRaw : LdsForm → Nat × Nat × Nat × Nat × Nat × Nat
  | .vec d km => (d.toNat, 1, km.toNat, 0, 0, 0)
  | .scalar d byte sz sx => (d.toNat, 0, 0, byte.toNat, sz.toNat, sx.toNat)
/-- A 17-bit place field of the given side (10 R201). -/
def Place.ofField (sp : Nat) (n : Nat) : Option Place :=
  if sp = 1 then some (.sp (BitVec.ofNat 6 (n / 2 ^ 11)) (BitVec.ofNat 11 (n % 2 ^ 11)))
  else if n % 2 ^ 13 = 0 then some (.mem (BitVec.ofNat 4 (n / 2 ^ 13))) else none
def Place.toField : Place → Nat
  | .sp b r => b.toNat * 2 ^ 11 + r.toNat
  | .mem a => a.toNat * 2 ^ 13
def Place.side : Place → Nat
  | .sp _ _ => 1
  | .mem _ => 0
def Place.ofRaw (dd n : Nat) : Option Place := Place.ofField dd n
def Place.toRaw (p : Place) : Nat × Nat := (p.side, p.toField)
/-- DIR: 0 memory to memory, 1 memory to scratchpad, 2 scratchpad to memory, 3 scratchpad to scratchpad (10 R202). -/
def Places.ofRaw (dir d s : Nat) : Option Places :=
  (Place.ofField (dir % 2) d).bind fun dst => (Place.ofField (dir / 2) s).bind fun src => some ⟨dst, src⟩
def Places.toRaw (p : Places) : Nat × Nat × Nat := (2 * p.src.side + p.dst.side, p.dst.toField, p.src.toField)

/-! ### Packing (05 R91) -/

/-- Fields packed from the top bit of an area of `w` bits downward; what is left below is Zero. -/
def packFields : Nat → List (Nat × Nat) → Nat
  | _, [] => 0
  | w, (n, v) :: fs => v * 2 ^ (w - n) + packFields (w - n) fs
/-- The values of fields of the given widths; none where a bit below the last field is one (05 R95). -/
def unpackFields : Nat → List Nat → Nat → Option (List Nat)
  | _, [], x => if x = 0 then some [] else none
  | w, n :: ns, x => (unpackFields (w - n) ns (x % 2 ^ (w - n))).map (x / 2 ^ (w - n) :: ·)

/-- The opcode maps of the slots (05 R93). -/
inductive OpMap where
  | s | v | v1 | m | l | w | c | y
  deriving DecidableEq, Repr

/-- The width of the operand area (05 R89). -/
def OpMap.area : OpMap → Nat
  | .s | .v | .v1 | .l | .c => 48
  | .m => 64
  | .w => 34
  | .y => 18
/-- The width of the opcode field (05 R89). -/
def OpMap.opcBits : OpMap → Nat
  | .w | .y => 6
  | _ => 8
/-- The width of a slot of this map. -/
def OpMap.width (mp : OpMap) : Nat := mp.area + 8 + mp.opcBits

/-- The operand field widths of each opcode of the S slot (06 R112-R134, 17 R314), from the top of the operand area downward. -/
def sWidths : Nat → Option (List Nat)
  | 0x01 => some [6, 6, 6]
  | 0x02 => some [6, 6, 6]
  | 0x03 => some [6, 6, 6]
  | 0x04 => some [6, 6, 6]
  | 0x05 => some [6, 6, 6]
  | 0x06 => some [6, 6, 6]
  | 0x07 => some [6, 6, 6]
  | 0x08 => some [6, 6, 6]
  | 0x09 => some [6, 6, 6]
  | 0x0A => some [6, 6, 6]
  | 0x0B => some [6, 6, 6]
  | 0x0C => some [6, 6, 6]
  | 0x0D => some [6, 6, 6]
  | 0x0E => some [6, 6, 6]
  | 0x0F => some [6, 6, 6]
  | 0x10 => some [6, 6, 6]
  | 0x11 => some [6, 6, 6]
  | 0x12 => some [6, 6, 6]
  | 0x13 => some [6, 6, 6]
  | 0x14 => some [6, 6, 6]
  | 0x15 => some [6, 6, 6]
  | 0x16 => some [6, 6]
  | 0x17 => some [6, 6]
  | 0x18 => some [6, 6]
  | 0x19 => some [6, 7, 6, 6]
  | 0x20 => some [6, 6, 36]
  | 0x21 => some [6, 6, 36]
  | 0x22 => some [6, 6, 36]
  | 0x23 => some [6, 6, 36]
  | 0x24 => some [6, 6, 6]
  | 0x25 => some [6, 6, 6]
  | 0x26 => some [6, 6, 6]
  | 0x27 => some [6, 42]
  | 0x28 => some [6, 22]
  | 0x29 => some [7, 6, 27, 4]
  | 0x2A => some [7, 6, 6, 4]
  | 0x30 => some [7, 7, 7]
  | 0x31 => some [7, 7, 7]
  | 0x32 => some [7, 7, 7]
  | 0x33 => some [7, 7, 7]
  | 0x34 => some [7, 7]
  | 0x35 => some [7, 7]
  | 0x38 => some [4, 4]
  | 0x39 => some [4, 4, 6, 16]
  | 0x3A => some [6, 4, 2]
  | 0x3B => some [4, 6, 6]
  | 0x3C => some [4, 6, 24]
  | 0x40 => some [32]
  | 0x41 => some [6, 6, 24, 4]
  | 0x42 => some [6]
  | 0x43 => some [6, 32]
  | 0x44 => some [6]
  | 0x45 => some [2, 6, 12, 3]
  | 0x46 => some [2, 32]
  | 0x47 => some [6, 4]
  | 0x48 => some []
  | 0x49 => some [16]
  | 0x4A => some [6, 6, 2]
  | 0x4B => some [7, 7]
  | 0x50 => some [6, 8]
  | 0x51 => some [8, 6]
  | 0x60 => some [6, 10]
  | 0x61 => some [10, 6]
  | 0x62 => some [2, 6]
  | 0x63 => some [6]
  | 0x64 => some [6]
  | 0x65 => some []
  | 0x66 => some []
  | 0x67 => some [2, 1, 6]
  | _ => none

/-- The operation that an opcode and its operand fields name in the S slot (06 R112-R134, 17 R314). -/
def sBuild : Nat → List Nat → Option Instr
  | 0x01, [rgd, rgs1, rgs2] => some (.add (BitVec.ofNat 6 rgd) (BitVec.ofNat 6 rgs1) (BitVec.ofNat 6 rgs2))
  | 0x02, [rgd, rgs1, rgs2] => some (.sub (BitVec.ofNat 6 rgd) (BitVec.ofNat 6 rgs1) (BitVec.ofNat 6 rgs2))
  | 0x03, [rgd, rgs1, rgs2] => some (.mul (BitVec.ofNat 6 rgd) (BitVec.ofNat 6 rgs1) (BitVec.ofNat 6 rgs2))
  | 0x04, [rgd, rgs1, rgs2] => some (.mulh (BitVec.ofNat 6 rgd) (BitVec.ofNat 6 rgs1) (BitVec.ofNat 6 rgs2))
  | 0x05, [rgd, rgs1, rgs2] => some (.mulhn (BitVec.ofNat 6 rgd) (BitVec.ofNat 6 rgs1) (BitVec.ofNat 6 rgs2))
  | 0x06, [rgd, rgs1, rgs2] => some (.div (BitVec.ofNat 6 rgd) (BitVec.ofNat 6 rgs1) (BitVec.ofNat 6 rgs2))
  | 0x07, [rgd, rgs1, rgs2] => some (.divn (BitVec.ofNat 6 rgd) (BitVec.ofNat 6 rgs1) (BitVec.ofNat 6 rgs2))
  | 0x08, [rgd, rgs1, rgs2] => some (.rem (BitVec.ofNat 6 rgd) (BitVec.ofNat 6 rgs1) (BitVec.ofNat 6 rgs2))
  | 0x09, [rgd, rgs1, rgs2] => some (.remn (BitVec.ofNat 6 rgd) (BitVec.ofNat 6 rgs1) (BitVec.ofNat 6 rgs2))
  | 0x0A, [rgd, rgs1, rgs2] => some (.and (BitVec.ofNat 6 rgd) (BitVec.ofNat 6 rgs1) (BitVec.ofNat 6 rgs2))
  | 0x0B, [rgd, rgs1, rgs2] => some (.or (BitVec.ofNat 6 rgd) (BitVec.ofNat 6 rgs1) (BitVec.ofNat 6 rgs2))
  | 0x0C, [rgd, rgs1, rgs2] => some (.xor (BitVec.ofNat 6 rgd) (BitVec.ofNat 6 rgs1) (BitVec.ofNat 6 rgs2))
  | 0x0D, [rgd, rgs1, rgs2] => some (.andn (BitVec.ofNat 6 rgd) (BitVec.ofNat 6 rgs1) (BitVec.ofNat 6 rgs2))
  | 0x0E, [rgd, rgs1, rgs2] => some (.shl (BitVec.ofNat 6 rgd) (BitVec.ofNat 6 rgs1) (BitVec.ofNat 6 rgs2))
  | 0x0F, [rgd, rgs1, rgs2] => some (.shr (BitVec.ofNat 6 rgd) (BitVec.ofNat 6 rgs1) (BitVec.ofNat 6 rgs2))
  | 0x10, [rgd, rgs1, rgs2] => some (.sha (BitVec.ofNat 6 rgd) (BitVec.ofNat 6 rgs1) (BitVec.ofNat 6 rgs2))
  | 0x11, [rgd, rgs1, rgs2] => some (.rot (BitVec.ofNat 6 rgd) (BitVec.ofNat 6 rgs1) (BitVec.ofNat 6 rgs2))
  | 0x12, [rgd, rgs1, rgs2] => some (.min (BitVec.ofNat 6 rgd) (BitVec.ofNat 6 rgs1) (BitVec.ofNat 6 rgs2))
  | 0x13, [rgd, rgs1, rgs2] => some (.max (BitVec.ofNat 6 rgd) (BitVec.ofNat 6 rgs1) (BitVec.ofNat 6 rgs2))
  | 0x14, [rgd, rgs1, rgs2] => some (.minn (BitVec.ofNat 6 rgd) (BitVec.ofNat 6 rgs1) (BitVec.ofNat 6 rgs2))
  | 0x15, [rgd, rgs1, rgs2] => some (.maxn (BitVec.ofNat 6 rgd) (BitVec.ofNat 6 rgs1) (BitVec.ofNat 6 rgs2))
  | 0x16, [rgd, rgs1] => some (.clz (BitVec.ofNat 6 rgd) (BitVec.ofNat 6 rgs1))
  | 0x17, [rgd, rgs1] => some (.ctz (BitVec.ofNat 6 rgd) (BitVec.ofNat 6 rgs1))
  | 0x18, [rgd, rgs1] => some (.popc (BitVec.ofNat 6 rgd) (BitVec.ofNat 6 rgs1))
  | 0x19, [rgd, rps, rgs1, rgs2] => some (.sel (BitVec.ofNat 6 rgd) (BitVec.ofNat 7 rps) (BitVec.ofNat 6 rgs1) (BitVec.ofNat 6 rgs2))
  | 0x20, [rgd, rgs1, rimm] => some (.addi (BitVec.ofNat 6 rgd) (BitVec.ofNat 6 rgs1) (BitVec.ofNat 36 rimm))
  | 0x21, [rgd, rgs1, rimm] => some (.andi (BitVec.ofNat 6 rgd) (BitVec.ofNat 6 rgs1) (BitVec.ofNat 36 rimm))
  | 0x22, [rgd, rgs1, rimm] => some (.ori (BitVec.ofNat 6 rgd) (BitVec.ofNat 6 rgs1) (BitVec.ofNat 36 rimm))
  | 0x23, [rgd, rgs1, rimm] => some (.xori (BitVec.ofNat 6 rgd) (BitVec.ofNat 6 rgs1) (BitVec.ofNat 36 rimm))
  | 0x24, [rgd, rgs1, rn] => some (.shli (BitVec.ofNat 6 rgd) (BitVec.ofNat 6 rgs1) (BitVec.ofNat 6 rn))
  | 0x25, [rgd, rgs1, rn] => some (.shri (BitVec.ofNat 6 rgd) (BitVec.ofNat 6 rgs1) (BitVec.ofNat 6 rn))
  | 0x26, [rgd, rgs1, rn] => some (.shai (BitVec.ofNat 6 rgd) (BitVec.ofNat 6 rgs1) (BitVec.ofNat 6 rn))
  | 0x27, [rgd, rimm] => some (.movi (BitVec.ofNat 6 rgd) (BitVec.ofNat 42 rimm))
  | 0x28, [rgd, rimm] => some (.movhi (BitVec.ofNat 6 rgd) (BitVec.ofNat 22 rimm))
  | 0x29, [rpd, rgs1, rimm, rcond] => (Cond.ofCode rcond).bind fun cond => some (.cmpi (BitVec.ofNat 7 rpd) (BitVec.ofNat 6 rgs1) (BitVec.ofNat 27 rimm) cond)
  | 0x2A, [rpd, rgs1, rgs2, rcond] => (Cond.ofCode rcond).bind fun cond => some (.cmp (BitVec.ofNat 7 rpd) (BitVec.ofNat 6 rgs1) (BitVec.ofNat 6 rgs2) cond)
  | 0x30, [rpd, rps1, rps2] => some (.pand (BitVec.ofNat 7 rpd) (BitVec.ofNat 7 rps1) (BitVec.ofNat 7 rps2))
  | 0x31, [rpd, rps1, rps2] => some (.por (BitVec.ofNat 7 rpd) (BitVec.ofNat 7 rps1) (BitVec.ofNat 7 rps2))
  | 0x32, [rpd, rps1, rps2] => some (.pxor (BitVec.ofNat 7 rpd) (BitVec.ofNat 7 rps1) (BitVec.ofNat 7 rps2))
  | 0x33, [rpd, rps1, rps2] => some (.pandn (BitVec.ofNat 7 rpd) (BitVec.ofNat 7 rps1) (BitVec.ofNat 7 rps2))
  | 0x34, [rpd, rps1] => some (.pnot (BitVec.ofNat 7 rpd) (BitVec.ofNat 7 rps1))
  | 0x35, [rpd, rps1] => some (.pmov (BitVec.ofNat 7 rpd) (BitVec.ofNat 7 rps1))
  | 0x38, [rad, ras] => some (.amov (BitVec.ofNat 4 rad) (BitVec.ofNat 4 ras))
  | 0x39, [rad, ras, rgs, rimm] => some (.aadd (BitVec.ofNat 4 rad) (BitVec.ofNat 4 ras) (BitVec.ofNat 6 rgs) (BitVec.ofNat 16 rimm))
  | 0x3A, [rgd, ras, rsel] => (AgetSel.ofCode rsel).bind fun sel => some (.aget (BitVec.ofNat 6 rgd) (BitVec.ofNat 4 ras) sel)
  | 0x3B, [rad, rgs1, rgs2] => some (.abind (BitVec.ofNat 4 rad) (BitVec.ofNat 6 rgs1) (BitVec.ofNat 6 rgs2))
  | 0x3C, [rad, rgs, rimm] => some (.astr (BitVec.ofNat 4 rad) (BitVec.ofNat 6 rgs) (BitVec.ofNat 24 rimm))
  | 0x40, [roff] => some (.br (BitVec.ofNat 32 roff))
  | 0x41, [rgs1, rgs2, roff, rcond] => (Cond.ofCode rcond).bind fun cond => some (.brc (BitVec.ofNat 6 rgs1) (BitVec.ofNat 6 rgs2) (BitVec.ofNat 24 roff) cond)
  | 0x42, [rgs] => some (.jmp (BitVec.ofNat 6 rgs))
  | 0x43, [rgd, roff] => some (.call (BitVec.ofNat 6 rgd) (BitVec.ofNat 32 roff))
  | 0x44, [rgs] => some (.ret (BitVec.ofNat 6 rgs))
  | 0x45, [rlc, rgs, roff, rsm1] => some (.loop (BitVec.ofNat 2 rlc) (BitVec.ofNat 6 rgs) (BitVec.ofNat 12 roff) (BitVec.ofNat 3 rsm1))
  | 0x46, [rlc, roff] => some (.lexit (BitVec.ofNat 2 rlc) (BitVec.ofNat 32 roff))
  | 0x47, [rgs, rq] => some (.spawn (BitVec.ofNat 6 rgs) (BitVec.ofNat 4 rq))
  | 0x48, [] => some .tend
  | 0x49, [rimm] => some (.trap (BitVec.ofNat 16 rimm))
  | 0x4A, [rx1, rx2, rkind] => (ChkKind.ofCode rkind).bind fun kind => some (.chk (BitVec.ofNat 6 rx1) (BitVec.ofNat 6 rx2) kind)
  | 0x4B, [rps1, rps2] => some (.chkp (BitVec.ofNat 7 rps1) (BitVec.ofNat 7 rps2))
  | 0x50, [rgd, rnum] => some (.mfc (BitVec.ofNat 6 rgd) (BitVec.ofNat 8 rnum))
  | 0x51, [rnum, rgs] => some (.mtc (BitVec.ofNat 8 rnum) (BitVec.ofNat 6 rgs))
  | 0x60, [rgd, rnum] => some (.mfs (BitVec.ofNat 6 rgd) (BitVec.ofNat 10 rnum))
  | 0x61, [rnum, rgs] => some (.mts (BitVec.ofNat 10 rnum) (BitVec.ofNat 6 rgs))
  | 0x62, [0, 0] => some .tret
  | 0x62, [1, rgs] => some (.tretEnd (BitVec.ofNat 6 rgs))
  | 0x62, [2, 0] => some .tretYield
  | 0x63, [rgs] => some (.ctxsv (BitVec.ofNat 6 rgs))
  | 0x64, [rgs] => some (.ctxld (BitVec.ofNat 6 rgs))
  | 0x65, [] => some .mown
  | 0x66, [] => some .mgive
  | 0x67, [0, rsc, rgs] => some (.tlbiAll (BitVec.ofNat 1 rsc) (BitVec.ofNat 6 rgs))
  | 0x67, [1, rsc, rgs] => some (.tlbiVa (BitVec.ofNat 1 rsc) (BitVec.ofNat 6 rgs))
  | 0x67, [2, rsc, rgs] => some (.tlbiWalk (BitVec.ofNat 1 rsc) (BitVec.ofNat 6 rgs))
  | _, _ => none

/-- The operand field widths of each opcode of both V slots (07), from the top of the operand area downward. -/
def vWidths : Nat → Option (List Nat)
  | 0x01 => some [6, 6, 6, 4, 2, 1, 16]
  | 0x02 => some [6, 6, 6, 4, 2, 1, 16]
  | 0x03 => some [6, 6, 6, 4, 2, 1, 16]
  | 0x04 => some [6, 6, 6, 4, 2, 1, 16]
  | 0x05 => some [6, 6, 6, 4, 2, 1, 16]
  | 0x06 => some [6, 6, 6, 4, 2, 1, 16]
  | 0x07 => some [6, 6, 6, 4, 2, 1, 16]
  | 0x08 => some [6, 6, 6, 4, 2, 1, 16]
  | 0x09 => some [6, 6, 4, 2]
  | 0x0A => some [6, 6, 6, 4, 2, 1, 16]
  | 0x0B => some [6, 6, 6, 4, 2, 1, 16]
  | 0x0C => some [6, 6, 6, 4, 2, 1, 16]
  | 0x0D => some [6, 6, 6, 4, 2, 1, 16]
  | 0x0E => some [6, 6, 6, 4, 2, 1, 16]
  | 0x0F => some [6, 6, 6, 4, 2, 1, 16]
  | 0x10 => some [6, 6, 6, 4, 2, 1, 16]
  | 0x11 => some [4, 6, 6, 4, 4, 1, 16]
  | 0x12 => some [6, 6, 6, 4]
  | 0x20 => some [6, 6, 6, 4]
  | 0x21 => some [6, 6, 6, 4]
  | 0x22 => some [6, 6, 6, 4]
  | 0x23 => some [6, 6, 6, 6, 4]
  | 0x24 => some [6, 6, 6, 6, 4]
  | 0x25 => some [6, 6, 6, 4]
  | 0x26 => some [6, 6, 6, 4]
  | 0x27 => some [6, 6, 4]
  | 0x28 => some [6, 6, 4]
  | 0x29 => some [4, 6, 6, 4, 4]
  | 0x2A => some [6, 6, 4]
  | 0x2B => some [6, 6, 4]
  | 0x2C => some [6, 6, 4]
  | 0x2D => some [6, 6, 4]
  | 0x30 => some [6, 6, 4, 5, 5, 1, 1]
  | 0x31 => some [6, 6, 6, 4, 5, 5, 1, 1]
  | 0x38 => some [6, 6, 6, 4, 1, 5, 6, 1]
  | 0x39 => some [6, 6, 6, 4, 1, 5, 6]
  | 0x3A => some [6, 6, 6, 6, 4, 1, 6]
  | 0x3B => some [6, 6, 4]
  | 0x3C => some [6, 6, 4]
  | 0x40 => some [6, 6, 6, 4]
  | 0x41 => some [6, 1, 6, 6, 4]
  | 0x42 => some [6, 6, 6, 6, 4]
  | 0x43 => some [6, 6, 6, 11, 4, 4]
  | 0x44 => some [6, 6, 4]
  | 0x45 => some [6, 6, 4]
  | 0x48 => some [6, 6, 4]
  | 0x49 => some [6, 6, 4]
  | 0x4A => some [6, 6, 4]
  | 0x4B => some [6, 6, 4]
  | 0x4C => some [6, 6, 4]
  | 0x50 => some [6, 6, 4]
  | 0x51 => some [6, 32, 4]
  | 0x52 => some [6, 6, 6]
  | 0x53 => some [6, 6, 6, 1]
  | 0x58 => some [4, 4, 4]
  | 0x59 => some [4, 4, 4]
  | 0x5A => some [4, 4, 4]
  | 0x5B => some [4, 4]
  | 0x5C => some [6, 6, 2]
  | 0x5D => some [6, 4]
  | _ => none

/-- The operation that an opcode and its operand fields name in both V slots (07). -/
def vBuild : Nat → List Nat → Option Instr
  | 0x01, [rvd, rvs1, rvs2, rkm, rsat, rbi, rimm] => (VSrc.ofRaw rvs2 rbi rimm).bind fun src => (Sat.ofCode rsat).bind fun sat => some (.vadd (BitVec.ofNat 6 rvd) (BitVec.ofNat 6 rvs1) src (BitVec.ofNat 4 rkm) sat)
  | 0x02, [rvd, rvs1, rvs2, rkm, rsat, rbi, rimm] => (VSrc.ofRaw rvs2 rbi rimm).bind fun src => (Sat.ofCode rsat).bind fun sat => some (.vsub (BitVec.ofNat 6 rvd) (BitVec.ofNat 6 rvs1) src (BitVec.ofNat 4 rkm) sat)
  | 0x03, [rvd, rvs1, rvs2, rkm, rsat, rbi, rimm] => (VSrc.ofRaw rvs2 rbi rimm).bind fun src => (Sat.ofCode rsat).bind fun sat => some (.vmul (BitVec.ofNat 6 rvd) (BitVec.ofNat 6 rvs1) src (BitVec.ofNat 4 rkm) sat)
  | 0x04, [rvd, rvs1, rvs2, rkm, rsat, rbi, rimm] => (VSrc.ofRaw rvs2 rbi rimm).bind fun src => (Sat.ofCode rsat).bind fun sat => some (.vmulh (BitVec.ofNat 6 rvd) (BitVec.ofNat 6 rvs1) src (BitVec.ofNat 4 rkm) sat)
  | 0x05, [rvd, rvs1, rvs2, rkm, rsat, rbi, rimm] => (VSrc.ofRaw rvs2 rbi rimm).bind fun src => (Sat.ofCode rsat).bind fun sat => some (.vmin (BitVec.ofNat 6 rvd) (BitVec.ofNat 6 rvs1) src (BitVec.ofNat 4 rkm) sat)
  | 0x06, [rvd, rvs1, rvs2, rkm, rsat, rbi, rimm] => (VSrc.ofRaw rvs2 rbi rimm).bind fun src => (Sat.ofCode rsat).bind fun sat => some (.vmax (BitVec.ofNat 6 rvd) (BitVec.ofNat 6 rvs1) src (BitVec.ofNat 4 rkm) sat)
  | 0x07, [rvd, rvs1, rvs2, rkm, rsat, rbi, rimm] => (VSrc.ofRaw rvs2 rbi rimm).bind fun src => (Sat.ofCode rsat).bind fun sat => some (.vminn (BitVec.ofNat 6 rvd) (BitVec.ofNat 6 rvs1) src (BitVec.ofNat 4 rkm) sat)
  | 0x08, [rvd, rvs1, rvs2, rkm, rsat, rbi, rimm] => (VSrc.ofRaw rvs2 rbi rimm).bind fun src => (Sat.ofCode rsat).bind fun sat => some (.vmaxn (BitVec.ofNat 6 rvd) (BitVec.ofNat 6 rvs1) src (BitVec.ofNat 4 rkm) sat)
  | 0x09, [rvd, rvs1, rkm, rsat] => (Sat.ofCode rsat).bind fun sat => some (.vabs (BitVec.ofNat 6 rvd) (BitVec.ofNat 6 rvs1) (BitVec.ofNat 4 rkm) sat)
  | 0x0A, [rvd, rvs1, rvs2, rkm, rsat, rbi, rimm] => (VSrc.ofRaw rvs2 rbi rimm).bind fun src => (Sat.ofCode rsat).bind fun sat => some (.vand (BitVec.ofNat 6 rvd) (BitVec.ofNat 6 rvs1) src (BitVec.ofNat 4 rkm) sat)
  | 0x0B, [rvd, rvs1, rvs2, rkm, rsat, rbi, rimm] => (VSrc.ofRaw rvs2 rbi rimm).bind fun src => (Sat.ofCode rsat).bind fun sat => some (.vor (BitVec.ofNat 6 rvd) (BitVec.ofNat 6 rvs1) src (BitVec.ofNat 4 rkm) sat)
  | 0x0C, [rvd, rvs1, rvs2, rkm, rsat, rbi, rimm] => (VSrc.ofRaw rvs2 rbi rimm).bind fun src => (Sat.ofCode rsat).bind fun sat => some (.vxor (BitVec.ofNat 6 rvd) (BitVec.ofNat 6 rvs1) src (BitVec.ofNat 4 rkm) sat)
  | 0x0D, [rvd, rvs1, rvs2, rkm, rsat, rbi, rimm] => (VSrc.ofRaw rvs2 rbi rimm).bind fun src => (Sat.ofCode rsat).bind fun sat => some (.vandn (BitVec.ofNat 6 rvd) (BitVec.ofNat 6 rvs1) src (BitVec.ofNat 4 rkm) sat)
  | 0x0E, [rvd, rvs1, rvs2, rkm, rsat, rbi, rimm] => (VSrc.ofRaw rvs2 rbi rimm).bind fun src => (Sat.ofCode rsat).bind fun sat => some (.vshl (BitVec.ofNat 6 rvd) (BitVec.ofNat 6 rvs1) src (BitVec.ofNat 4 rkm) sat)
  | 0x0F, [rvd, rvs1, rvs2, rkm, rsat, rbi, rimm] => (VSrc.ofRaw rvs2 rbi rimm).bind fun src => (Sat.ofCode rsat).bind fun sat => some (.vshr (BitVec.ofNat 6 rvd) (BitVec.ofNat 6 rvs1) src (BitVec.ofNat 4 rkm) sat)
  | 0x10, [rvd, rvs1, rvs2, rkm, rsat, rbi, rimm] => (VSrc.ofRaw rvs2 rbi rimm).bind fun src => (Sat.ofCode rsat).bind fun sat => some (.vsha (BitVec.ofNat 6 rvd) (BitVec.ofNat 6 rvs1) src (BitVec.ofNat 4 rkm) sat)
  | 0x11, [rkd, rvs1, rvs2, rkm, rcond, rbi, rimm] => (VSrc.ofRaw rvs2 rbi rimm).bind fun src => (Cond.ofCode rcond).bind fun cond => some (.vcmp (BitVec.ofNat 4 rkd) (BitVec.ofNat 6 rvs1) src (BitVec.ofNat 4 rkm) cond)
  | 0x12, [rvd, rvs1, rvs2, rkm] => some (.vsel (BitVec.ofNat 6 rvd) (BitVec.ofNat 6 rvs1) (BitVec.ofNat 6 rvs2) (BitVec.ofNat 4 rkm))
  | 0x20, [rvd, rvs1, rvs2, rkm] => some (.vfadd (BitVec.ofNat 6 rvd) (BitVec.ofNat 6 rvs1) (BitVec.ofNat 6 rvs2) (BitVec.ofNat 4 rkm))
  | 0x21, [rvd, rvs1, rvs2, rkm] => some (.vfsub (BitVec.ofNat 6 rvd) (BitVec.ofNat 6 rvs1) (BitVec.ofNat 6 rvs2) (BitVec.ofNat 4 rkm))
  | 0x22, [rvd, rvs1, rvs2, rkm] => some (.vfmul (BitVec.ofNat 6 rvd) (BitVec.ofNat 6 rvs1) (BitVec.ofNat 6 rvs2) (BitVec.ofNat 4 rkm))
  | 0x23, [rvd, rvs1, rvs2, rvs3, rkm] => some (.vfma (BitVec.ofNat 6 rvd) (BitVec.ofNat 6 rvs1) (BitVec.ofNat 6 rvs2) (BitVec.ofNat 6 rvs3) (BitVec.ofNat 4 rkm))
  | 0x24, [rvd, rvs1, rvs2, rvs3, rkm] => some (.vfms (BitVec.ofNat 6 rvd) (BitVec.ofNat 6 rvs1) (BitVec.ofNat 6 rvs2) (BitVec.ofNat 6 rvs3) (BitVec.ofNat 4 rkm))
  | 0x25, [rvd, rvs1, rvs2, rkm] => some (.vfmin (BitVec.ofNat 6 rvd) (BitVec.ofNat 6 rvs1) (BitVec.ofNat 6 rvs2) (BitVec.ofNat 4 rkm))
  | 0x26, [rvd, rvs1, rvs2, rkm] => some (.vfmax (BitVec.ofNat 6 rvd) (BitVec.ofNat 6 rvs1) (BitVec.ofNat 6 rvs2) (BitVec.ofNat 4 rkm))
  | 0x27, [rvd, rvs1, rkm] => some (.vfabs (BitVec.ofNat 6 rvd) (BitVec.ofNat 6 rvs1) (BitVec.ofNat 4 rkm))
  | 0x28, [rvd, rvs1, rkm] => some (.vfneg (BitVec.ofNat 6 rvd) (BitVec.ofNat 6 rvs1) (BitVec.ofNat 4 rkm))
  | 0x29, [rkd, rvs1, rvs2, rkm, rcond] => (FCond.ofCode rcond).bind fun cond => some (.vfcmp (BitVec.ofNat 4 rkd) (BitVec.ofNat 6 rvs1) (BitVec.ofNat 6 rvs2) (BitVec.ofNat 4 rkm) cond)
  | 0x2A, [rvd, rvs1, rkm] => some (.vexp2 (BitVec.ofNat 6 rvd) (BitVec.ofNat 6 rvs1) (BitVec.ofNat 4 rkm))
  | 0x2B, [rvd, rvs1, rkm] => some (.vlog2 (BitVec.ofNat 6 rvd) (BitVec.ofNat 6 rvs1) (BitVec.ofNat 4 rkm))
  | 0x2C, [rvd, rvs1, rkm] => some (.vrcp (BitVec.ofNat 6 rvd) (BitVec.ofNat 6 rvs1) (BitVec.ofNat 4 rkm))
  | 0x2D, [rvd, rvs1, rkm] => some (.vrsq (BitVec.ofNat 6 rvd) (BitVec.ofNat 6 rvs1) (BitVec.ofNat 4 rkm))
  | 0x30, [rvd, rvs1, rkm, rsrc, rtgt, rss, rts] => (CvtFmt.ofRaw rsrc rss).bind fun src => (CvtFmt.ofRaw rtgt rts).bind fun tgt => some (.vcvt (BitVec.ofNat 6 rvd) (BitVec.ofNat 6 rvs1) (BitVec.ofNat 4 rkm) src tgt)
  | 0x31, [rvd, rvs1, rvs2, rkm, rsrc, rtgt, rss, rts] => (CvtFmt.ofRaw rsrc rss).bind fun src => (CvtFmt.ofRaw rtgt rts).bind fun tgt => some (.vcvts (BitVec.ofNat 6 rvd) (BitVec.ofNat 6 rvs1) (BitVec.ofNat 6 rvs2) (BitVec.ofNat 4 rkm) src tgt)
  | 0x38, [rvd, rvs1, rvs2, rkm, rpi, rpos, rlen, rsx] => (BitPos.ofRaw rvs2 rpi rpos).bind fun pos => some (.vbfx (BitVec.ofNat 6 rvd) (BitVec.ofNat 6 rvs1) pos (BitVec.ofNat 6 rlen) (BitVec.ofNat 1 rsx) (BitVec.ofNat 4 rkm))
  | 0x39, [rvd, rvs1, rvs2, rkm, rpi, rpos, rlen] => (BitPos.ofRaw rvs2 rpi rpos).bind fun pos => some (.vbfi (BitVec.ofNat 6 rvd) (BitVec.ofNat 6 rvs1) pos (BitVec.ofNat 6 rlen) (BitVec.ofNat 4 rkm))
  | 0x3A, [rvd, rvs1, rvs2, rvs3, rkm, rfi, ramt] => (FunAmt.ofRaw rvs3 rfi ramt).bind fun amt => some (.vfsh (BitVec.ofNat 6 rvd) (BitVec.ofNat 6 rvs1) (BitVec.ofNat 6 rvs2) amt (BitVec.ofNat 4 rkm))
  | 0x3B, [rvd, rvs1, rkm] => some (.vpopc (BitVec.ofNat 6 rvd) (BitVec.ofNat 6 rvs1) (BitVec.ofNat 4 rkm))
  | 0x3C, [rvd, rvs1, rkm] => some (.vclz (BitVec.ofNat 6 rvd) (BitVec.ofNat 6 rvs1) (BitVec.ofNat 4 rkm))
  | 0x40, [rvd, rvs1, rvs2, rkm] => some (.vperm (BitVec.ofNat 6 rvd) (BitVec.ofNat 6 rvs1) (BitVec.ofNat 6 rvs2) (BitVec.ofNat 4 rkm))
  | 0x41, [rvd, rmode, rsrc, rlane, rkm] => (BcastSrc.ofRaw rmode rsrc rlane).bind fun src => some (.vbcast (BitVec.ofNat 6 rvd) src (BitVec.ofNat 4 rkm))
  | 0x42, [rvd, rvs1, rvs2, rn, rkm] => some (.vslide (BitVec.ofNat 6 rvd) (BitVec.ofNat 6 rvs1) (BitVec.ofNat 6 rvs2) (BitVec.ofNat 6 rn) (BitVec.ofNat 4 rkm))
  | 0x43, [rvd, rvs1, rbank, rrow0, rsz, rkm] => some (.vlut (BitVec.ofNat 6 rvd) (BitVec.ofNat 6 rvs1) (BitVec.ofNat 6 rbank) (BitVec.ofNat 11 rrow0) (BitVec.ofNat 4 rsz) (BitVec.ofNat 4 rkm))
  | 0x44, [rvd, rvs1, rkm] => some (.vcomp (BitVec.ofNat 6 rvd) (BitVec.ofNat 6 rvs1) (BitVec.ofNat 4 rkm))
  | 0x45, [rvd, rvs1, rkm] => some (.vexpd (BitVec.ofNat 6 rvd) (BitVec.ofNat 6 rvs1) (BitVec.ofNat 4 rkm))
  | 0x48, [rgd, rvs1, rkm] => some (.vradd (BitVec.ofNat 6 rgd) (BitVec.ofNat 6 rvs1) (BitVec.ofNat 4 rkm))
  | 0x49, [rgd, rvs1, rkm] => some (.vrmax (BitVec.ofNat 6 rgd) (BitVec.ofNat 6 rvs1) (BitVec.ofNat 4 rkm))
  | 0x4A, [rgd, rvs1, rkm] => some (.vrmin (BitVec.ofNat 6 rgd) (BitVec.ofNat 6 rvs1) (BitVec.ofNat 4 rkm))
  | 0x4B, [rgd, rvs1, rkm] => some (.vrfadd (BitVec.ofNat 6 rgd) (BitVec.ofNat 6 rvs1) (BitVec.ofNat 4 rkm))
  | 0x4C, [rgd, rvs1, rkm] => some (.vrfmax (BitVec.ofNat 6 rgd) (BitVec.ofNat 6 rvs1) (BitVec.ofNat 4 rkm))
  | 0x50, [rvd, rvs1, rkm] => some (.vmov (BitVec.ofNat 6 rvd) (BitVec.ofNat 6 rvs1) (BitVec.ofNat 4 rkm))
  | 0x51, [rvd, rimm, rkm] => some (.vmovi (BitVec.ofNat 6 rvd) (BitVec.ofNat 32 rimm) (BitVec.ofNat 4 rkm))
  | 0x52, [rvd, rgs, rlane] => some (.vins (BitVec.ofNat 6 rvd) (BitVec.ofNat 6 rgs) (BitVec.ofNat 6 rlane))
  | 0x53, [rgd, rvs1, rlane, rsx] => some (.vext (BitVec.ofNat 6 rgd) (BitVec.ofNat 6 rvs1) (BitVec.ofNat 6 rlane) (BitVec.ofNat 1 rsx))
  | 0x58, [rkd, rks1, rks2] => some (.kand (BitVec.ofNat 4 rkd) (BitVec.ofNat 4 rks1) (BitVec.ofNat 4 rks2))
  | 0x59, [rkd, rks1, rks2] => some (.kor (BitVec.ofNat 4 rkd) (BitVec.ofNat 4 rks1) (BitVec.ofNat 4 rks2))
  | 0x5A, [rkd, rks1, rks2] => some (.kxor (BitVec.ofNat 4 rkd) (BitVec.ofNat 4 rks1) (BitVec.ofNat 4 rks2))
  | 0x5B, [rkd, rks1] => some (.knot (BitVec.ofNat 4 rkd) (BitVec.ofNat 4 rks1))
  | 0x5C, [rdst, rsrc, rmode] => (KmovForm.ofRaw rdst rsrc rmode).bind fun form => some (.kmov form)
  | 0x5D, [rgd, rks1] => some (.kpop (BitVec.ofNat 6 rgd) (BitVec.ofNat 4 rks1))
  | _, _ => none

/-- The operand field widths of each opcode of the stream operations of V1 (13 R268), from the top of the operand area downward. -/
def v1Widths : Nat → Option (List Nat)
  | 0x70 => some [4, 6, 1]
  | 0x71 => some [4, 6, 4, 1]
  | 0x72 => some [4, 4, 4]
  | 0x73 => some [4, 4, 4]
  | 0x74 => some [4, 4, 4]
  | 0x75 => some [4, 4, 4]
  | 0x76 => some [4, 4, 4]
  | 0x77 => some [4, 4, 4, 4]
  | 0x78 => some [6, 4, 2, 4]
  | 0x79 => some [4, 4, 4]
  | 0x7A => some [4, 4, 10]
  | 0x7B => some [6, 4]
  | _ => none

/-- The operation that an opcode and its operand fields name in the stream operations of V1 (13 R268). -/
def v1Build : Nat → List Nat → Option Instr
  | 0x70, [rgen, rgs, rkind] => some (.sseed (BitVec.ofNat 4 rgen) (BitVec.ofNat 6 rgs) (BitVec.ofNat 1 rkind))
  | 0x71, [rsd, rvs, rgen, rbp] => some (.sgen (BitVec.ofNat 4 rsd) (BitVec.ofNat 6 rvs) (BitVec.ofNat 4 rgen) (BitVec.ofNat 1 rbp))
  | 0x72, [rsd, rsa, rsb] => some (.sand (BitVec.ofNat 4 rsd) (BitVec.ofNat 4 rsa) (BitVec.ofNat 4 rsb))
  | 0x73, [rsd, rsa, rsb] => some (.sor (BitVec.ofNat 4 rsd) (BitVec.ofNat 4 rsa) (BitVec.ofNat 4 rsb))
  | 0x74, [rsd, rsa, rsb] => some (.smin (BitVec.ofNat 4 rsd) (BitVec.ofNat 4 rsa) (BitVec.ofNat 4 rsb))
  | 0x75, [rsd, rsa, rsb] => some (.smax (BitVec.ofNat 4 rsd) (BitVec.ofNat 4 rsa) (BitVec.ofNat 4 rsb))
  | 0x76, [rsd, rsa, rsb] => some (.sxnor (BitVec.ofNat 4 rsd) (BitVec.ofNat 4 rsa) (BitVec.ofNat 4 rsb))
  | 0x77, [rsd, rsa, rsb, rssel] => some (.smux (BitVec.ofNat 4 rsd) (BitVec.ofNat 4 rsa) (BitVec.ofNat 4 rsb) (BitVec.ofNat 4 rssel))
  | 0x78, [rvd, rss, rmode, rkm] => (ScntMode.ofCode rmode).bind fun mode => some (.scnt (BitVec.ofNat 6 rvd) (BitVec.ofNat 4 rss) mode (BitVec.ofNat 4 rkm))
  | 0x79, [rsd, rss, rgen] => some (.sregen (BitVec.ofNat 4 rsd) (BitVec.ofNat 4 rss) (BitVec.ofNat 4 rgen))
  | 0x7A, [rsd, rss, rn] => some (.sdly (BitVec.ofNat 4 rsd) (BitVec.ofNat 4 rss) (BitVec.ofNat 10 rn))
  | 0x7B, [rgd, rss] => some (.scls (BitVec.ofNat 6 rgd) (BitVec.ofNat 4 rss))
  | _, _ => none

/-- The operand field widths of each opcode of the M slot (08), from the top of the operand area downward. -/
def mWidths : Nat → Option (List Nat)
  | 0x01 => some [2]
  | 0x02 => some [2, 4, 32, 6, 2]
  | 0x03 => some [2, 18, 2, 5, 1]
  | 0x04 => some [2, 18, 2, 5, 1]
  | 0x05 => some [2, 37, 6, 1, 1]
  | 0x06 => some [2, 37, 6, 1, 1]
  | 0x07 => some [6, 11]
  | 0x08 => some [6, 11]
  | 0x09 => some []
  | 0x0A => some []
  | 0x0B => some [2, 6, 11]
  | 0x0C => some [2, 6, 11]
  | _ => none

/-- The operation that an opcode and its operand fields name in the M slot (08). -/
def mBuild : Nat → List Nat → Option Instr
  | 0x01, [rct] => some (.mzero (BitVec.ofNat 2 rct))
  | 0x02, [rws, ra, rimm, rgk, rmode] => (MldwMode.ofCode rmode).bind fun mode => some (.mldw (BitVec.ofNat 2 rws) (BitVec.ofNat 4 ra) (BitVec.ofNat 32 rimm) (BitVec.ofNat 6 rgk) mode)
  | 0x03, [rct, rA, rws, rfa, rkr] => (SpPos.ofRaw rA).bind fun pos => some (.mma (BitVec.ofNat 2 rct) pos (BitVec.ofNat 2 rws) (BitVec.ofNat 5 rfa) (BitVec.ofNat 1 rkr))
  | 0x04, [rct, rA, rws, rfa, rkr] => (SpPos.ofRaw rA).bind fun pos => some (.mmat (BitVec.ofNat 2 rct) pos (BitVec.ofNat 2 rws) (BitVec.ofNat 5 rfa) (BitVec.ofNat 1 rkr))
  | 0x05, [rct, rT, 0, rzc, 0] => (DrainTgt.ofRaw rT).bind fun tgt => some (.mdrain (BitVec.ofNat 2 rct) tgt (BitVec.ofNat 1 rzc))
  | 0x06, [rct, rT, rgc, rzc, rcl] => (DrainTgt.ofRaw rT).bind fun tgt => some (.mdraina (BitVec.ofNat 2 rct) tgt (BitVec.ofNat 6 rgc) (BitVec.ofNat 1 rzc) (BitVec.ofNat 1 rcl))
  | 0x07, [rbank, rrow] => some (.mgemm (BitVec.ofNat 6 rbank) (BitVec.ofNat 11 rrow))
  | 0x08, [rbank, rrow] => some (.mattn (BitVec.ofNat 6 rbank) (BitVec.ofNat 11 rrow))
  | 0x09, [] => some .mstep
  | 0x0A, [] => some .mcancel
  | 0x0B, [rct, rbank, rrow] => some (.mbias (BitVec.ofNat 2 rct) (BitVec.ofNat 6 rbank) (BitVec.ofNat 11 rrow))
  | 0x0C, [rct, rbank, rrow] => some (.mscale (BitVec.ofNat 2 rct) (BitVec.ofNat 6 rbank) (BitVec.ofNat 11 rrow))
  | _, _ => none

/-- The operand field widths of each opcode of the L slot (09), from the top of the operand area downward. -/
def lWidths : Nat → Option (List Nat)
  | 0x01 => some [6, 4, 2, 1, 35]
  | 0x02 => some [6, 4, 4, 34]
  | 0x03 => some [6, 1, 18, 4, 6, 2, 1, 1]
  | 0x04 => some [6, 6, 11, 6, 4, 1]
  | 0x05 => some [6, 4, 6, 4]
  | 0x10 => some [6, 4, 6, 6, 3, 23]
  | 0x11 => some [6, 4, 6, 6, 3, 23]
  | 0x12 => some [6, 4, 6, 6, 3, 23]
  | 0x13 => some [6, 4, 6, 6, 3, 23]
  | 0x14 => some [6, 4, 6, 6, 3, 23]
  | 0x15 => some [6, 4, 6, 6, 3, 23]
  | 0x16 => some [6, 4, 6, 6, 3, 23]
  | 0x17 => some [6, 4, 6, 6, 3, 23]
  | 0x18 => some [6, 4, 6, 6, 3, 23]
  | 0x19 => some [6, 4, 6, 6, 3, 23]
  | 0x1A => some [6, 4, 6, 6, 3, 23]
  | 0x20 => some [12, 4, 32]
  | _ => none

/-- The operation that an opcode and its operand fields name in the L slot (09). -/
def lBuild : Nat → List Nat → Option Instr
  | 0x01, [rgd, ra, rsz, rsx, rimm] => some (.ld (BitVec.ofNat 6 rgd) (BitVec.ofNat 4 ra) (BitVec.ofNat 2 rsz) (BitVec.ofNat 1 rsx) (BitVec.ofNat 35 rimm))
  | 0x02, [rvd, ra, rkm, rimm] => some (.ldv (BitVec.ofNat 6 rvd) (BitVec.ofNat 4 ra) (BitVec.ofNat 4 rkm) (BitVec.ofNat 34 rimm))
  | 0x03, [rdst, rV, rA, rkm, rbyte, rsz, rsx, rma] => (LdsForm.ofRaw rdst rV rkm rbyte rsz rsx).bind fun form => (SpPos.ofRaw rA).bind fun pos => some (.lds form pos (BitVec.ofNat 1 rma))
  | 0x04, [rvd, rbank, rrow0, rvs, rkm, rma] => some (.ldsg (BitVec.ofNat 6 rvd) (BitVec.ofNat 6 rbank) (BitVec.ofNat 11 rrow0) (BitVec.ofNat 6 rvs) (BitVec.ofNat 4 rkm) (BitVec.ofNat 1 rma))
  | 0x05, [rvd, ra, rvs, rkm] => some (.ldg (BitVec.ofNat 6 rvd) (BitVec.ofNat 4 ra) (BitVec.ofNat 6 rvs) (BitVec.ofNat 4 rkm))
  | 0x10, [rgd, ra, rgs1, 0, rsz, rimm] => some (.atadd (BitVec.ofNat 6 rgd) (BitVec.ofNat 4 ra) (BitVec.ofNat 6 rgs1) (BitVec.ofNat 3 rsz) (BitVec.ofNat 23 rimm))
  | 0x11, [rgd, ra, rgs1, 0, rsz, rimm] => some (.atand (BitVec.ofNat 6 rgd) (BitVec.ofNat 4 ra) (BitVec.ofNat 6 rgs1) (BitVec.ofNat 3 rsz) (BitVec.ofNat 23 rimm))
  | 0x12, [rgd, ra, rgs1, 0, rsz, rimm] => some (.ator (BitVec.ofNat 6 rgd) (BitVec.ofNat 4 ra) (BitVec.ofNat 6 rgs1) (BitVec.ofNat 3 rsz) (BitVec.ofNat 23 rimm))
  | 0x13, [rgd, ra, rgs1, 0, rsz, rimm] => some (.atxor (BitVec.ofNat 6 rgd) (BitVec.ofNat 4 ra) (BitVec.ofNat 6 rgs1) (BitVec.ofNat 3 rsz) (BitVec.ofNat 23 rimm))
  | 0x14, [rgd, ra, rgs1, 0, rsz, rimm] => some (.atmin (BitVec.ofNat 6 rgd) (BitVec.ofNat 4 ra) (BitVec.ofNat 6 rgs1) (BitVec.ofNat 3 rsz) (BitVec.ofNat 23 rimm))
  | 0x15, [rgd, ra, rgs1, 0, rsz, rimm] => some (.atmax (BitVec.ofNat 6 rgd) (BitVec.ofNat 4 ra) (BitVec.ofNat 6 rgs1) (BitVec.ofNat 3 rsz) (BitVec.ofNat 23 rimm))
  | 0x16, [rgd, ra, rgs1, 0, rsz, rimm] => some (.atminn (BitVec.ofNat 6 rgd) (BitVec.ofNat 4 ra) (BitVec.ofNat 6 rgs1) (BitVec.ofNat 3 rsz) (BitVec.ofNat 23 rimm))
  | 0x17, [rgd, ra, rgs1, 0, rsz, rimm] => some (.atmaxn (BitVec.ofNat 6 rgd) (BitVec.ofNat 4 ra) (BitVec.ofNat 6 rgs1) (BitVec.ofNat 3 rsz) (BitVec.ofNat 23 rimm))
  | 0x18, [rgd, ra, rgs1, 0, rsz, rimm] => some (.atswp (BitVec.ofNat 6 rgd) (BitVec.ofNat 4 ra) (BitVec.ofNat 6 rgs1) (BitVec.ofNat 3 rsz) (BitVec.ofNat 23 rimm))
  | 0x19, [rgd, ra, rgs1, rgs2, rsz, rimm] => some (.atcas (BitVec.ofNat 6 rgd) (BitVec.ofNat 4 ra) (BitVec.ofNat 6 rgs1) (BitVec.ofNat 6 rgs2) (BitVec.ofNat 3 rsz) (BitVec.ofNat 23 rimm))
  | 0x1A, [rgd, ra, rgs1, 0, rsz, rimm] => some (.atfadd (BitVec.ofNat 6 rgd) (BitVec.ofNat 4 ra) (BitVec.ofNat 6 rgs1) (BitVec.ofNat 3 rsz) (BitVec.ofNat 23 rimm))
  | 0x20, [rmon, ra, rimm] => some (.marm (BitVec.ofNat 12 rmon) (BitVec.ofNat 4 ra) (BitVec.ofNat 32 rimm))
  | _, _ => none

/-- The operand field widths of each opcode of the W slot (09 R193), from the top of the operand area downward. -/
def wWidths : Nat → Option (List Nat)
  | 0x01 => some [6, 4, 2, 22]
  | 0x02 => some [6, 4, 4, 2, 18]
  | 0x03 => some [6, 18, 4, 1]
  | 0x04 => some [6, 18, 6, 2, 1]
  | 0x05 => some [6, 4, 6, 4, 2]
  | 0x06 => some [4, 30]
  | _ => none

/-- The operation that an opcode and its operand fields name in the W slot (09 R193). -/
def wBuild : Nat → List Nat → Option Instr
  | 0x01, [rgs, ra, rsz, rimm] => some (.st (BitVec.ofNat 6 rgs) (BitVec.ofNat 4 ra) (BitVec.ofNat 2 rsz) (BitVec.ofNat 22 rimm))
  | 0x02, [rvs, ra, rkm, rlt, rimm] => (LaneTy.ofCode rlt).bind fun lt => some (.stv (BitVec.ofNat 6 rvs) (BitVec.ofNat 4 ra) (BitVec.ofNat 4 rkm) lt (BitVec.ofNat 18 rimm))
  | 0x03, [rvs, rA, rkm, rma] => (SpPos.ofRaw rA).bind fun pos => some (.sts (BitVec.ofNat 6 rvs) pos (BitVec.ofNat 4 rkm) (BitVec.ofNat 1 rma))
  | 0x04, [rgs, rA, rbyte, rsz, rma] => (SpPos.ofRaw rA).bind fun pos => some (.stss (BitVec.ofNat 6 rgs) pos (BitVec.ofNat 6 rbyte) (BitVec.ofNat 2 rsz) (BitVec.ofNat 1 rma))
  | 0x05, [rvs, ra, rvi, rkm, rlt] => (LaneTy.ofCode rlt).bind fun lt => some (.stg (BitVec.ofNat 6 rvs) (BitVec.ofNat 4 ra) (BitVec.ofNat 6 rvi) (BitVec.ofNat 4 rkm) lt)
  | 0x06, [ra, rimm] => some (.stz (BitVec.ofNat 4 ra) (BitVec.ofNat 30 rimm))
  | _, _ => none

/-- The operand field widths of each opcode of the C slot (10 R202, R207, 12 R246), from the top of the operand area downward. -/
def cWidths : Nat → Option (List Nat)
  | 0x01 => some [2, 17, 17, 6]
  | 0x02 => some [6, 11, 4, 6, 6, 2]
  | 0x03 => some [2, 17, 17, 6, 5]
  | 0x04 => some [1, 17, 4, 6, 11, 6]
  | 0x05 => some [4, 1, 43]
  | 0x06 => some [6]
  | 0x10 => some [6, 4, 38]
  | 0x11 => some [6]
  | 0x12 => some [6, 6]
  | 0x13 => some [6, 3]
  | 0x14 => some [6]
  | 0x15 => some [6]
  | 0x16 => some [6, 1]
  | 0x17 => some [4, 32, 6]
  | 0x18 => some [4, 32]
  | 0x19 => some [6, 6, 3]
  | 0x20 => some [6, 4, 38]
  | 0x21 => some [6, 6, 11, 3]
  | 0x22 => some [6, 6, 8]
  | 0x23 => some [6, 6, 6, 2]
  | 0x24 => some [6, 6, 3]
  | _ => none

/-- The operation that an opcode and its operand fields name in the C slot (10 R202, R207, 12 R246). -/
def cBuild : Nat → List Nat → Option Instr
  | 0x01, [rdir, rdst, rsrc, rgn] => (Places.ofRaw rdir rdst rsrc).bind fun pl => some (.cpy pl (BitVec.ofNat 6 rgn))
  | 0x02, [rbank, rrow, ra, rgn, rgm, ropf] => (FollowOn.ofCode ropf).bind fun fop => some (.cpyw (BitVec.ofNat 6 rbank) (BitVec.ofNat 11 rrow) (BitVec.ofNat 4 ra) (BitVec.ofNat 6 rgn) (BitVec.ofNat 6 rgm) fop)
  | 0x03, [rdir, rdst, rsrc, rgn, rfs] => (Places.ofRaw rdir rdst rsrc).bind fun pl => some (.cpyx pl (BitVec.ofNat 6 rgn) (BitVec.ofNat 5 rfs))
  | 0x04, [rdd, rdst, ra, ribank, rirow, rgn] => (Place.ofRaw rdd rdst).bind fun dst => some (.cpyg dst (BitVec.ofNat 4 ra) (BitVec.ofNat 6 ribank) (BitVec.ofNat 11 rirow) (BitVec.ofNat 6 rgn))
  | 0x05, [ra, rt, rimm] => some (.jsub (BitVec.ofNat 4 ra) (BitVec.ofNat 1 rt) (BitVec.ofNat 43 rimm))
  | 0x06, [rgs] => some (.jcan (BitVec.ofNat 6 rgs))
  | 0x10, [rgd, ra, rimm] => some (.tnew (BitVec.ofNat 6 rgd) (BitVec.ofNat 4 ra) (BitVec.ofNat 38 rimm))
  | 0x11, [rgs] => some (.tfree (BitVec.ofNat 6 rgs))
  | 0x12, [rgs1, rgs2] => some (.tuse (BitVec.ofNat 6 rgs1) (BitVec.ofNat 6 rgs2))
  | 0x13, [rgs, rhint] => (Hint.ofCode rhint).bind fun hint => some (.thint (BitVec.ofNat 6 rgs) hint)
  | 0x14, [rgs] => some (.tpin (BitVec.ofNat 6 rgs))
  | 0x15, [rgs] => some (.tunpin (BitVec.ofNat 6 rgs))
  | 0x16, [rgs, rtier] => some (.tfetch (BitVec.ofNat 6 rgs) (BitVec.ofNat 1 rtier))
  | 0x17, [ra, rimm, rgs] => some (.tlock (BitVec.ofNat 4 ra) (BitVec.ofNat 32 rimm) (BitVec.ofNat 6 rgs))
  | 0x18, [ra, rimm] => some (.tunlock (BitVec.ofNat 4 ra) (BitVec.ofNat 32 rimm))
  | 0x19, [rgd, rgs, rsel] => (TinfoSel.ofCode rsel).bind fun sel => some (.tinfo (BitVec.ofNat 6 rgd) (BitVec.ofNat 6 rgs) sel)
  | 0x20, [rgd, ra, rimm] => some (.kvnew (BitVec.ofNat 6 rgd) (BitVec.ofNat 4 ra) (BitVec.ofNat 38 rimm))
  | 0x21, [rgs, rbank, rrow, rtag] => some (.kvapp (BitVec.ofNat 6 rgs) (BitVec.ofNat 6 rbank) (BitVec.ofNat 11 rrow) (BitVec.ofNat 3 rtag))
  | 0x22, [rgs1, rgs2, rmask] => some (.kvret (BitVec.ofNat 6 rgs1) (BitVec.ofNat 6 rgs2) (BitVec.ofNat 8 rmask))
  | 0x23, [rgd, rgs1, rgs2, rsel] => (KvposSel.ofCode rsel).bind fun sel => some (.kvpos (BitVec.ofNat 6 rgd) (BitVec.ofNat 6 rgs1) (BitVec.ofNat 6 rgs2) sel)
  | 0x24, [rgd, rgs, rsel] => (KvinfoSel.ofCode rsel).bind fun sel => some (.kvinfo (BitVec.ofNat 6 rgd) (BitVec.ofNat 6 rgs) sel)
  | _, _ => none

/-- The operand field widths of each opcode of the Y slot (10 R212), from the top of the operand area downward. -/
def yWidths : Nat → Option (List Nat)
  | 0x01 => some [4, 2, 6]
  | 0x02 => some [7, 6]
  | 0x03 => some [11]
  | 0x04 => some [11, 6]
  | 0x05 => some [11]
  | 0x06 => some [11]
  | 0x07 => some [12]
  | 0x08 => some [3, 4]
  | 0x09 => some [3, 4]
  | 0x0A => some [6, 3]
  | 0x0B => some []
  | 0x0C => some [7, 11]
  | _ => none

/-- The operation that an opcode and its operand fields name in the Y slot (10 R212). -/
def yBuild : Nat → List Nat → Option Instr
  | 0x01, [rz, rlsel, rlval] => some (.wait (BitVec.ofNat 4 rz) (BitVec.ofNat 2 rlsel) (BitVec.ofNat 6 rlval))
  | 0x02, [rpd, rgs] => some (.bari (BitVec.ofNat 7 rpd) (BitVec.ofNat 6 rgs))
  | 0x03, [rbar] => some (.bara (BitVec.ofNat 11 rbar))
  | 0x04, [rbar, rgs] => some (.barw (BitVec.ofNat 11 rbar) (BitVec.ofNat 6 rgs))
  | 0x05, [rbar] => some (.baraw (BitVec.ofNat 11 rbar))
  | 0x06, [rbar] => some (.bfree (BitVec.ofNat 11 rbar))
  | 0x07, [rmon] => some (.monw (BitVec.ofNat 12 rmon))
  | 0x08, [rscope, ra] => (Scope.ofCode rscope).bind fun scope => some (.acq scope (BitVec.ofNat 4 ra))
  | 0x09, [rscope, ra] => (Scope.ofCode rscope).bind fun scope => some (.rel scope (BitVec.ofNat 4 ra))
  | 0x0A, [rgd, rscope] => (Scope.ofCode rscope).bind fun scope => some (.fence (BitVec.ofNat 6 rgd) scope)
  | 0x0B, [] => some .yield
  | 0x0C, [rpd, rn] => some (.rdv (BitVec.ofNat 7 rpd) (BitVec.ofNat 11 rn))
  | _, _ => none


def OpMap.widths : OpMap → Nat → Option (List Nat)
  | .s => sWidths | .v => vWidths | .v1 => v1Widths | .m => mWidths | .l => lWidths | .w => wWidths
  | .c => cWidths | .y => yWidths
def OpMap.build : OpMap → Nat → List Nat → Option Instr
  | .s => sBuild | .v => vBuild | .v1 => v1Build | .m => mBuild | .l => lBuild | .w => wBuild
  | .c => cBuild | .y => yBuild

/-- Why the bits of a slot are no instruction (05 R95, R111). -/
inductive DecodeErr where
  /-- An opcode that the slot does not assign (05 R94). -/
  | unassignedOpcode
  /-- PNUM is 96 to 127 (05 R95). -/
  | predicateNumber
  /-- A one in a Zero field of the operand area (05 R95). -/
  | zeroField
  /-- A field value that the encoding table calls illegal. -/
  | illegalField
  deriving DecidableEq, Repr

/-- A slot operation with its predicate (05 R89, R90). -/
structure SlotOp where
  pnum : PReg
  inv : Bool
  op : Instr
  deriving DecidableEq, Repr

/-- The operation an opcode and an operand area name. -/
def decodeOp (mp : OpMap) (opc area : Nat) : Except DecodeErr Instr :=
  match mp.widths opc with
  | none => .error .unassignedOpcode
  | some ws =>
    match unpackFields mp.area ws area with
    | none => .error .zeroField
    | some vs =>
      match mp.build opc vs with
      | none => .error .illegalField
      | some i => if i.wf then .ok i else .error .illegalField

/-- The maps whose operations a slot may hold (05 R93, R94; with K = 1 the L slot is decoded through the S map). -/
def Slot.map (sl : Slot) (k : Bool) (opc : Nat) : OpMap :=
  match sl with
  | .S => .s
  | .V0 => .v
  | .V1 => if 0x70 ≤ opc then .v1 else .v
  | .M => .m
  | .L => if k then .s else .l
  | .W => .w
  | .C => .c
  | .Y => .y

/-- With K = 1 only AMOV, AADD and ABIND stand in L, and no stream operation in V1 (05 R88, 14 R280). -/
def Slot.allows (sl : Slot) (k : Bool) (opc : Nat) : Bool :=
  match sl with
  | .L => !k || opc == 0x38 || opc == 0x39 || opc == 0x3B
  | .V1 => !k || decide (opc < 0x70)
  | _ => true

/-- The width of a slot in bits (05 R84). -/
def Slot.width : Slot → Nat
  | .S | .V0 | .V1 | .L | .C => 64
  | .M => 80
  | .W => 48
  | .Y => 32

/-- The bits of one slot, decoded (05 R89). -/
def decodeSlot (sl : Slot) (k : Bool) (bits : Nat) : Except DecodeErr SlotOp :=
  let ob := if sl = .W ∨ sl = .Y then 6 else 8
  let opc := bits / 2 ^ (sl.width - ob)
  let mp := sl.map k opc
  let pnum := bits / 2 ^ (mp.area + 1) % 2 ^ 7
  let inv := bits / 2 ^ mp.area % 2
  if !sl.allows k opc then .error .unassignedOpcode
  else
    match decodeOp mp opc (bits % 2 ^ mp.area) with
    | .error e => .error e
    | .ok i => if pnum < 96 then .ok ⟨BitVec.ofNat 7 pnum, inv = 1, i⟩ else .error .predicateNumber

/-- The slot map, the opcode and the operand fields of an operation (05 R91, R93); a device event has none. -/
def encodeFields : Instr → Option (OpMap × Nat × List (Nat × Nat))
  | .add gd gs1 gs2 => some (.s, 0x01, [(6, gd.toNat), (6, gs1.toNat), (6, gs2.toNat)])
  | .sub gd gs1 gs2 => some (.s, 0x02, [(6, gd.toNat), (6, gs1.toNat), (6, gs2.toNat)])
  | .mul gd gs1 gs2 => some (.s, 0x03, [(6, gd.toNat), (6, gs1.toNat), (6, gs2.toNat)])
  | .mulh gd gs1 gs2 => some (.s, 0x04, [(6, gd.toNat), (6, gs1.toNat), (6, gs2.toNat)])
  | .mulhn gd gs1 gs2 => some (.s, 0x05, [(6, gd.toNat), (6, gs1.toNat), (6, gs2.toNat)])
  | .div gd gs1 gs2 => some (.s, 0x06, [(6, gd.toNat), (6, gs1.toNat), (6, gs2.toNat)])
  | .divn gd gs1 gs2 => some (.s, 0x07, [(6, gd.toNat), (6, gs1.toNat), (6, gs2.toNat)])
  | .rem gd gs1 gs2 => some (.s, 0x08, [(6, gd.toNat), (6, gs1.toNat), (6, gs2.toNat)])
  | .remn gd gs1 gs2 => some (.s, 0x09, [(6, gd.toNat), (6, gs1.toNat), (6, gs2.toNat)])
  | .and gd gs1 gs2 => some (.s, 0x0A, [(6, gd.toNat), (6, gs1.toNat), (6, gs2.toNat)])
  | .or gd gs1 gs2 => some (.s, 0x0B, [(6, gd.toNat), (6, gs1.toNat), (6, gs2.toNat)])
  | .xor gd gs1 gs2 => some (.s, 0x0C, [(6, gd.toNat), (6, gs1.toNat), (6, gs2.toNat)])
  | .andn gd gs1 gs2 => some (.s, 0x0D, [(6, gd.toNat), (6, gs1.toNat), (6, gs2.toNat)])
  | .shl gd gs1 gs2 => some (.s, 0x0E, [(6, gd.toNat), (6, gs1.toNat), (6, gs2.toNat)])
  | .shr gd gs1 gs2 => some (.s, 0x0F, [(6, gd.toNat), (6, gs1.toNat), (6, gs2.toNat)])
  | .sha gd gs1 gs2 => some (.s, 0x10, [(6, gd.toNat), (6, gs1.toNat), (6, gs2.toNat)])
  | .rot gd gs1 gs2 => some (.s, 0x11, [(6, gd.toNat), (6, gs1.toNat), (6, gs2.toNat)])
  | .min gd gs1 gs2 => some (.s, 0x12, [(6, gd.toNat), (6, gs1.toNat), (6, gs2.toNat)])
  | .max gd gs1 gs2 => some (.s, 0x13, [(6, gd.toNat), (6, gs1.toNat), (6, gs2.toNat)])
  | .minn gd gs1 gs2 => some (.s, 0x14, [(6, gd.toNat), (6, gs1.toNat), (6, gs2.toNat)])
  | .maxn gd gs1 gs2 => some (.s, 0x15, [(6, gd.toNat), (6, gs1.toNat), (6, gs2.toNat)])
  | .clz gd gs1 => some (.s, 0x16, [(6, gd.toNat), (6, gs1.toNat)])
  | .ctz gd gs1 => some (.s, 0x17, [(6, gd.toNat), (6, gs1.toNat)])
  | .popc gd gs1 => some (.s, 0x18, [(6, gd.toNat), (6, gs1.toNat)])
  | .sel gd ps gs1 gs2 => some (.s, 0x19, [(6, gd.toNat), (7, ps.toNat), (6, gs1.toNat), (6, gs2.toNat)])
  | .addi gd gs1 imm => some (.s, 0x20, [(6, gd.toNat), (6, gs1.toNat), (36, imm.toNat)])
  | .andi gd gs1 imm => some (.s, 0x21, [(6, gd.toNat), (6, gs1.toNat), (36, imm.toNat)])
  | .ori gd gs1 imm => some (.s, 0x22, [(6, gd.toNat), (6, gs1.toNat), (36, imm.toNat)])
  | .xori gd gs1 imm => some (.s, 0x23, [(6, gd.toNat), (6, gs1.toNat), (36, imm.toNat)])
  | .shli gd gs1 n => some (.s, 0x24, [(6, gd.toNat), (6, gs1.toNat), (6, n.toNat)])
  | .shri gd gs1 n => some (.s, 0x25, [(6, gd.toNat), (6, gs1.toNat), (6, n.toNat)])
  | .shai gd gs1 n => some (.s, 0x26, [(6, gd.toNat), (6, gs1.toNat), (6, n.toNat)])
  | .movi gd imm => some (.s, 0x27, [(6, gd.toNat), (42, imm.toNat)])
  | .movhi gd imm => some (.s, 0x28, [(6, gd.toNat), (22, imm.toNat)])
  | .cmpi pd gs1 imm cond => some (.s, 0x29, [(7, pd.toNat), (6, gs1.toNat), (27, imm.toNat), (4, cond.toCode)])
  | .cmp pd gs1 gs2 cond => some (.s, 0x2A, [(7, pd.toNat), (6, gs1.toNat), (6, gs2.toNat), (4, cond.toCode)])
  | .pand pd ps1 ps2 => some (.s, 0x30, [(7, pd.toNat), (7, ps1.toNat), (7, ps2.toNat)])
  | .por pd ps1 ps2 => some (.s, 0x31, [(7, pd.toNat), (7, ps1.toNat), (7, ps2.toNat)])
  | .pxor pd ps1 ps2 => some (.s, 0x32, [(7, pd.toNat), (7, ps1.toNat), (7, ps2.toNat)])
  | .pandn pd ps1 ps2 => some (.s, 0x33, [(7, pd.toNat), (7, ps1.toNat), (7, ps2.toNat)])
  | .pnot pd ps1 => some (.s, 0x34, [(7, pd.toNat), (7, ps1.toNat)])
  | .pmov pd ps1 => some (.s, 0x35, [(7, pd.toNat), (7, ps1.toNat)])
  | .amov ad asr => some (.s, 0x38, [(4, ad.toNat), (4, asr.toNat)])
  | .aadd ad asr gs imm => some (.s, 0x39, [(4, ad.toNat), (4, asr.toNat), (6, gs.toNat), (16, imm.toNat)])
  | .aget gd asr sel => some (.s, 0x3A, [(6, gd.toNat), (4, asr.toNat), (2, sel.toCode)])
  | .abind ad gs1 gs2 => some (.s, 0x3B, [(4, ad.toNat), (6, gs1.toNat), (6, gs2.toNat)])
  | .astr ad gs imm => some (.s, 0x3C, [(4, ad.toNat), (6, gs.toNat), (24, imm.toNat)])
  | .br off => some (.s, 0x40, [(32, off.toNat)])
  | .brc gs1 gs2 off cond => some (.s, 0x41, [(6, gs1.toNat), (6, gs2.toNat), (24, off.toNat), (4, cond.toCode)])
  | .jmp gs => some (.s, 0x42, [(6, gs.toNat)])
  | .call gd off => some (.s, 0x43, [(6, gd.toNat), (32, off.toNat)])
  | .ret gs => some (.s, 0x44, [(6, gs.toNat)])
  | .loop lc gs off sm1 => some (.s, 0x45, [(2, lc.toNat), (6, gs.toNat), (12, off.toNat), (3, sm1.toNat)])
  | .lexit lc off => some (.s, 0x46, [(2, lc.toNat), (32, off.toNat)])
  | .spawn gs q => some (.s, 0x47, [(6, gs.toNat), (4, q.toNat)])
  | .tend => some (.s, 0x48, [])
  | .trap imm => some (.s, 0x49, [(16, imm.toNat)])
  | .chk x1 x2 kind => some (.s, 0x4A, [(6, x1.toNat), (6, x2.toNat), (2, kind.toCode)])
  | .chkp ps1 ps2 => some (.s, 0x4B, [(7, ps1.toNat), (7, ps2.toNat)])
  | .mfc gd num => some (.s, 0x50, [(6, gd.toNat), (8, num.toNat)])
  | .mtc num gs => some (.s, 0x51, [(8, num.toNat), (6, gs.toNat)])
  | .mfs gd num => some (.s, 0x60, [(6, gd.toNat), (10, num.toNat)])
  | .mts num gs => some (.s, 0x61, [(10, num.toNat), (6, gs.toNat)])
  | .tret => some (.s, 0x62, [(2, 0), (6, 0)])
  | .tretEnd gs => some (.s, 0x62, [(2, 1), (6, gs.toNat)])
  | .tretYield => some (.s, 0x62, [(2, 2), (6, 0)])
  | .ctxsv gs => some (.s, 0x63, [(6, gs.toNat)])
  | .ctxld gs => some (.s, 0x64, [(6, gs.toNat)])
  | .mown => some (.s, 0x65, [])
  | .mgive => some (.s, 0x66, [])
  | .tlbiAll sc gs => some (.s, 0x67, [(2, 0), (1, sc.toNat), (6, gs.toNat)])
  | .tlbiVa sc gs => some (.s, 0x67, [(2, 1), (1, sc.toNat), (6, gs.toNat)])
  | .tlbiWalk sc gs => some (.s, 0x67, [(2, 2), (1, sc.toNat), (6, gs.toNat)])
  | .vadd vd vs1 src km sat => some (.v, 0x01, [(6, vd.toNat), (6, vs1.toNat), (6, src.toRaw.1), (4, km.toNat), (2, sat.toCode), (1, src.toRaw.2.1), (16, src.toRaw.2.2)])
  | .vsub vd vs1 src km sat => some (.v, 0x02, [(6, vd.toNat), (6, vs1.toNat), (6, src.toRaw.1), (4, km.toNat), (2, sat.toCode), (1, src.toRaw.2.1), (16, src.toRaw.2.2)])
  | .vmul vd vs1 src km sat => some (.v, 0x03, [(6, vd.toNat), (6, vs1.toNat), (6, src.toRaw.1), (4, km.toNat), (2, sat.toCode), (1, src.toRaw.2.1), (16, src.toRaw.2.2)])
  | .vmulh vd vs1 src km sat => some (.v, 0x04, [(6, vd.toNat), (6, vs1.toNat), (6, src.toRaw.1), (4, km.toNat), (2, sat.toCode), (1, src.toRaw.2.1), (16, src.toRaw.2.2)])
  | .vmin vd vs1 src km sat => some (.v, 0x05, [(6, vd.toNat), (6, vs1.toNat), (6, src.toRaw.1), (4, km.toNat), (2, sat.toCode), (1, src.toRaw.2.1), (16, src.toRaw.2.2)])
  | .vmax vd vs1 src km sat => some (.v, 0x06, [(6, vd.toNat), (6, vs1.toNat), (6, src.toRaw.1), (4, km.toNat), (2, sat.toCode), (1, src.toRaw.2.1), (16, src.toRaw.2.2)])
  | .vminn vd vs1 src km sat => some (.v, 0x07, [(6, vd.toNat), (6, vs1.toNat), (6, src.toRaw.1), (4, km.toNat), (2, sat.toCode), (1, src.toRaw.2.1), (16, src.toRaw.2.2)])
  | .vmaxn vd vs1 src km sat => some (.v, 0x08, [(6, vd.toNat), (6, vs1.toNat), (6, src.toRaw.1), (4, km.toNat), (2, sat.toCode), (1, src.toRaw.2.1), (16, src.toRaw.2.2)])
  | .vabs vd vs1 km sat => some (.v, 0x09, [(6, vd.toNat), (6, vs1.toNat), (4, km.toNat), (2, sat.toCode)])
  | .vand vd vs1 src km sat => some (.v, 0x0A, [(6, vd.toNat), (6, vs1.toNat), (6, src.toRaw.1), (4, km.toNat), (2, sat.toCode), (1, src.toRaw.2.1), (16, src.toRaw.2.2)])
  | .vor vd vs1 src km sat => some (.v, 0x0B, [(6, vd.toNat), (6, vs1.toNat), (6, src.toRaw.1), (4, km.toNat), (2, sat.toCode), (1, src.toRaw.2.1), (16, src.toRaw.2.2)])
  | .vxor vd vs1 src km sat => some (.v, 0x0C, [(6, vd.toNat), (6, vs1.toNat), (6, src.toRaw.1), (4, km.toNat), (2, sat.toCode), (1, src.toRaw.2.1), (16, src.toRaw.2.2)])
  | .vandn vd vs1 src km sat => some (.v, 0x0D, [(6, vd.toNat), (6, vs1.toNat), (6, src.toRaw.1), (4, km.toNat), (2, sat.toCode), (1, src.toRaw.2.1), (16, src.toRaw.2.2)])
  | .vshl vd vs1 src km sat => some (.v, 0x0E, [(6, vd.toNat), (6, vs1.toNat), (6, src.toRaw.1), (4, km.toNat), (2, sat.toCode), (1, src.toRaw.2.1), (16, src.toRaw.2.2)])
  | .vshr vd vs1 src km sat => some (.v, 0x0F, [(6, vd.toNat), (6, vs1.toNat), (6, src.toRaw.1), (4, km.toNat), (2, sat.toCode), (1, src.toRaw.2.1), (16, src.toRaw.2.2)])
  | .vsha vd vs1 src km sat => some (.v, 0x10, [(6, vd.toNat), (6, vs1.toNat), (6, src.toRaw.1), (4, km.toNat), (2, sat.toCode), (1, src.toRaw.2.1), (16, src.toRaw.2.2)])
  | .vcmp kd vs1 src km cond => some (.v, 0x11, [(4, kd.toNat), (6, vs1.toNat), (6, src.toRaw.1), (4, km.toNat), (4, cond.toCode), (1, src.toRaw.2.1), (16, src.toRaw.2.2)])
  | .vsel vd vs1 vs2 km => some (.v, 0x12, [(6, vd.toNat), (6, vs1.toNat), (6, vs2.toNat), (4, km.toNat)])
  | .vfadd vd vs1 vs2 km => some (.v, 0x20, [(6, vd.toNat), (6, vs1.toNat), (6, vs2.toNat), (4, km.toNat)])
  | .vfsub vd vs1 vs2 km => some (.v, 0x21, [(6, vd.toNat), (6, vs1.toNat), (6, vs2.toNat), (4, km.toNat)])
  | .vfmul vd vs1 vs2 km => some (.v, 0x22, [(6, vd.toNat), (6, vs1.toNat), (6, vs2.toNat), (4, km.toNat)])
  | .vfma vd vs1 vs2 vs3 km => some (.v, 0x23, [(6, vd.toNat), (6, vs1.toNat), (6, vs2.toNat), (6, vs3.toNat), (4, km.toNat)])
  | .vfms vd vs1 vs2 vs3 km => some (.v, 0x24, [(6, vd.toNat), (6, vs1.toNat), (6, vs2.toNat), (6, vs3.toNat), (4, km.toNat)])
  | .vfmin vd vs1 vs2 km => some (.v, 0x25, [(6, vd.toNat), (6, vs1.toNat), (6, vs2.toNat), (4, km.toNat)])
  | .vfmax vd vs1 vs2 km => some (.v, 0x26, [(6, vd.toNat), (6, vs1.toNat), (6, vs2.toNat), (4, km.toNat)])
  | .vfabs vd vs1 km => some (.v, 0x27, [(6, vd.toNat), (6, vs1.toNat), (4, km.toNat)])
  | .vfneg vd vs1 km => some (.v, 0x28, [(6, vd.toNat), (6, vs1.toNat), (4, km.toNat)])
  | .vfcmp kd vs1 vs2 km cond => some (.v, 0x29, [(4, kd.toNat), (6, vs1.toNat), (6, vs2.toNat), (4, km.toNat), (4, cond.toCode)])
  | .vexp2 vd vs1 km => some (.v, 0x2A, [(6, vd.toNat), (6, vs1.toNat), (4, km.toNat)])
  | .vlog2 vd vs1 km => some (.v, 0x2B, [(6, vd.toNat), (6, vs1.toNat), (4, km.toNat)])
  | .vrcp vd vs1 km => some (.v, 0x2C, [(6, vd.toNat), (6, vs1.toNat), (4, km.toNat)])
  | .vrsq vd vs1 km => some (.v, 0x2D, [(6, vd.toNat), (6, vs1.toNat), (4, km.toNat)])
  | .vcvt vd vs1 km src tgt => some (.v, 0x30, [(6, vd.toNat), (6, vs1.toNat), (4, km.toNat), (5, src.toRaw.1), (5, tgt.toRaw.1), (1, src.toRaw.2), (1, tgt.toRaw.2)])
  | .vcvts vd vs1 vs2 km src tgt => some (.v, 0x31, [(6, vd.toNat), (6, vs1.toNat), (6, vs2.toNat), (4, km.toNat), (5, src.toRaw.1), (5, tgt.toRaw.1), (1, src.toRaw.2), (1, tgt.toRaw.2)])
  | .vbfx vd vs1 pos len sx km => some (.v, 0x38, [(6, vd.toNat), (6, vs1.toNat), (6, pos.toRaw.1), (4, km.toNat), (1, pos.toRaw.2.1), (5, pos.toRaw.2.2), (6, len.toNat), (1, sx.toNat)])
  | .vbfi vd vs1 pos len km => some (.v, 0x39, [(6, vd.toNat), (6, vs1.toNat), (6, pos.toRaw.1), (4, km.toNat), (1, pos.toRaw.2.1), (5, pos.toRaw.2.2), (6, len.toNat)])
  | .vfsh vd vs1 vs2 amt km => some (.v, 0x3A, [(6, vd.toNat), (6, vs1.toNat), (6, vs2.toNat), (6, amt.toRaw.1), (4, km.toNat), (1, amt.toRaw.2.1), (6, amt.toRaw.2.2)])
  | .vpopc vd vs1 km => some (.v, 0x3B, [(6, vd.toNat), (6, vs1.toNat), (4, km.toNat)])
  | .vclz vd vs1 km => some (.v, 0x3C, [(6, vd.toNat), (6, vs1.toNat), (4, km.toNat)])
  | .vperm vd vs1 vs2 km => some (.v, 0x40, [(6, vd.toNat), (6, vs1.toNat), (6, vs2.toNat), (4, km.toNat)])
  | .vbcast vd src km => some (.v, 0x41, [(6, vd.toNat), (1, src.toRaw.1), (6, src.toRaw.2.1), (6, src.toRaw.2.2), (4, km.toNat)])
  | .vslide vd vs1 vs2 n km => some (.v, 0x42, [(6, vd.toNat), (6, vs1.toNat), (6, vs2.toNat), (6, n.toNat), (4, km.toNat)])
  | .vlut vd vs1 bank row0 sz km => some (.v, 0x43, [(6, vd.toNat), (6, vs1.toNat), (6, bank.toNat), (11, row0.toNat), (4, sz.toNat), (4, km.toNat)])
  | .vcomp vd vs1 km => some (.v, 0x44, [(6, vd.toNat), (6, vs1.toNat), (4, km.toNat)])
  | .vexpd vd vs1 km => some (.v, 0x45, [(6, vd.toNat), (6, vs1.toNat), (4, km.toNat)])
  | .vradd gd vs1 km => some (.v, 0x48, [(6, gd.toNat), (6, vs1.toNat), (4, km.toNat)])
  | .vrmax gd vs1 km => some (.v, 0x49, [(6, gd.toNat), (6, vs1.toNat), (4, km.toNat)])
  | .vrmin gd vs1 km => some (.v, 0x4A, [(6, gd.toNat), (6, vs1.toNat), (4, km.toNat)])
  | .vrfadd gd vs1 km => some (.v, 0x4B, [(6, gd.toNat), (6, vs1.toNat), (4, km.toNat)])
  | .vrfmax gd vs1 km => some (.v, 0x4C, [(6, gd.toNat), (6, vs1.toNat), (4, km.toNat)])
  | .vmov vd vs1 km => some (.v, 0x50, [(6, vd.toNat), (6, vs1.toNat), (4, km.toNat)])
  | .vmovi vd imm km => some (.v, 0x51, [(6, vd.toNat), (32, imm.toNat), (4, km.toNat)])
  | .vins vd gs lane => some (.v, 0x52, [(6, vd.toNat), (6, gs.toNat), (6, lane.toNat)])
  | .vext gd vs1 lane sx => some (.v, 0x53, [(6, gd.toNat), (6, vs1.toNat), (6, lane.toNat), (1, sx.toNat)])
  | .kand kd ks1 ks2 => some (.v, 0x58, [(4, kd.toNat), (4, ks1.toNat), (4, ks2.toNat)])
  | .kor kd ks1 ks2 => some (.v, 0x59, [(4, kd.toNat), (4, ks1.toNat), (4, ks2.toNat)])
  | .kxor kd ks1 ks2 => some (.v, 0x5A, [(4, kd.toNat), (4, ks1.toNat), (4, ks2.toNat)])
  | .knot kd ks1 => some (.v, 0x5B, [(4, kd.toNat), (4, ks1.toNat)])
  | .kmov form => some (.v, 0x5C, [(6, form.toRaw.1), (6, form.toRaw.2.1), (2, form.toRaw.2.2)])
  | .kpop gd ks1 => some (.v, 0x5D, [(6, gd.toNat), (4, ks1.toNat)])
  | .sseed gen gs kind => some (.v1, 0x70, [(4, gen.toNat), (6, gs.toNat), (1, kind.toNat)])
  | .sgen sd vs gen bp => some (.v1, 0x71, [(4, sd.toNat), (6, vs.toNat), (4, gen.toNat), (1, bp.toNat)])
  | .sand sd sa sb => some (.v1, 0x72, [(4, sd.toNat), (4, sa.toNat), (4, sb.toNat)])
  | .sor sd sa sb => some (.v1, 0x73, [(4, sd.toNat), (4, sa.toNat), (4, sb.toNat)])
  | .smin sd sa sb => some (.v1, 0x74, [(4, sd.toNat), (4, sa.toNat), (4, sb.toNat)])
  | .smax sd sa sb => some (.v1, 0x75, [(4, sd.toNat), (4, sa.toNat), (4, sb.toNat)])
  | .sxnor sd sa sb => some (.v1, 0x76, [(4, sd.toNat), (4, sa.toNat), (4, sb.toNat)])
  | .smux sd sa sb ssel => some (.v1, 0x77, [(4, sd.toNat), (4, sa.toNat), (4, sb.toNat), (4, ssel.toNat)])
  | .scnt vd ss mode km => some (.v1, 0x78, [(6, vd.toNat), (4, ss.toNat), (2, mode.toCode), (4, km.toNat)])
  | .sregen sd ss gen => some (.v1, 0x79, [(4, sd.toNat), (4, ss.toNat), (4, gen.toNat)])
  | .sdly sd ss n => some (.v1, 0x7A, [(4, sd.toNat), (4, ss.toNat), (10, n.toNat)])
  | .scls gd ss => some (.v1, 0x7B, [(6, gd.toNat), (4, ss.toNat)])
  | .mzero ct => some (.m, 0x01, [(2, ct.toNat)])
  | .mldw ws ad imm gk mode => some (.m, 0x02, [(2, ws.toNat), (4, ad.toNat), (32, imm.toNat), (6, gk.toNat), (2, mode.toCode)])
  | .mma ct pos ws fa kr => some (.m, 0x03, [(2, ct.toNat), (18, pos.toRaw), (2, ws.toNat), (5, fa.toNat), (1, kr.toNat)])
  | .mmat ct pos ws fa kr => some (.m, 0x04, [(2, ct.toNat), (18, pos.toRaw), (2, ws.toNat), (5, fa.toNat), (1, kr.toNat)])
  | .mdrain ct tgt zc => some (.m, 0x05, [(2, ct.toNat), (37, tgt.toRaw), (6, 0), (1, zc.toNat), (1, 0)])
  | .mdraina ct tgt gc zc cl => some (.m, 0x06, [(2, ct.toNat), (37, tgt.toRaw), (6, gc.toNat), (1, zc.toNat), (1, cl.toNat)])
  | .mgemm bank row => some (.m, 0x07, [(6, bank.toNat), (11, row.toNat)])
  | .mattn bank row => some (.m, 0x08, [(6, bank.toNat), (11, row.toNat)])
  | .mstep => some (.m, 0x09, [])
  | .mcancel => some (.m, 0x0A, [])
  | .mbias ct bank row => some (.m, 0x0B, [(2, ct.toNat), (6, bank.toNat), (11, row.toNat)])
  | .mscale ct bank row => some (.m, 0x0C, [(2, ct.toNat), (6, bank.toNat), (11, row.toNat)])
  | .ld gd ad sz sx imm => some (.l, 0x01, [(6, gd.toNat), (4, ad.toNat), (2, sz.toNat), (1, sx.toNat), (35, imm.toNat)])
  | .ldv vd ad km imm => some (.l, 0x02, [(6, vd.toNat), (4, ad.toNat), (4, km.toNat), (34, imm.toNat)])
  | .lds form pos ma => some (.l, 0x03, [(6, form.toRaw.1), (1, form.toRaw.2.1), (18, pos.toRaw), (4, form.toRaw.2.2.1), (6, form.toRaw.2.2.2.1), (2, form.toRaw.2.2.2.2.1), (1, form.toRaw.2.2.2.2.2), (1, ma.toNat)])
  | .ldsg vd bank row0 vs km ma => some (.l, 0x04, [(6, vd.toNat), (6, bank.toNat), (11, row0.toNat), (6, vs.toNat), (4, km.toNat), (1, ma.toNat)])
  | .ldg vd ad vs km => some (.l, 0x05, [(6, vd.toNat), (4, ad.toNat), (6, vs.toNat), (4, km.toNat)])
  | .atadd gd ad gs1 sz imm => some (.l, 0x10, [(6, gd.toNat), (4, ad.toNat), (6, gs1.toNat), (6, 0), (3, sz.toNat), (23, imm.toNat)])
  | .atand gd ad gs1 sz imm => some (.l, 0x11, [(6, gd.toNat), (4, ad.toNat), (6, gs1.toNat), (6, 0), (3, sz.toNat), (23, imm.toNat)])
  | .ator gd ad gs1 sz imm => some (.l, 0x12, [(6, gd.toNat), (4, ad.toNat), (6, gs1.toNat), (6, 0), (3, sz.toNat), (23, imm.toNat)])
  | .atxor gd ad gs1 sz imm => some (.l, 0x13, [(6, gd.toNat), (4, ad.toNat), (6, gs1.toNat), (6, 0), (3, sz.toNat), (23, imm.toNat)])
  | .atmin gd ad gs1 sz imm => some (.l, 0x14, [(6, gd.toNat), (4, ad.toNat), (6, gs1.toNat), (6, 0), (3, sz.toNat), (23, imm.toNat)])
  | .atmax gd ad gs1 sz imm => some (.l, 0x15, [(6, gd.toNat), (4, ad.toNat), (6, gs1.toNat), (6, 0), (3, sz.toNat), (23, imm.toNat)])
  | .atminn gd ad gs1 sz imm => some (.l, 0x16, [(6, gd.toNat), (4, ad.toNat), (6, gs1.toNat), (6, 0), (3, sz.toNat), (23, imm.toNat)])
  | .atmaxn gd ad gs1 sz imm => some (.l, 0x17, [(6, gd.toNat), (4, ad.toNat), (6, gs1.toNat), (6, 0), (3, sz.toNat), (23, imm.toNat)])
  | .atswp gd ad gs1 sz imm => some (.l, 0x18, [(6, gd.toNat), (4, ad.toNat), (6, gs1.toNat), (6, 0), (3, sz.toNat), (23, imm.toNat)])
  | .atcas gd ad gs1 gs2 sz imm => some (.l, 0x19, [(6, gd.toNat), (4, ad.toNat), (6, gs1.toNat), (6, gs2.toNat), (3, sz.toNat), (23, imm.toNat)])
  | .atfadd gd ad gs1 sz imm => some (.l, 0x1A, [(6, gd.toNat), (4, ad.toNat), (6, gs1.toNat), (6, 0), (3, sz.toNat), (23, imm.toNat)])
  | .marm mon ad imm => some (.l, 0x20, [(12, mon.toNat), (4, ad.toNat), (32, imm.toNat)])
  | .st gs ad sz imm => some (.w, 0x01, [(6, gs.toNat), (4, ad.toNat), (2, sz.toNat), (22, imm.toNat)])
  | .stv vs ad km lt imm => some (.w, 0x02, [(6, vs.toNat), (4, ad.toNat), (4, km.toNat), (2, lt.toCode), (18, imm.toNat)])
  | .sts vs pos km ma => some (.w, 0x03, [(6, vs.toNat), (18, pos.toRaw), (4, km.toNat), (1, ma.toNat)])
  | .stss gs pos byte sz ma => some (.w, 0x04, [(6, gs.toNat), (18, pos.toRaw), (6, byte.toNat), (2, sz.toNat), (1, ma.toNat)])
  | .stg vs ad vi km lt => some (.w, 0x05, [(6, vs.toNat), (4, ad.toNat), (6, vi.toNat), (4, km.toNat), (2, lt.toCode)])
  | .stz ad imm => some (.w, 0x06, [(4, ad.toNat), (30, imm.toNat)])
  | .cpy pl gn => some (.c, 0x01, [(2, pl.toRaw.1), (17, pl.toRaw.2.1), (17, pl.toRaw.2.2), (6, gn.toNat)])
  | .cpyw bank row ad gn gm fop => some (.c, 0x02, [(6, bank.toNat), (11, row.toNat), (4, ad.toNat), (6, gn.toNat), (6, gm.toNat), (2, fop.toCode)])
  | .cpyx pl gn fs => some (.c, 0x03, [(2, pl.toRaw.1), (17, pl.toRaw.2.1), (17, pl.toRaw.2.2), (6, gn.toNat), (5, fs.toNat)])
  | .cpyg dst ad ibank irow gn => some (.c, 0x04, [(1, dst.toRaw.1), (17, dst.toRaw.2), (4, ad.toNat), (6, ibank.toNat), (11, irow.toNat), (6, gn.toNat)])
  | .jsub ad t imm => some (.c, 0x05, [(4, ad.toNat), (1, t.toNat), (43, imm.toNat)])
  | .jcan gs => some (.c, 0x06, [(6, gs.toNat)])
  | .tnew gd ad imm => some (.c, 0x10, [(6, gd.toNat), (4, ad.toNat), (38, imm.toNat)])
  | .tfree gs => some (.c, 0x11, [(6, gs.toNat)])
  | .tuse gs1 gs2 => some (.c, 0x12, [(6, gs1.toNat), (6, gs2.toNat)])
  | .thint gs hint => some (.c, 0x13, [(6, gs.toNat), (3, hint.toCode)])
  | .tpin gs => some (.c, 0x14, [(6, gs.toNat)])
  | .tunpin gs => some (.c, 0x15, [(6, gs.toNat)])
  | .tfetch gs tier => some (.c, 0x16, [(6, gs.toNat), (1, tier.toNat)])
  | .tlock ad imm gs => some (.c, 0x17, [(4, ad.toNat), (32, imm.toNat), (6, gs.toNat)])
  | .tunlock ad imm => some (.c, 0x18, [(4, ad.toNat), (32, imm.toNat)])
  | .tinfo gd gs sel => some (.c, 0x19, [(6, gd.toNat), (6, gs.toNat), (3, sel.toCode)])
  | .kvnew gd ad imm => some (.c, 0x20, [(6, gd.toNat), (4, ad.toNat), (38, imm.toNat)])
  | .kvapp gs bank row tag => some (.c, 0x21, [(6, gs.toNat), (6, bank.toNat), (11, row.toNat), (3, tag.toNat)])
  | .kvret gs1 gs2 mask => some (.c, 0x22, [(6, gs1.toNat), (6, gs2.toNat), (8, mask.toNat)])
  | .kvpos gd gs1 gs2 sel => some (.c, 0x23, [(6, gd.toNat), (6, gs1.toNat), (6, gs2.toNat), (2, sel.toCode)])
  | .kvinfo gd gs sel => some (.c, 0x24, [(6, gd.toNat), (6, gs.toNat), (3, sel.toCode)])
  | .wait z lsel lval => some (.y, 0x01, [(4, z.toNat), (2, lsel.toNat), (6, lval.toNat)])
  | .bari pd gs => some (.y, 0x02, [(7, pd.toNat), (6, gs.toNat)])
  | .bara bar => some (.y, 0x03, [(11, bar.toNat)])
  | .barw bar gs => some (.y, 0x04, [(11, bar.toNat), (6, gs.toNat)])
  | .baraw bar => some (.y, 0x05, [(11, bar.toNat)])
  | .bfree bar => some (.y, 0x06, [(11, bar.toNat)])
  | .monw mon => some (.y, 0x07, [(12, mon.toNat)])
  | .acq scope ad => some (.y, 0x08, [(3, scope.toCode), (4, ad.toNat)])
  | .rel scope ad => some (.y, 0x09, [(3, scope.toCode), (4, ad.toNat)])
  | .fence gd scope => some (.y, 0x0A, [(6, gd.toNat), (3, scope.toCode)])
  | .yield => some (.y, 0x0B, [])
  | .rdv pd n => some (.y, 0x0C, [(7, pd.toNat), (11, n.toNat)])
  | .spawnPost _ _ _ _ _ _ => none
  | .nullBundle => none
  | .mldwFillLand _ _ _ => none
  | .scratchpadDrainRow _ _ _ => none
  | .memoryDrainRow _ _ _ => none
  | .engineDc _ => none
  | .piccoloResidencyResume _ => none
  | .pageLanded _ _ _ _ => none
  | .l1Fill _ _ _ _ _ _ => none
  | .refillComplete _ => none
  | .lineDrain _ _ => none
  | .atomicAtHome _ _ _ _ _ _ _ _ => none
  | .replyArrival _ _ _ => none
  | .monitorArm _ _ _ _ => none
  | .spuriousMonitorEvent _ _ => none
  | .copyBlockIssue _ _ _ => none
  | .copyBlockLand _ _ _ => none
  | .barrierArrival _ _ _ _ => none
  | .relPerform _ _ _ => none
  | .fenceComplete _ => none
  | .holdRelease _ => none
  | .holdTimeout _ => none
  | .memoryTimeout _ => none
  | .progressWatchdog _ => none
  | .hardWatchdog _ => none
  | .shadowLatchSquash _ => none
  | .regulatorSettleEnd _ => none
  | .takeAsyncRequest _ => none
  | .preemptRequest _ => none
  | .pickup _ _ => none
  | .writeBack _ => none
  | .taskRelease _ => none
  | .unitCompletion _ => none
  | .completionEntryPost _ => none
  | .doorbell _ _ => none
  | .schdb _ _ => none
  | .takeCommand _ => none
  | .admitGang _ => none
  | .gangReservation _ => none
  | .priorityPromotion _ => none
  | .migrationRequest _ => none
  | .migration _ _ => none
  | .dutyTakesEffect _ => none
  | .thermalDutyUpdate _ => none
  | .gets _ _ _ _ => none
  | .getm _ _ => none
  | .putm _ _ => none
  | .invalidation _ _ _ => none
  | .invalidationAck _ _ _ => none
  | .residencyAction _ _ => none
  | .residencyActionFinish _ => none
  | .sramThermalShutdown _ => none
  | .loopLost _ => none
  | .loopRecovered _ => none
  | .tableChange => none
  | .shutdownStop => none
  | .blackboxSquashWindow _ => none
  | .coldReset => none
  | .warmReset => none
  | .maintenanceReset _ => none
  | .laneLendTimeout _ _ => none
  | .mgnWrite _ _ => none
  | .registerWrite _ _ _ => none
  | .hostWrite _ _ _ _ _ => none
  | .hostRead _ _ _ _ => none
  | .functionLevelReset _ => none
  | .acmd _ => none
  | .attestationReportDone _ => none
  | .lkctlUp _ _ => none
  | .dataFlit _ _ _ _ => none
  | .acknowledgement _ _ _ _ => none
  | .nak _ _ _ _ => none
  | .ackTimer _ _ _ => none
  | .replayTimeout _ _ _ => none
  | .crcWindowClose _ _ _ => none
  | .retrainComplete _ _ _ _ => none
  | .linkDead _ _ => none
  | .linkStateUpdate _ _ _ => none
  | .drainMarker _ _ _ _ => none
  | .drainRound _ _ => none
  | .illegalEncoding _ => none

/-- The bits of a slot that holds an operation under a predicate (05 R89). -/
def encodeSlot (o : SlotOp) : Option Nat :=
  (encodeFields o.op).map fun (mp, opc, fs) =>
    opc * 2 ^ (mp.area + 8) + o.pnum.toNat * 2 ^ (mp.area + 1) + (if o.inv then 2 ^ mp.area else 0)
      + packFields mp.area fs

/-- The slot an operation stands in (05 R93): a V operation in V0 but for the stream operations. -/
def OpMap.slot : OpMap → Slot
  | .s => .S | .v => .V0 | .v1 => .V1 | .m => .M | .l => .L | .w => .W | .c => .C | .y => .Y

/-! ### Bundles (05 R84-R87) -/

/-- The header of a bundle (05 R85). -/
structure Header where
  mpri : BitVec 2
  aset : BitVec 4
  lbm1 : BitVec 3
  rep : BitVec 8
  pres : BitVec 8
  k : Bool
  e : Bool
  q : Bool
  deriving DecidableEq, Repr

/-- Bits [lo + w - 1 : lo] of a natural number. -/
def bitsOf (x lo w : Nat) : Nat := x / 2 ^ lo % 2 ^ w

def decodeHeader (h : Nat) : Header :=
  { mpri := BitVec.ofNat 2 (bitsOf h 26 2), aset := BitVec.ofNat 4 (bitsOf h 22 4)
    lbm1 := BitVec.ofNat 3 (bitsOf h 19 3), rep := BitVec.ofNat 8 (bitsOf h 11 8)
    pres := BitVec.ofNat 8 (bitsOf h 3 8), k := bitsOf h 2 1 == 1, e := bitsOf h 1 1 == 1, q := bitsOf h 0 1 == 1 }

def encodeHeader (h : Header) : Nat :=
  h.mpri.toNat * 2 ^ 26 + h.aset.toNat * 2 ^ 22 + h.lbm1.toNat * 2 ^ 19 + h.rep.toNat * 2 ^ 11 + h.pres.toNat * 2 ^ 3
    + (if h.k then 4 else 0) + (if h.e then 2 else 0) + (if h.q then 1 else 0)

/-- The header checks of 05 R95 that the header alone decides. -/
def headerBad (h : Nat) : Bool :=
  decide (bitsOf h 28 4 ≠ 0) || (bitsOf h 11 8 == 0 && (bitsOf h 19 3 != 0 || bitsOf h 22 4 != 0))

/-- The lowest bundle bit of each slot (05 R84). -/
def Slot.base : Slot → Nat
  | .S => 32 | .V0 => 96 | .V1 => 160 | .M => 224 | .L => 304 | .W => 368 | .C => 416 | .Y => 480

/-- The slots in PRES order (05 R85). -/
def slotOrder : List Slot := [.S, .V0, .V1, .M, .L, .W, .C, .Y]

/-- The place of a slot in PRES order, which is its bit in the fault mask (05 R96). -/
def Slot.idx : Slot → Nat
  | .S => 0 | .V0 => 1 | .V1 => 2 | .M => 3 | .L => 4 | .W => 5 | .C => 6 | .Y => 7

/-- The mask bit of a slot; bit 8 is the header (05 R96). -/
def Slot.mask (sl : Slot) : BitVec 9 := BitVec.ofNat 9 (2 ^ sl.idx)

/-- A decoded bundle: the operations of its sound present slots, and the places that fail a check of the encoding. -/
structure Bundle where
  hdr : Header
  slots : List (Slot × SlotOp)
  bad : BitVec 9
  deriving DecidableEq, Repr

/-- One present slot added to a bundle. -/
def decodeOneSlot (w : Nat) (b : Bundle) (sl : Slot) : Bundle :=
  if b.hdr.pres.toNat / 2 ^ sl.idx % 2 = 0 then b
  else
    match decodeSlot sl b.hdr.k (bitsOf w sl.base sl.width) with
    | .ok o => { b with slots := b.slots ++ [(sl, o)] }
    | .error _ => { b with bad := b.bad ||| sl.mask }

/-- The 512 bits of a bundle, decoded (05 R84). -/
def decodeBundle (w : Nat) : Bundle :=
  let h := w % 2 ^ 32
  let b : Bundle := ⟨decodeHeader h, [], if headerBad h then 0x100 else 0⟩
  slotOrder.foldl (decodeOneSlot w) b

/-- Whether the bundle has no present slot (05 R86). -/
def Bundle.isNull (b : Bundle) : Bool := b.hdr.pres == 0

/-- The operation of a slot. -/
def Bundle.at? (b : Bundle) (sl : Slot) : Option SlotOp := (b.slots.find? fun p => p.1 = sl).map (·.2)

/-- A bundle with one slot, its other bits zero. -/
def bundleOfSlot (sl : Slot) (bits : Nat) : Nat := 2 ^ (3 + sl.idx) + bits * 2 ^ sl.base

/-- The slot that a row of the opcode table gives bits for: its width is the slot's. -/
def slotOfWidth (nbits : Nat) : Slot :=
  if nbits = 32 then .Y else if nbits = 48 then .W else if nbits = 80 then .M else .S

/-- The instruction that the decoder reads from a slot word of `nbits` bits. -/
def decodeTableWord (nbits w : Nat) : Option Instr :=
  if nbits = 512 then
    match (decodeBundle w).slots with
    | [(_, o)] => some o.op
    | _ => none
  else
    match decodeSlot (slotOfWidth nbits) false w with
    | .ok o => some o.op
    | .error _ => none

end Sys2Proof
end

