-- ==== Sys2Proof/Machine/Numbers.lean ====
section
/-! DEFINITION. Exact numbers and their rounding (04 R68-R84): every arithmetic result is formed exactly and rounded
once by `roundTo`. -/

namespace Sys2Proof

/-- An exact value: a NaN or infinity with its sign, or (-1)^sign * mant * 2^exp. -/
inductive XVal where
  | nan (sign : Bool)
  | inf (sign : Bool)
  | fin (sign : Bool) (mant : Nat) (exp : Int)
  deriving DecidableEq, Repr

namespace XVal

def zero : XVal := .fin false 0 0
def negZero : XVal := .fin true 0 0
def isNaN : XVal → Bool
  | .nan _ => true
  | _ => false
def isZero : XVal → Bool
  | .fin _ m _ => m == 0
  | _ => false
def sign : XVal → Bool
  | .nan s | .inf s | .fin s _ _ => s
def neg : XVal → XVal
  | .nan s => .nan s
  | .inf s => .inf !s
  | .fin s m e => .fin (!s) m e
/-- The value times 2^k, exact (04 R74). -/
def scale (x : XVal) (k : Int) : XVal :=
  match x with
  | .fin s m e => .fin s m (e + k)
  | y => y
def ofInt (i : Int) : XVal := .fin (decide (i < 0)) i.natAbs 0
/-- The exact product; infinity times zero is a NaN (04 R78). -/
def mul : XVal → XVal → XVal
  | .nan _, _ | _, .nan _ => .nan false
  | .inf s, .inf t => .inf (s != t)
  | .inf s, .fin t m _ | .fin t m _, .inf s => if m = 0 then .nan false else .inf (s != t)
  | .fin s m e, .fin t n f => .fin (s != t) (m * n) (e + f)
/-- The mantissa of a finite value as an integer at the exponent `lo`, which is at most its own. -/
def alignTo (s : Bool) (m : Nat) (e lo : Int) : Int :=
  let v : Int := (m * 2 ^ (e - lo).toNat : Nat)
  if s then -v else v
/-- The exact sum under IEEE 754: a zero sum is -0 only when both terms are -0. A NaN sum has sign 0, also where a term is a NaN of
sign 1, which picks the NaN code of a narrow drain target (DESIGN CHOICE, log 152). -/
def add : XVal → XVal → XVal
  | .nan _, _ | _, .nan _ => .nan false
  | .inf s, .inf t => if s = t then .inf s else .nan false
  | .inf s, .fin _ _ _ | .fin _ _ _, .inf s => .inf s
  | .fin s m e, .fin t n f =>
    if m = 0 ∧ n = 0 then .fin (s && t) 0 0
    else
      let lo := min e f
      let i := alignTo s m e lo + alignTo t n f lo
      .fin (decide (i < 0)) i.natAbs lo
/-- x < y among values that are no NaN; -0 and +0 are equal. -/
def lt : XVal → XVal → Bool
  | .nan _, _ | _, .nan _ => false
  | .inf s, .inf t => s && !t
  | .inf s, .fin _ _ _ => s
  | .fin _ _ _, .inf t => !t
  | .fin s m e, .fin t n f =>
    let lo := min e f
    decide (alignTo s m e lo < alignTo t n f lo)
/-- x = y among values that are no NaN. -/
def eqv (x y : XVal) : Bool := !x.isNaN && !y.isNaN && !x.lt y && !y.lt x

end XVal

/-- The kinds of number formats (04 R67-R72). -/
inductive NumKind where
  | uint | sint | narrow | wide
  deriving DecidableEq, Repr

/-- A number format: its width, exponent and mantissa bits and its effective bias (04 R67, R69). -/
structure NumFmt where
  kind : NumKind
  width : Nat
  ebits : Nat
  mbits : Nat
  bias : Int
  deriving DecidableEq, Repr

def NumFmt.uintOf (w : Nat) : NumFmt := ⟨.uint, w, 0, 0, 0⟩
def NumFmt.sintOf (w : Nat) : NumFmt := ⟨.sint, w, 0, 0, 0⟩
/-- WwEe with a BIAS adjustment (04 R69). -/
def NumFmt.narrowOf (w e : Nat) (adj : Int) : NumFmt := ⟨.narrow, w, e, w - 1 - e, 2 ^ (e - 1) - 1 + adj⟩
def NumFmt.binary16 : NumFmt := ⟨.wide, 16, 5, 10, 15⟩
def NumFmt.bfloat16 : NumFmt := ⟨.wide, 16, 8, 7, 127⟩
def NumFmt.binary32 : NumFmt := ⟨.wide, 32, 8, 23, 127⟩

/-- The format of a CODE with a BIAS (04 R67). DESIGN CHOICE (log 135): the codes 28 to 31 have no row in the table and
MFSET refuses them (03 R60); a slot or weight entry that an image restores with one of them decodes as W8E7. -/
def NumFmt.ofCode (code : Nat) (adj : Int) : NumFmt :=
  match code with
  | 0 => .uintOf 8 | 1 => .sintOf 8 | 2 => .uintOf 4 | 3 => .sintOf 4 | 4 => .sintOf 16
  | 5 => .binary16 | 6 => .bfloat16 | 7 => .binary32
  | 8 => .narrowOf 4 2 adj | 9 => .narrowOf 4 3 adj
  | 10 => .narrowOf 5 2 adj | 11 => .narrowOf 5 3 adj | 12 => .narrowOf 5 4 adj
  | 13 => .narrowOf 6 2 adj | 14 => .narrowOf 6 3 adj | 15 => .narrowOf 6 4 adj | 16 => .narrowOf 6 5 adj
  | 17 => .narrowOf 7 2 adj | 18 => .narrowOf 7 3 adj | 19 => .narrowOf 7 4 adj | 20 => .narrowOf 7 5 adj
  | 21 => .narrowOf 7 6 adj
  | 22 => .narrowOf 8 2 adj | 23 => .narrowOf 8 3 adj | 24 => .narrowOf 8 4 adj | 25 => .narrowOf 8 5 adj
  | 26 => .narrowOf 8 6 adj | _ => .narrowOf 8 7 adj

def NumFmt.isInt (f : NumFmt) : Bool := f.kind == .uint || f.kind == .sint

/-- The value of an encoding; bits above the width are ignored (04 R68, R69, R72). -/
def NumFmt.decode (f : NumFmt) (bits : Nat) : XVal :=
  let b := bits % 2 ^ f.width
  match f.kind with
  | .uint => .fin false b 0
  | .sint => .ofInt (if b < 2 ^ (f.width - 1) then (b : Int) else (b : Int) - 2 ^ f.width)
  | .narrow =>
    let s := decide (2 ^ (f.width - 1) ≤ b)
    let E := b / 2 ^ f.mbits % 2 ^ f.ebits
    let M := b % 2 ^ f.mbits
    if E = 2 ^ f.ebits - 1 ∧ M = 2 ^ f.mbits - 1 then .nan s
    else if E = 0 then (if f.mbits = 0 then .fin s 0 0 else .fin s M (1 - f.bias - f.mbits))
    else .fin s (2 ^ f.mbits + M) (E - f.bias - f.mbits)
  | .wide =>
    let s := decide (2 ^ (f.width - 1) ≤ b)
    let E := b / 2 ^ f.mbits % 2 ^ f.ebits
    let M := b % 2 ^ f.mbits
    if E = 2 ^ f.ebits - 1 then (if M = 0 then .inf s else .nan s)
    else if E = 0 then .fin s M (1 - f.bias - f.mbits)
    else .fin s (2 ^ f.mbits + M) (E - f.bias - f.mbits)

/-- The code of the largest finite magnitude (04 R70, R72). -/
def NumFmt.maxCode (f : NumFmt) : Nat :=
  match f.kind with
  | .uint => 2 ^ f.width - 1
  | .sint => 2 ^ (f.width - 1) - 1
  | .narrow => 2 ^ (f.width - 1) - 2
  | .wide => (2 ^ f.ebits - 1) * 2 ^ f.mbits - 1

/-- The largest finite value. -/
def NumFmt.maxFinite (f : NumFmt) : XVal := f.decode f.maxCode

/-- The NaN of a float format with a sign (04 R69, R72). -/
def NumFmt.nanCode (f : NumFmt) (s : Bool) : Nat :=
  (if s then 2 ^ (f.width - 1) else 0) +
    (match f.kind with
     | .narrow => 2 ^ (f.width - 1) - 1
     | .wide => (2 ^ f.ebits - 1) * 2 ^ f.mbits + 2 ^ (f.mbits - 1)
     | _ => 0)

/-- The rounding modes (04 R76). -/
inductive RMode where
  | ne | tz
  deriving DecidableEq, Repr

/-- floor(m * 2^k) and whether anything was cut off, and how twice the rest compares with one. -/
def cutShift (m : Nat) (k : Int) : Nat × Ordering :=
  if 0 ≤ k then (m * 2 ^ k.toNat, .lt)
  else
    let d := 2 ^ (-k).toNat
    (m / d, compare (2 * (m % d)) d)

/-- Whether m * 2^k is an integer. -/
def exactShift (m : Nat) (k : Int) : Bool := if 0 ≤ k then true else m % 2 ^ (-k).toNat == 0

/-- The code of the magnitude m * 2^e in units of 2^q, where the code of n units is n + base: the neighbour rule of
04 R76 over codes, a tie going to the even code. -/
def roundMag (m : Nat) (e q : Int) (base : Nat) (mode : RMode) : Nat :=
  let (n, half) := cutShift m (e - q)
  let c := n + base
  match mode with
  | .tz => c
  | .ne =>
    match half with
    | .lt => c
    | .gt => c + 1
    | .eq => if exactShift m (e - q) then c else if c % 2 = 0 then c else c + 1

/-- The magnitude code of m * 2^e, m nonzero, in a float format. -/
def NumFmt.floatMag (f : NumFmt) (m : Nat) (e : Int) (mode : RMode) : Nat :=
  let top := max ((Nat.log2 m : Int) + e) (1 - f.bias)
  roundMag m e (top - f.mbits) ((top + f.bias - 1).toNat * 2 ^ f.mbits) mode

/-- RoundToFormat and the encoding of its result (04 R76). -/
def roundTo (x : XVal) (f : NumFmt) (mode : RMode) : Nat :=
  match x with
  | .nan s => if f.isInt then 0 else f.nanCode s
  | .inf s =>
    match f.kind with
    | .uint => if s then 0 else f.maxCode
    | .sint => if s then 2 ^ f.width - f.maxCode else f.maxCode
    | .narrow => (if s then 2 ^ (f.width - 1) else 0) + f.maxCode
    | .wide => (if s then 2 ^ (f.width - 1) else 0) + f.maxCode + 1
  | .fin s m e =>
    let big := (XVal.lt f.maxFinite (.fin false m e))
    match f.kind with
    | .uint =>
      if s && m != 0 then 0 else if big then f.maxCode else roundMag m e 0 0 mode
    | .sint =>
      let c := if big then f.maxCode else roundMag m e 0 0 mode
      if s then (2 ^ f.width - c) % 2 ^ f.width else c
    | .narrow =>
      (if s then 2 ^ (f.width - 1) else 0) +
        (if m = 0 then 0 else if big then f.maxCode else f.floatMag m e mode)
    | .wide =>
      (if s then 2 ^ (f.width - 1) else 0) +
        (if m = 0 then 0
         else if big && mode == .tz then f.maxCode
         else min (f.floatMag m e mode) (f.maxCode + 1))

/-! ### binary32 -/

def f32 (b : BitVec 32) : XVal := NumFmt.binary32.decode b.toNat
/-- RoundToFormat(x, binary32, NE). -/
def toF32 (x : XVal) : BitVec 32 := BitVec.ofNat 32 (roundTo x .binary32 .ne)
/-- The canonical NaN (04 R72). -/
def nan32 : BitVec 32 := 0x7FC00000#32
def posInf32 : BitVec 32 := 0x7F800000#32
def negInf32 : BitVec 32 := 0xFF800000#32
def f32Add (a b : BitVec 32) : BitVec 32 := toF32 ((f32 a).add (f32 b))
def f32Sub (a b : BitVec 32) : BitVec 32 := toF32 ((f32 a).add (f32 b).neg)
def f32Mul (a b : BitVec 32) : BitVec 32 := toF32 ((f32 a).mul (f32 b))
/-- a * b + c, rounded once (07 R144). -/
def f32Fma (a b c : BitVec 32) : BitVec 32 := toF32 (((f32 a).mul (f32 b)).add (f32 c))
def f32Fms (a b c : BitVec 32) : BitVec 32 := toF32 (((f32 a).mul (f32 b)).add (f32 c).neg)
/-- The order of VFMIN and VFMAX: -0 below +0 (07 R144). -/
def f32Below (a b : BitVec 32) : Bool :=
  (f32 a).lt (f32 b) || ((f32 a).eqv (f32 b) && (f32 a).isZero && (f32 a).sign && !(f32 b).sign)
def f32Min (a b : BitVec 32) : BitVec 32 :=
  if (f32 a).isNaN || (f32 b).isNaN then nan32 else if f32Below b a then b else a
def f32Max (a b : BitVec 32) : BitVec 32 :=
  if (f32 a).isNaN || (f32 b).isNaN then nan32 else if f32Below a b then b else a

/-! ### Quotients and the functions of 07 R145 -/

/-- An exact value known only to lie strictly between n and n + 1 units (or to be n units): the odd value between them
rounds the same way in every format of this machine. -/
def stickyMag (s : Bool) (n : Nat) (exact : Bool) (e : Int) : XVal :=
  .fin s (2 * n + (if exact then 0 else 1)) (e - 1)

/-- x / y with enough bits to round as the exact quotient; division by zero follows IEEE 754. -/
def xdiv (x y : XVal) : XVal :=
  match x, y with
  | .nan _, _ | _, .nan _ => .nan false
  | .inf _, .inf _ => .nan false
  | .inf s, .fin t _ _ => .inf (s != t)
  | .fin s _ _, .inf t => .fin (s != t) 0 0
  | .fin s m e, .fin t n f =>
    if n = 0 then (if m = 0 then .nan false else .inf (s != t))
    else
      let k := 80 + Nat.log2 n
      stickyMag (s != t) (m * 2 ^ k / n) (m * 2 ^ k % n == 0) (e - f - k)

/-- The integer square root, one bit at a time from bit `k` down. -/
def isqrtFrom (x : Nat) : Nat → Nat → Nat
  | 0, r => r
  | k + 1, r => isqrtFrom x k (if (r + 2 ^ k) * (r + 2 ^ k) ≤ x then r + 2 ^ k else r)
def isqrt (x : Nat) : Nat := isqrtFrom x (Nat.log2 x / 2 + 1) 0

/-- 1 / a (07 R145). -/
def f32Rcp (a : BitVec 32) : BitVec 32 := toF32 (xdiv (XVal.ofInt 1) (f32 a))

/-- 1 / sqrt a (07 R145). -/
def f32Rsq (a : BitVec 32) : BitVec 32 :=
  match f32 a with
  | .nan _ => nan32
  | .inf s => if s then nan32 else 0
  | .fin s m e =>
    if m = 0 then (if s then negInf32 else posInf32)
    else if s then nan32
    else
      let (m', e') := if e % 2 = 0 then (m, e) else (2 * m, e - 1)
      let k := 100 + Nat.log2 m'
      let r := isqrt (2 ^ (2 * k) / m')
      toF32 (stickyMag false r (r * r * m' == 2 ^ (2 * k)) (-(e' / 2) - k))

/-- The fraction bits used for 2^f and log2 (DEDUCED, log 8: enough that the rounding is that of the exact value). -/
def fnBits : Nat := 256

/-- 2^f in units of 2^-fnBits, for the fraction f = frac * 2^-n: the product of the roots 2^(2^-i) of its one bits. -/
def exp2Frac (frac : Nat) : Nat → Nat → Nat → Nat
  | 0, _, acc => acc
  | n + 1, root, acc =>
    let root' := isqrt (root * 2 ^ fnBits)
    exp2Frac frac n root' (if frac / 2 ^ n % 2 = 1 then acc * root' / 2 ^ fnBits else acc)

/-- 2^a (07 R145). -/
def f32Exp2 (a : BitVec 32) : BitVec 32 :=
  match f32 a with
  | .nan _ => nan32
  | .inf s => if s then 0 else posInf32
  | .fin s m e =>
    if XVal.lt (.fin s m e) (.ofInt (-160)) then 0
    else if !(XVal.lt (.fin s m e) (.ofInt 128)) then posInf32
    else
      let i := XVal.alignTo s m e (-160)
      let n := i / 2 ^ 160
      let frac := (i % 2 ^ 160).toNat
      if frac = 0 then toF32 (.fin false 1 n)
      else toF32 (stickyMag false (exp2Frac frac 160 (2 ^ (fnBits + 1)) (2 ^ fnBits)) false (n - fnBits))

/-- The first n fraction bits of log2 y, for y in [1, 2) in units of 2^-512: repeated squaring. -/
def log2Frac : Nat → Nat → Nat → Nat
  | 0, _, acc => acc
  | n + 1, y, acc =>
    let sq := y * y / 2 ^ 512
    if 2 ^ 513 ≤ sq then log2Frac n (sq / 2) (2 * acc + 1) else log2Frac n sq (2 * acc)

/-- log2 a (07 R145). -/
def f32Log2 (a : BitVec 32) : BitVec 32 :=
  match f32 a with
  | .nan _ => nan32
  | .inf s => if s then nan32 else posInf32
  | .fin s m e =>
    if m = 0 then negInf32
    else if s then nan32
    else
      let l := Nat.log2 m
      let E : Int := e + l
      if m = 2 ^ l then toF32 (.ofInt E)
      else
        let t : Int := E * 2 ^ 160 + log2Frac 160 (m * 2 ^ (512 - l)) 0
        toF32 ((XVal.ofInt (2 * t + 1)).scale (-161))

end Sys2Proof
end

