-- ==== Sys2Proof/Machine/State.lean ====
section
/-! DEFINITION. The state of the WJZ4-415 as plain data: every register file, control and system register, engine,
queue, table and record that spec/ gives the machine, and the model's own bookkeeping (marked OWN). -/

namespace Sys2Proof.Machine

/-- The reasons for which a step stops. -/
inductive Fault where
  /-- Raised by `step` alone: the stacks have powered down (22 R404 step 5) and no reset stands among the inputs, so
  there is no die clock and no further step. Safe: the machine stands still. -/
  | poweredDown
  deriving DecidableEq, Repr

/-- The reasons for which an instruction has no meaning in the model. -/
inductive Refusal where
  /-- Raised by an arm of `exec` for an instruction that has no meaning yet. Safe. -/
  | notModelled (mnemonic : String)
  deriving DecidableEq, Repr

/-! ### Registers of a context -/

/-- A format slot (03 R60). -/
structure FmtSlot where
  geom : BitVec 3 := 0
  bias : BitVec 8 := 0
  code : BitVec 5 := 0
  deriving DecidableEq, Repr

/-- GENKn (03 R62). -/
structure GenK where
  lfsr : Bool := false
  sgc : BitVec 4 := 0
  lfs : BitVec 16 := 1
  key : BitVec 10 := 0
  deriving DecidableEq, Repr

/-- The loop-engine state but for p88 to p95 (06 R124). -/
structure LoopState where
  act : BitVec 4 := 0
  sm1 : BitVec 3 := 0
  pipe : Bool := false
  plv : BitVec 2 := 0
  drn : Bool := false
  start : Vector BAddr 4 := Vector.replicate 4 0
  fin : Vector BAddr 4 := Vector.replicate 4 0
  deriving DecidableEq, Repr

/-- The state of a context that an abort restores (02 R44, 03 R58, 08 R181). -/
structure Regs where
  g : Vector Word 64 := Vector.replicate 64 0
  a : Vector Word 16 := Vector.replicate 16 0
  stride : Vector (BitVec 40) 16 := Vector.replicate 16 0
  p : BitVec 96 := 1
  k : Vector Mask 16 := Vector.replicate 16 0
  lc : Vector (BitVec 32) 4 := Vector.replicate 4 0
  loop : LoopState := {}
  fmt : Vector FmtSlot 32 := Vector.replicate 32 {}
  slen : BitVec 2 := 1
  rdmax : BitVec 3 := 1
  fstat : BitVec 12 := 0
  genk : Vector GenK 16 := Vector.replicate 16 {}
  tiles : Vector Tile 4 := Vector.replicate 4 0
  cur : Vector (BitVec 17) 4 := Vector.replicate 4 0
  deriving DecidableEq, Repr

/-- A stream register (03 R50, R56). -/
structure SVal where
  data : SWord := 0
  cls : BitVec 8 := 0
  len : BitVec 2 := 1
  deriving DecidableEq, Repr

/-- The privileged registers of a context (17 R311, 18 R333, 19 R338). -/
structure SysRegs where
  pl : Bool := false
  mowned : Bool := false
  dbg : Bool := false
  tcause : Word := 0
  tepc : BAddr := 0
  tbun : BAddr := 0
  tval : Word := 0
  tvecEn : Bool := false
  tvecBase : BAddr := 0
  tscr : Vector Word 4 := Vector.replicate 4 0
  flatb : BitVec 57 := 0
  flats : BitVec 40 := 0
  msave : BitVec 57 := 0
  ctxb : BitVec 57 := 0
  pre : Bool := false
  quar : Bool := false
  wdog : Bool := false
  cperr : BitVec 24 := 0
  duty : BitVec 5 := 16
  troot : Word := 0
  deriving DecidableEq, Repr

/-- The read-only user control registers that a pickup sets (03 R58, R59, R64). -/
structure TaskRegs where
  vcore : BitVec 16 := 0
  gsize : BitVec 16 := 0
  taskid : Word := 0
  lbp : BitVec 57 := 0
  spbase : BitVec 11 := 0
  spsize : BitVec 12 := 0
  spovf : BitVec 57 := 0
  deriving DecidableEq, Repr

/-! ### Results in flight -/

/-- One byte of a load: where it lies, once read what it is, and the bits that the open store-buffer line supplies
(09 R190). -/
structure PByte where
  pa : Nat
  val : Option Byte
  own : Byte := 0
  ownMask : Byte := 0
  deriving DecidableEq, Repr

/-- How a load delivers an element (04 R81): its bytes, the half it takes, its format and its block shift. -/
structure LoadElt where
  lane : Nat
  bytes : List PByte
  hi : Bool
  fmt : FmtSlot
  shift : Option PByte
  deriving DecidableEq, Repr

/-- A register result whose latency runs (03 R52, 05 R100). -/
inductive Res where
  | g (r : GReg) (v : Word)
  | p (r : PReg) (b : Bool)
  | k (r : KReg) (m : Mask)
  | v (r : VReg) (lanes : Mask) (d : VWord)
  | a (r : AReg) (val : Word)
  | stride (r : AReg) (st : BitVec 40)
  | s (r : SReg) (val : SVal)
  | gen (n : BitVec 4) (val : GenK)
  | creg (num : BitVec 8) (val : Word)
  | sreg (num : BitVec 10) (val : Word)
  | loadG (r : GReg) (bytes : List PByte) (sx : Bool)
  | loadV (r : VReg) (elts : List LoadElt)
  deriving DecidableEq, Repr

/-- A result in flight: the cc left, and whether it counts in NL (03 R57). -/
structure InFlight where
  left : Nat
  slot : Slot
  nl : Bool
  res : Res
  deriving DecidableEq, Repr

/-! ### Segment, store buffer, repeat group -/

/-- A line of the segment store buffer (09 R189): a mask of 256 units of 4 bits. -/
structure SbLine where
  id : Nat
  line : Nat
  mask : BitVec 256
  data : LineData
  committed : Bool
  coh : Bool
  tensor : BitVec 24
  va : Word
  draining : Bool := false
  /-- OWN: the units of each store with its operation number, oldest first, which order the line among the context's own
  accesses (09 R192). -/
  ords : List (Nat × BitVec 256) := []
  deriving DecidableEq, Repr

/-- The operations that are performed at a home die without being device events of their own (10 R216, R219, 12 R247). -/
inductive HomeOp where
  | tnew (gd : GReg) (card : List Word) (slot : FmtSlot) (rmax : BitVec 3) (root : Word)
  | kvnew (gd : GReg) (card : List Word) (slot : FmtSlot) (root : Word)
  | tfree (id : BitVec 24)
  | tpin (id : BitVec 24)
  | tunpin (id : BitVec 24)
  | tlock (base len : Nat)
  | tunlock (base : Nat)
  | bari (pd : PReg) (e : BitVec 7) (n : BitVec 11)
  | bfree (bar : BitVec 11)
  | tuse (id : BitVec 24) (i : BitVec 32)
  | thint (id : BitVec 24) (hint : BitVec 3)
  | tfetch (id : BitVec 24) (pool : Bool) (rdmax : BitVec 3)
  | kvappRead (id : BitVec 24) (tag : BitVec 3) (pos n : Nat)
  | kvapp (id : BitVec 24) (tag : BitVec 3) (data : List Byte)
  | kvret (id : BitVec 24) (mask : BitVec 8) (limit : BitVec 32)
  | tinfo (gd : GReg) (id : BitVec 24) (sel : TinfoSel)
  | kvpos (gd : GReg) (id : BitVec 24) (pos : BitVec 32) (sel : KvposSel)
  | kvinfo (gd : GReg) (id : BitVec 24) (sel : KvinfoSel)
  | acq (scope : Scope) (va pa : Nat)
  deriving DecidableEq, Repr

/-- What the agenda and the links carry: a device event, an operation of a context at its home die, bit errors that strike
a stored block (20 R357), or the progress of a host function's accesses (21 R391). -/
inductive Act where
  | ev (e : Event)
  | op (x : CtxId) (id : Nat) (slot : Slot) (bundle : BAddr) (o : HomeOp)
  | bitErrors (block : Nat) (bits : List Nat)
  /-- A copy block lands n dc later than its slot would have it: a hot channel, a lane recovery or a link replay (20 R354). -/
  | slow (id b n : Nat)
  /-- A status word that MSTEP has sent through the engine port (08 R178). -/
  | w0 (x : CtxId) (id bank row : Nat) (w : Word)
  /-- The oldest access that a host function has posted goes on. -/
  | hostNext (func : BitVec 2)
  /-- A read or a write of block b of a job fails at the CXL port (21 R392). -/
  | cxlFailed (id b : Nat) (write : Bool)
  /-- The 256 bytes of a flit as they arrive on a module (21 R377, R378). -/
  | flit (src dst : BitVec 2) (m : BitVec 3) (bytes : List Byte)
  deriving DecidableEq, Repr

/-- An act that leaves the core when its segment commits (14 R278). -/
inductive Staged where
  /-- An act with its NS count. -/
  | act (id : Nat) (i : Act)
  /-- An act that first waits for the counted operations `waits` (10 R217, R222, 06 R129). -/
  | after (id : Nat) (i : Act)
  | cancelJobs (tag : BitVec 8)
  /-- An act that freezes the context from the commit until its reply (09 R197, 12 R247, 10 R216). -/
  | call (id : Nat) (i : Act)
  /-- An act performed at the commit itself (10 R219). -/
  | now (i : Act)
  deriving DecidableEq, Repr

/-- What the hazard detector of debug mode watches (14 R285): a register, or 64 bytes of one scratchpad row in one bank. -/
inductive HazardLoc where
  | g (r : GReg) | p (r : PReg) | k (r : KReg) | v (r : VReg) | a (r : AReg) | s (r : SReg) | gen (n : BitVec 4)
  | row (unit : Nat)
  /-- What a macro itself writes in a unit of its descriptor row: W0, or the MISS words. -/
  | status (unit : Nat)
  deriving DecidableEq, Repr

/-- The open segment (02 R42-R45). -/
structure Seg where
  entry : BAddr := 0
  snap : Regs := {}
  /-- An uncorrectable error was consumed since the entry (14 R283). -/
  uncorrectable : Bool := false
  /-- The tensors that engine work of the segment has written or is to write (14 R283). -/
  outs : List (BitVec 24) := []
  /-- Debug mode's sets: what the segment read before it wrote it, and what it wrote (02 R45, 14 R285). -/
  rd : List HazardLoc := []
  wr : List HazardLoc := []
  staged : List Staged := []
  deriving DecidableEq, Repr

/-- A repeat group in progress (05 R97). -/
structure Group where
  head : BAddr
  lb : Nat
  n : Nat
  pass : Nat
  pos : Nat
  buf : List (BitVec 512)
  deriving DecidableEq, Repr

/-! ### KV sequences -/

/-- OWN: where a record lies: its bytes, the system page that maps them where a root has one, with that root and its die, and its
image as record and bytes last agreed (02 R27, 12 R244, R256). -/
structure RecPlace where
  /-- None while its die has no frame for it. -/
  pa : Option Nat
  va : Option Nat
  root : Word
  die : BitVec 2
  img : Nat := 0
  deriving DecidableEq, Repr

/-- A page entry of a KV sequence (12 R257). -/
structure KvPage where
  va : Nat
  ret : Bool
  tag : BitVec 3
  nocc : Nat
  closed : Bool
  ctier : BitVec 3
  firstpos : Nat
  tier : BitVec 4
  frames : List (Nat × Nat)
  /-- OWN: the HBM frames of its copy while it is in the pool (20 R371). -/
  lower : List (Nat × Nat) := []
  cdata : List Byte
  /-- OWN: as `Tensor.cpois`. -/
  cpois : List Nat := []
  moving : Option (BitVec 3 × BitVec 3)
  refill : Bool
  /-- The cores whose MATTN asked for the page, with their descriptor rows (08 R176). -/
  want : List (BitVec 8 × Nat × Nat)
  /-- OWN: as `Tensor.tried`. -/
  tried : Option Nat := none
  deriving DecidableEq, Repr

/-- A KV sequence record (12 R256). -/
structure KvSeq where
  id : BitVec 24
  home : BitVec 2
  heads : Nat
  dimc : BitVec 2
  code : BitVec 5
  bias : BitVec 8
  fmt : BitVec 5
  guard : BitVec 57
  maxpg : Nat
  nextpos : Nat
  ovf : Bool
  ptp : Nat
  /-- STATE: 1 Live; a freed sequence stays until its frames are back. -/
  inUse : Bool
  pages : List KvPage
  root : Word
  /-- OWN: where its 128-byte record lies (12 R256); the frames of its page list (12 R257). -/
  recAt : Option RecPlace := none
  listAt : List (Nat × Nat) := []
  deriving DecidableEq, Repr

/-! ### Matrix engine -/

/-- A weight slot with its contents and scale store (08 R164). -/
structure WSlot where
  src : Word := 0
  state : BitVec 2 := 0
  mode : BitVec 2 := 0
  code : BitVec 5 := 0
  bias : BitVec 8 := 0
  geom : BitVec 3 := 0
  rows : BitVec 17 := 0
  len : BitVec 17 := 0
  data : List Byte := []
  scale : List Byte := []
  elt0 : Nat := 0
  poison : Option Nat := none
  fill : Nat := 0
  born : Bool := false
  /-- A refetch waits for pages (08 R414); their recipe turned out too deep (12 R254). -/
  pend : Bool := false
  deep : Bool := false
  deriving DecidableEq, Repr

/-- What engine work is: a macro's descriptor or a carried drain (08 R173, R179). -/
inductive WorkKind where
  | mgemm | mattn
  | drain (ct : CReg) (pos : Option (Nat × Nat × BitVec 5)) (tad imm : Word) (stride : BitVec 40) (acc : Bool)
      (clamp : Option Word) (zc : Bool)
  deriving DecidableEq, Repr

/-- A carried command: what it is, and the job slot that a copy error of it names (08 R179). -/
structure Follow where
  kind : WorkKind
  slot : Nat
  deriving DecidableEq, Repr

/-- What a MATTN has read at its first array dc, for its whole run (12 R260): the sequence, the pages (index, live flag, base
address, occupancy), and those met below HBM. -/
structure AttnSeen where
  seq : KvSeq
  pages : List (Nat × Bool × Nat × Nat)
  miss : List Nat
  deriving DecidableEq, Repr

/-- The macro word (08 R177). -/
structure MacroWord where
  run : Bool := false
  op : BitVec 2 := 0
  bank : BitVec 6 := 0
  row : BitVec 11 := 0
  step : BitVec 32 := 0
  /-- OWN: the format slots that the work named here read at its issue (03 R61). -/
  fmts : Option (Vector FmtSlot 32) := none
  /-- OWN: the follow-on command that OP = 3 names (08 R177). -/
  carried : Option Follow := none
  /-- OWN: the number under which the stopped work counts among the memory-writing operations (10 R222). -/
  own : Nat := 0
  /-- OWN: what a MATTN that has begun keeps while it is stopped. -/
  seen : Option AttnSeen := none
  deriving DecidableEq, Repr

/-- A drain target once translated: the linear position, or the physical byte ranges of each row. -/
inductive RowTgt where
  | sp (bank row : Nat)
  | mem (rows : List (List (Nat × Nat))) (coh : Bool) (tensor : BitVec 24)
  deriving DecidableEq, Repr

/-- A drain in progress with its snapshot (08 R171, R172). -/
structure Drain where
  id : Nat
  tile : Tile
  tgt : RowTgt
  fmt : FmtSlot
  shifts : List (List Nat)
  acc : Bool
  clamp : Option Word
  next : Nat
  done : List Nat
  held : Bool
  born : Bool
  follow : Option Nat
  /-- A row of it read bad data (14 R282). -/
  poisoned : Bool := false
  deriving DecidableEq, Repr

/-- Where engine work stands. -/
inductive WorkPhase where
  | carried | ready | running | fetching | waiting (items : List Item) | drainWait | draining
  deriving DecidableEq, Repr

/-- Engine work of a context (08 R157, R173-R179). -/
structure Work where
  id : Nat
  kind : WorkKind
  bank : Nat
  row : Nat
  fmts : Vector FmtSlot 32
  phase : WorkPhase
  step : Nat
  born : Bool
  desc : List Word := []
  nextChunk : Nat := 0
  cancel : Bool := false
  tmiss : Bool := false
  nmiss : Nat := 0
  /-- MATTN: the pages read at the first array dc (12 R260): index, live flag, base address, occupancy. -/
  pages : List (Nat × Bool × Nat × Nat) := []
  miss : List Nat := []
  /-- MATTN: the sequence as the first array dc read it (12 R260). -/
  seq : Option KvSeq := none
  job : Option Nat := none
  /-- A CPYW brought the work (08 R179). -/
  carried : Bool := false
  /-- A recipe that the work waits for turned out too deep (12 R254). -/
  deep : Bool := false
  deriving DecidableEq, Repr

/-! ### Translation -/

/-- A translation held by a TLB or a lockable entry (19 R342, R343, R347). -/
structure TlbEntry where
  spid : BitVec 12
  page : Nat
  size : Nat
  leaf : Word
  leafPa : Nat
  deriving DecidableEq, Repr

/-- A walk-cache entry (19 R347). -/
structure WalkEntry where
  spid : BitVec 12
  level : Nat
  pfx : Nat
  entry : Word
  deriving DecidableEq, Repr

/-- A locked region of a context (12 R255). -/
structure Lock where
  base : Nat
  len : Nat
  entries : List TlbEntry
  tensors : List (BitVec 24)
  deriving DecidableEq, Repr

/-- A monitor of the task (10 R220): the physical 64-byte line it watches. -/
structure Mon where
  num : BitVec 12
  line : Nat
  pending : Bool
  spilled : Bool
  /-- OWN: rises with every arm. -/
  armed : Nat
  deriving DecidableEq, Repr

/-! ### Freezes, holds and phases -/

/-- What a freeze waits for (02 R48). -/
inductive FreezeWhy where
  | fills
  | preIssue
  | reply
  | late (job : Nat)
  /-- MOWN or MGIVE waits (17 R319, R320). -/
  | own
  deriving DecidableEq, Repr

/-- A freeze, with what the freeze watchdog would report (18 R335) and the bundle that froze. -/
structure Freeze where
  why : FreezeWhy
  slot : Slot
  tval : Word
  bundle : BAddr
  deriving DecidableEq, Repr

/-- A hold (10 R213). -/
inductive Hold where
  | wait (z : BitVec 4) (lsel : BitVec 2) (lval : BitVec 6)
  | barw (bar : BitVec 11) (gen : BitVec 16)
  | monw (mon : BitVec 12)
  | rdv (n : BitVec 11)
  | baraw (bar : BitVec 11) (gen : Option (BitVec 16))
  | fence (gd : GReg) (scope : Scope) (waits : List Nat)
  deriving DecidableEq, Repr

/-- Whether a hold stands before its bundle issues (10 R213). -/
def Hold.before : Hold → Bool
  | .wait .. | .barw .. | .monw .. | .rdv .. => true
  | .baraw .. | .fence .. => false

/-- Why a context leaves its task (02 R30, R34). -/
inductive Leave where
  | yield | miss | preempt | parkedGang
  deriving DecidableEq, Repr

/-- A privileged operation whose wait runs (17 R317-R320, R316). -/
inductive SysWait where
  | ctxsv (addr : Word)
  | ctxld (addr : Word)
  | mown
  | mgive
  | tretResume
  | tretEnd (code : BitVec 16)
  | tretYield
  | tlbi (kind : BitVec 2) (sc : Bool) (va : Word) (waits : List Nat)
  deriving DecidableEq, Repr

/-- What a context does (02 R29, R30). -/
inductive Phase where
  | idle
  | run
  | parked
  | leaving (why : Leave)
  | ending (st : BitVec 4)
  | sys (w : SysWait)
  | moving
  deriving DecidableEq, Repr

/-- Failures since the last FENCE (17 R325, 10 R223). -/
structure FAcc where
  dmask : BitVec 4 := 0
  nfail : Nat := 0
  refused : Bool := false
  lost : Bool := false
  deriving DecidableEq, Repr

/-- The machinery of a context that runs a task. -/
structure Flow where
  pc : BAddr := 0
  /-- OWN: the bundle that completed last: the one that holds an act whose cause is taken at the entry behind it (17 R322); after a
  pickup, the entry. -/
  last : BAddr := 0
  asEntry : Bool := true
  cc : Nat := 0
  stall : Nat := 0
  group : Option Group := none
  inflight : List InFlight := []
  settle : Bool := false
  freeze : Option Freeze := none
  frozen : Nat := 0
  /-- The acts whose replies a frozen context waits for; the slots that asked for them, each with the va that the freeze watchdog
  would report, and the lowest slot whose load waits for a line (18 R335). -/
  replies : List Nat := []
  asks : List (Nat × Slot × Word) := []
  missed : Option (Slot × Word) := none
  hold : Option Hold := none
  held : Nat := 0
  /-- A hold after commit that a trap taken at its entry leaves for the return (10 R213). -/
  savedHold : Option Hold := none
  /-- OWN: the number of the arrival that the last BARAW made (10 R217). -/
  arrival : Nat := 0
  phase : Phase := .idle
  /-- A cause met after commit, taken at the next entry (17 R322): code, mask, value, immediate, bundle. -/
  pendingTrap : Option (BitVec 16 × BitVec 9 × Word × BitVec 32 × BAddr) := none
  /-- Such a cause that still waits when another trap is taken at that entry: it is taken after the return (06 R131). -/
  savedTrap : Option (BitVec 16 × BitVec 9 × Word × BitVec 32 × BAddr) := none
  deriving DecidableEq, Repr

/-- The counted operations that a context has outstanding (03 R57): NS, NC and NT count these lists. -/
structure Counts where
  ns : List Nat := []
  nc : List Nat := []
  nt : List Nat := []
  /-- Memory-writing matrix operations among NT (10 R222). -/
  memDrains : List Nat := []
  /-- Committed acts that first wait for counted operations: number, act, what it waits for (10 R217, R222, 06 R129). -/
  waiting : List (Nat × Act × List Nat) := []
  deriving DecidableEq, Repr

/-- One context (01 R13). -/
structure Ctx where
  regs : Regs := {}
  v : Vector VWord 64 := Vector.replicate 64 0
  sreg : Vector SVal 16 := Vector.replicate 16 {}
  tregs : TaskRegs := {}
  sys : SysRegs := {}
  replays : BitVec 32 := 0
  flow : Flow := {}
  counts : Counts := {}
  seg : Seg := {}
  sb : List SbLine := []
  /-- Posted acts not yet performed that touch memory: id, physical address, length (09 R192). -/
  posted : List (Nat × Nat × Nat) := []
  /-- Other acts not yet performed that keep their page where it is: REL, ACQ and monitor arms (09 R191, 12 R251). -/
  pins : List (Nat × Nat × Nat) := []
  task : Option Nat := none
  wdc : Nat := 0
  wdogAt : Option Nat := none
  squashes : Nat := 0
  /-- OWN: the bundle that issues next was squashed in its last issue, so that its reissue opens a stretch window (02 R49,
  14 R276). -/
  redo : Bool := false
  /-- OWN: the context was freed while a reserving gang waited on its die, and stays free for it (18 R332). -/
  kept : Bool := false
  w : Vector WSlot 4 := Vector.replicate 4 {}
  macw : MacroWord := {}
  work : Option Work := none
  lastMacro : Option (Nat × Nat × Word) := none
  drains : List Drain := []
  locks : List Lock := []
  mons : List Mon := []
  facc : FAcc := {}
  deriving DecidableEq, Repr

/-! ### Cores -/

/-- A line held in an L1 (09 R187, 11 R234, 20 R362). -/
structure L1Line where
  line : Nat
  st : LineSt
  data : LineData
  guardTag : Nat
  poison : Bool
  deriving DecidableEq, Repr

/-- MGN, CREP and the regulator of a column (22 R398-R400, R403). -/
structure Margin where
  quar : Bool := false
  esc : BitVec 16 := 0
  cduty : BitVec 5 := 16
  vset : BitVec 5 := 6
  crep : BitVec 32 := 0
  settleUntil : Option Nat := none
  /-- OWN: the first dc in which the settle stops issue. -/
  settleFrom : Nat := 0
  thermal : BitVec 5 := 16
  windowSquashes : Nat := 0
  deriving DecidableEq, Repr

/-- One core (01 R12, R14). -/
structure Core where
  ctx0 : Ctx := {}
  ctx1 : Ctx := {}
  sp : List Host.Cell := []
  /-- Core-port stores of this dc, which every read of the dc precedes (08 R161). -/
  spLate : List Host.Cell := []
  l1 : List L1Line := []
  tlb : List TlbEntry := []
  /-- The tie pointer of the merge and the engine pointer (18 R334, 08 R157): false names ctx0. -/
  tie : Bool := false
  eng : Bool := false
  /-- The dc before a stretch window's dc 1 (02 R49); the dc of the last issue (14 R277); a latch has caught a late transition
  in this dc. -/
  window : Option Nat := none
  lastIssue : Option Nat := none
  latch : Bool := false
  margin : Margin := {}
  /-- The dc of the slots that copy blocks have taken (20 R353). -/
  lanes : List Nat := []
  /-- Lines asked for and not yet filled; those among them whose fill may be older than a write or an ACQ of the core, and
  so serves the loads that wait for it and does not stay (11 R231, R236). -/
  missing : List Nat := []
  stale : List Nat := []
  ocarina : Nat := 0
  /-- The core that this core's occupancy migrates to (18 R337). -/
  migrate : Option (BitVec 8) := none
  /-- The last dc in which a step operation used the array, its banks, and the last dc of engine work. -/
  stepDc : Option Nat := none
  arrayBanks : BitVec 64 := 0
  engDc : Option Nat := none
  drainBanks : BitVec 64 := 0
  drainDc : Option Nat := none
  deriving DecidableEq, Repr

/-! ### Copy jobs -/

/-- A stretch of bytes with its translation: offset in the job, physical address, length. -/
structure PSeg where
  off : Nat
  pa : Nat
  n : Nat
  deriving DecidableEq, Repr

/-- One side of a job (10 R201), with the translations made at issue. -/
inductive JSide where
  | sp (pos : Nat)
  | mem (tensor : BitVec 24) (va : Nat) (segs : List PSeg)
  deriving DecidableEq, Repr

/-- The kinds of jobs and fills that travel in blocks (10 R200, 08 R166). -/
inductive JKind where
  | copy | convert | gather
  | fill (ws : CReg)
  deriving DecidableEq, Repr

/-- The states of a job (10 R211); `held` waits for its segment's commit (10 R204); `cancelled` writes its completion word
(10 R210). -/
inductive JobSt where
  | held | waiting | running | finishing | cancelled
  deriving DecidableEq, Repr

/-- The completion word of a job (10 R209): its tensor, virtual address, and physical address where its page had a frame at
issue. -/
structure Cw where
  tensor : BitVec 24
  va : Nat
  pa : Option Nat
  deriving DecidableEq, Repr

/-- A copy job, or a weight fill, with its blocks (10 R200-R211). -/
structure Job where
  id : Nat
  x : CtxId
  task : Nat
  slot : Option Nat
  tblKind : BitVec 3
  kind : JKind
  st : JobSt
  born : Bool
  src : JSide
  dst : JSide
  /-- Source bytes, and the number of blocks. -/
  len : Nat
  nblocks : Nat
  /-- Blocks not yet issued; the next to be issued first. -/
  todo : List Nat
  landed : List Nat
  /-- Blocks issued whose landing is due: block, due dc. -/
  due : List (Nat × Nat)
  /-- Slotted blocks by their fixed landing dc (20 R353); blocks held for a dropped page, which take a lane once it is resident
  (20 R355). -/
  nominal : List (Nat × Nat) := []
  held : List Nat := []
  /-- Blocks read from another die, with an address of each: their data comes over the links (21 R380). -/
  far : List (Nat × Nat) := []
  /-- Its barrier has been freed: the arrival at its end is dropped (10 R219). -/
  orphan : Bool := false
  /-- A recipe that a reference of the job needs turned out too deep (12 R254). -/
  deep : Bool := false
  preds : List Nat
  rd : List (Bool × Nat × Nat)
  wr : List (Bool × Nat × Nat)
  tag : BitVec 8
  cwe : Option Cw
  bare : Option (BitVec 11)
  err : Bool
  sfmt : FmtSlot
  dfmt : FmtSlot
  sshift : List PSeg
  dshift : List PSeg
  /-- Convert: where the scale planes of the source and of the target begin. -/
  splane : Nat := 0
  dplane : Nat := 0
  /-- Convert: the elements, and the index of the first one from either tensor's base; fills: `selt` too. -/
  nelt : Nat
  selt : Nat
  delt : Nat
  idx : Nat
  rb : Nat
  sstr : Int
  follow : Option Work
  words : List Word
  /-- Bytes read and not yet written, by their offset in the target; for a fill all bytes read, those of the scale plane
  from offset 2^20 on; and the first poisoned block among them. -/
  buf : List (Nat × Byte)
  poison : Option Nat
  deriving DecidableEq, Repr

/-! ### Dies -/

/-- The state of a directory entry (20 R362, R363). -/
inductive DirSt where
  | s | e | ts | tm | th
  deriving DecidableEq, Repr

/-- A directory entry: state, sharers (exact up to four, then by groups of eight cores), the acknowledgements it
awaits, what it then does, and the requests queued behind it (20 R362-R364). -/
structure DirEntry where
  line : Nat
  st : DirSt
  sharers : List (BitVec 8)
  groups : Option (BitVec 32)
  awaiting : List (BitVec 8)
  act : Option Act
  queue : List Act
  evict : Bool := false
  deriving DecidableEq, Repr

/-- A command of a SPAWN FIFO (18 R329). -/
structure SpawnCmd where
  lba : BitVec 57
  dbg : Bool
  cookie : Word
  x : CtxId
  id : Nat
  /-- The ring commands that came before it: RPROD as made visible when it entered (18 R330). -/
  ringBefore : BitVec 16
  deriving DecidableEq, Repr

/-- The thermal registers of a die (22 R401). -/
structure Dthm where
  tsram : BitVec 8 := 0
  tcomp : BitVec 8 := 0
  tpwr : BitVec 8 := 0
  dduty : BitVec 5 := 16
  table : BitVec 2 := 0
  deriving DecidableEq, Repr

/-- The event counters of a die (20 R366, R367, 21 R391). -/
structure Counters where
  eccc : BitVec 32 := 0
  eccu : BitVec 32 := 0
  deadrd : BitVec 32 := 0
  deadwr : BitVec 32 := 0
  dirovf : BitVec 32 := 0
  hostref : BitVec 32 := 0
  rplog : BitVec 32 := 0
  discards : Nat := 0
  deriving DecidableEq, Repr

/-- A black-box event of the dc in progress (22 R406). -/
structure BbEvent where
  typ : BitVec 8
  core : BitVec 8
  ctx : BitVec 8
  dlev : Bool
  a : Word
  b : Word
  deriving DecidableEq, Repr

/-- The cost registers (20 R367). -/
structure Costs where
  kspill : Word := 0
  kzip : Word := 0
  krefill : Word := 0
  krecomp : BitVec 32 := 0
  kvdist : BitVec 32 := 0
  deriving DecidableEq, Repr

/-- One die. -/
structure Die where
  qroot : Vector Word 16 := Vector.replicate 16 0
  qdbase : BitVec 57 := 0
  fifo : Vector (List SpawnCmd) 16 := Vector.replicate 16 []
  /-- RPROD as the last doorbell made it visible (18 R330). -/
  visible : Vector (BitVec 16) 16 := Vector.replicate 16 0
  /-- RCONS of each queue, as the dispatcher keeps it. -/
  rcons : Vector (BitVec 16) 16 := Vector.replicate 16 0
  /-- CPROD of each queue: completion entries posted. -/
  cprod : Vector (BitVec 16) 16 := Vector.replicate 16 0
  /-- Per queue: the dc of its last doorbell, and what was visible before that dc. -/
  bell : Vector (Nat × BitVec 16) 16 := Vector.replicate 16 (0, 0)
  lastServed : Vector (BitVec 4) 4 := Vector.replicate 4 15
  lidCount : BitVec 22 := 0
  lastCmd : Option Nat := none
  /-- SPAWN commands waiting for a free FIFO entry (18 R329). -/
  spawnWait : List (BitVec 4 × SpawnCmd) := []
  l2tlb : List TlbEntry := []
  walk : List WalkEntry := []
  dir : List DirEntry := []
  ctr : Counters := {}
  costs : Costs := {}
  dthm : Dthm := {}
  duty : BitVec 5 := 16
  bbNext : BitVec 12 := 0
  bbWraps : BitVec 32 := 0
  bbBuf : List BbEvent := []
  repairLog : List Nat := []
  rowErrs : List Nat := []
  linkVec : BitVec 6 := 0x3F
  linkVer : BitVec 16 := 0
  /-- Channels, and rows that firmware marked unusable, whose frames Bassoon does not hand out (22 R408, R409); channel
  pairs with a lend under way. -/
  withheld : List Nat := []
  badRows : List Nat := []
  lend : List (BitVec 5) := []
  /-- The SRAM layer has shut down (20 R374): no access reaches the die's pool. -/
  sramDown : Bool := false
  deriving DecidableEq, Repr

/-! ### Memory records -/

/-- A tensor record (12 R244). -/
structure Tensor where
  id : BitVec 24
  home : BitVec 2
  st : BitVec 4
  dirty : Bool
  size : Nat
  fmt : BitVec 5
  geom : BitVec 3
  pin : BitVec 8
  lock : Nat
  base : Nat
  guard : BitVec 57
  ulp : BitVec 57
  ulen : Nat
  cur : Nat
  nud : BitVec 32
  rcp : BAddr
  rdep : Nat
  rmax : BitVec 3
  hint : BitVec 3
  rcost : BitVec 32
  rarg : BitVec 57
  rin : List (BitVec 24)
  csize : Nat
  ctier : BitVec 3
  wcnt : Nat
  /-- OWN: its frames in the tier that holds it, its HBM frames while it is in the pool, the root that maps it. -/
  frames : List (Nat × Nat)
  lower : List (Nat × Nat)
  cdata : List Byte
  alloc : Nat
  root : Word
  moving : Option (BitVec 3 × BitVec 3)
  refill : Option (BitVec 3)
  /-- OWN: its recipe has ended before it had frames (12 R253); where its 128-byte record lies (12 R244). -/
  ended : Bool := false
  recAt : Option RecPlace := none
  /-- OWN: the blocks that were poisoned when it was compressed, counted from its base (20 R358, R372). -/
  cpois : List Nat := []
  /-- OWN: what the compressor's trial came to since its bytes were last written (20 R372). -/
  tried : Option Nat := none
  deriving DecidableEq, Repr

/-! ### Work records -/

/-- What makes a task a recipe task (12 R253). -/
structure Recipe where
  tensor : BitVec 24
  level : Nat
  rdmax : BitVec 3
  /-- The key of the task that referenced the tensor; 0, which no task has, for a reference of the dispatcher. -/
  requester : Nat
  /-- RARG as it stood when the recipe was issued. -/
  arg : BitVec 57 := 0
  deriving DecidableEq, Repr

/-- A continuation record (02 R27), and what the dispatcher keeps beside it. -/
structure Task where
  key : Nat
  lbp : BitVec 57
  loopw : Word
  spovf : BitVec 57
  spb : BitVec 11
  sps : BitVec 12
  pri : BitVec 2
  state : BitVec 4
  img : Bool
  fcode : BitVec 16
  wdc : Nat
  gang : GangId
  member : BitVec 6
  die : BitVec 2
  ctxb : BitVec 57
  entry : BAddr
  tidx : Nat
  dbg : Bool
  troot : Word
  since : Nat
  effPri : BitVec 2
  recipe : Option Recipe
  waits : List Item
  /-- A cause that the task takes at its entry (12 R253, R254). -/
  lost : Option (BitVec 24)
  /-- The monitors of the task while no context holds it (10 R220); likewise failures and copy errors that arrive then
  (10 R223, 17 R313). -/
  mons : List Mon
  facc : FAcc
  cperr : BitVec 24
  /-- The task has rewound a segment after an uncorrectable error; the RDV numbers it has passed since (10 R225, 14 R282). -/
  rewound : Bool := false
  rdvPassed : List Nat := []
  /-- A cause met after commit, while no context holds the task (17 R322); PRE and WDOG that a write-back left pending
  (17 R323). -/
  pendingTrap : Option (BitVec 16 × BitVec 9 × Word × BitVec 32 × BAddr) := none
  pre : Bool := false
  wdog : Bool := false
  /-- OWN: the macro words saved in memory by the address of their save, with what the model keeps beside them (08 R177,
  03 R61). -/
  mac : List (Nat × MacroWord) := []
  /-- OWN: barriers freed while the task holds in BARAW in its image (10 R219). -/
  freed : List (BitVec 11) := []
  /-- OWN: where its 64-byte record lies (02 R27). -/
  recAt : Option RecPlace := none
  /-- OWN: RDMAX at the miss that it waits on (12 R252). -/
  missRd : BitVec 3 := 0
  deriving DecidableEq, Repr

/-- A named barrier (10 R215). -/
structure Barrier where
  num : BitVec 11
  expected : BitVec 7
  arrivals : Nat
  gen : BitVec 16
  /-- It lies in the spill table, past the 2,048 entries of its home core. -/
  spilled : Bool := false
  deriving DecidableEq, Repr

/-- A gang: its counter, its barriers, where it is (02 R33, R34, R38, 10 R215). -/
structure Gang where
  id : GangId
  die : BitVec 2
  home : BitVec 8
  left : Nat
  nfault : Nat
  placed : Bool
  leaving : Bool
  barriers : List Barrier
  members : List Nat
  /-- Its home core is settled: member 0 has been placed once (10 R215). -/
  homed : Bool := false
  deriving DecidableEq, Repr

/-- A launch (02 R35, R38, R39), with the launch block's fields as accepted. -/
structure Launch where
  lid : Nat
  die : BitVec 2
  queue : BitVec 4
  cookie : Word
  lba : BitVec 57
  dbg : Bool
  root : Word
  block : BitVec 512
  accepted : Nat
  waves : Nat
  nfault : Nat
  errMark : Bool
  nextWave : Nat
  nextGang : Nat
  /-- Per wave: gangs left, faults. -/
  waveLeft : List (Nat × Nat × Nat)
  passedAt : Option Nat
  deriving DecidableEq, Repr

/-- A unit whose counter has reached zero and whose actions run in order (02 R39). -/
structure Completing where
  unit : UnitRef
  stage : Nat
  deriving DecidableEq, Repr

/-- A die on which a gang reserves (18 R331). -/
structure Reserve where
  gang : GangId
  die : BitVec 2
  deriving DecidableEq, Repr

/-! ### Links and host -/

/-- A numbered flit with the ACK it carries, and the act it carries to its final die (21 R377). -/
structure Flit where
  seq : BitVec 12
  ack : BitVec 12
  /-- The die that built what the flit carries, and its final destination (21 R377). -/
  sdie : BitVec 2
  ddie : BitVec 2
  act : Act
  deriving DecidableEq, Repr

/-- One module of a die-pair link in one direction: sender and receiver (21 R376-R381). -/
structure Module where
  txseq : BitVec 12 := 0
  rxexp : BitVec 12 := 0
  crcw : Nat := 0
  winFlits : Nat := 0
  narrow : Bool := false
  train : Bool := false
  flitrp : BitVec 16 := 0
  /-- Unacknowledged flits, oldest first. -/
  replay : List Flit := []
  /-- Flits on the wire, oldest first. -/
  wire : List Flit := []
  ackedAt : Nat := 0
  /-- Acts that wait for the module, each with the die that built it and its destination: replay buffer full, retraining or
  draining. -/
  waiting : List (BitVec 2 × BitVec 2 × Act) := []
  /-- At the receiver: flits accepted since an ACK was last sent, and the dc of the first of them. -/
  unacked : Bool := false
  unackedAt : Nat := 0
  /-- Packets of an unknown type received and discarded (21 R378). -/
  discarded : Nat := 0
  marker : Option (BitVec 12) := none
  /-- A retrain in progress: whether it aims at 64 lanes, and its first dc. -/
  up : Bool := false
  trainAt : Nat := 0
  deriving DecidableEq, Repr

/-- One direction of a die-pair link. -/
structure Link where
  mods : Vector Module 8 := Vector.replicate 8 {}
  dead : Bool := false
  draining : Option Nat := none
  /-- The writes of copy blocks that were under way over the link when it died: job and block (21 R384). -/
  blocks : List (Nat × Nat) := []
  deriving DecidableEq, Repr

/-- The host function of a partition (21 R389-R391, 22 R412). -/
structure HostFn where
  winbase : Word := 0
  nonce : BitVec 512 := 0
  astat : Bool := false
  reporting : Bool := false
  report : List Byte := []
  /-- The nonce as the report in the making took it; accesses in the order of their delivery, the oldest in progress. -/
  repNonce : BitVec 512 := 0
  queue : List Event := []
  /-- MSI-X vectors raised, oldest first, and read completions: what the host sees. -/
  msix : List (BitVec 8) := []
  reads : List (Option (List Byte)) := []
  deriving DecidableEq, Repr

/-- An operating table (22 R402). -/
structure OpTable where
  vnom : BitVec 5
  vmax : BitVec 5
  colCap : BitVec 5
  dieCap : BitVec 5
  poolDelay : Nat
  hot : Nat
  cool : Nat
  shutdown : Nat
  costs : Costs
  deriving DecidableEq, Repr

/-- Power and bring-up of the module (22 R401, R404, R410-R412). -/
structure Power where
  on : Bool := true
  loopA : Bool := true
  loopB : Bool := true
  pendingTable : Option (BitVec 2) := none
  shutdownAt : Option Nat := none
  mode : BitVec 2 := 0
  bootStep : BitVec 4 := 8
  bootFail : Option (BitVec 8) := none
  /-- The ROM accepted the recovery image (22 R410). -/
  recovery : Bool := false
  /-- OWN: the mode that boot step 5 puts in force, and whether step 6 repairs rows (22 R411). -/
  nextMode : Option (BitVec 2) := none
  repairs : Bool := false
  deriving DecidableEq, Repr

/-! ### The bundle being issued (OWN) -/

/-- A slot's fault (17 R321, R322). -/
structure SlotFault where
  slot : Slot
  code : BitVec 16
  tval : Word
  imm : BitVec 32
  deriving DecidableEq, Repr

/-- How a bundle ends its segment or its task beyond the ordinary. -/
inductive Ending where
  | none | tend
  | trap (imm : BitVec 16)
  | sys (w : SysWait)
  deriving DecidableEq, Repr

/-- What the slots of the bundle being issued have asked for (OWN). -/
structure Iss where
  x : CtxId := ⟨0, false⟩
  slot : Slot := .S
  pc : BAddr := 0
  /-- The first operation number that the bundle itself gives out. -/
  first : Option Nat := none
  faults : List SlotFault := []
  misses : List Item := []
  block : Option (Slot × Word) := none
  hold : Option Hold := none
  target : Option BAddr := none
  cost : Nat := 0
  ends : Bool := false
  ending : Ending := .none
  /-- The bundle holds a YIELD (06 R130). -/
  yields : Bool := false
  poison : Option Nat := none
  /-- Core-port accesses so far: bank and row of the winning access (05 R103). -/
  ports : List (Nat × Nat) := []
  spWrites : List Host.Cell := []
  postHold : Option Hold := none
  /-- Acts that leave at issue and freeze the context until their reply (10 R222, 12 R247), with their slots. -/
  calls : List (Nat × Slot × Act) := []
  /-- NL, NS, NC and NT at the start of the issue cc (10 R214). -/
  counts : Nat × Nat × Nat × Nat := (0, 0, 0, 0)
  /-- The lowest slot whose load waits for a line, with the va that the freeze watchdog would report (18 R335). -/
  late : Option (Slot × Word) := none
  /-- Value-returning atomics of the bundle, with the same. -/
  asks : List (Nat × Slot × Word) := []
  /-- Acts performed in this dc once the bundle completes: writes to registers of the die (17 R315). -/
  acts : List Act := []
  /-- MOWN or MGIVE waits for engine writes (17 R319, R320). -/
  own : Bool := false
  /-- Debug mode: what each slot reads and writes, and the banks of its core-port access. -/
  rd : List (Slot × HazardLoc) := []
  wr : List (Slot × HazardLoc) := []
  banks : List (Slot × Nat) := []
  deriving DecidableEq, Repr

/-! ### The machine -/

/-- Physical memory and what the memory system keeps with it (20 R350-R361). -/
structure Mem where
  cells : List Host.Cell := []
  /-- Poison marks by 512-byte block (20 R358). -/
  poison : List Nat := []
  /-- Bit errors stored in a block that no read has found yet: block, flipped bits (20 R357). -/
  flips : List (Nat × List Nat) := []
  /-- The blocks that the memory-side caches of the HBM channels hold, and whether each differs from the stored block
  (20 R356). -/
  cache : List (Nat × Bool) := []
  /-- Frames in use: first frame, count; the HBM frames that Bassoon has freed, which make dead rows (20 R360). -/
  used : List (Nat × Nat) := []
  dead : List Nat := []
  /-- Pool frames whose data a shutdown of their SRAM layer took, until they are handed out again (20 R374). -/
  lost : List (Nat × Nat) := []
  deriving DecidableEq, Repr

/-- Records of work: tasks, gangs, launches (02). -/
structure WorkState where
  tasks : List Task := []
  gangs : List Gang := []
  launches : List Launch := []
  completing : List Completing := []
  reserves : List Reserve := []
  /-- OWN: keys of tasks are given out from 1 on. -/
  nextTask : Nat := 1
  recipeCount : Nat := 0
  /-- Gangs that return for admission: the dc of the return, and of the first offer passed over (02 R34, 18 R331). -/
  returning : List (GangId × Nat × Option Nat) := []
  deriving DecidableEq, Repr

/-- The state of the machine. -/
structure State where
  dc : Nat
  /-- OWN: cores still to act in this dc, and cores with an occupied context. -/
  turn : List (BitVec 8)
  occ : List (BitVec 8)
  /-- OWN: events from outside and scheduled device events, each with its due dc. -/
  inputs : List (Nat × Act)
  agenda : List (Nat × Act)
  /-- OWN: the enabled events that have happened in this dc. -/
  fired : List Event
  /-- OWN: the counter of free values (log 5), and the counter of operation numbers. -/
  fresh : Nat
  nextId : Nat
  iss : Iss
  cores : Vector Core 256
  dies : Vector Die 4
  links : Vector Link 16
  hosts : Vector HostFn 4
  mem : Mem
  jobs : List Job
  tensors : List Tensor
  kvs : List KvSeq
  work : WorkState
  power : Power
  tables : List OpTable
  deriving DecidableEq, Repr

/-- The shipped operating tables (22 R402); their cost registers are those of the firmware image, which spec/ does not
give: log 2. -/
def shippedTables (c : Costs) : List OpTable :=
  [⟨6, 16, 16, 16, 0, 95, 90, 105, c⟩, ⟨6, 16, 16, 8, 96, 85, 80, 100, c⟩, ⟨6, 12, 10, 12, 0, 90, 85, 105, c⟩]

/-- The machine right after reset (22 R397, R411; every register at its stated reset value, and the values of log 1 and
log 2 where spec/ states none): no task, no launch, empty queues, the boot done. -/
def State.reset : State :=
  { dc := 0, turn := [], occ := [], inputs := [], agenda := [], fired := [], fresh := 0, nextId := 0, iss := {}
    cores := Vector.replicate 256 {}, dies := Vector.replicate 4 {}, links := Vector.replicate 16 {}
    hosts := Vector.replicate 4 {}, mem := {}, jobs := [], tensors := [], kvs := [], work := {}, power := {}
    tables := shippedTables {} }

end Sys2Proof.Machine
end

