-- ==== Sys2Proof/Machine/Ops.lean ====
section
/-! DEFINITION. The named operations over the state: the one home of every register, memory and scratchpad bytes,
results in flight, segments and their abort, taking a trap and returning from one. -/

namespace Sys2Proof.Machine

abbrev Out := Host.Outcome State Fault Refusal

/-! ### Places in the state -/

def State.core (s : State) (c : BitVec 8) : Core := s.cores[c.toNat]'c.isLt
def State.modCore (s : State) (c : BitVec 8) (f : Core → Core) : State :=
  { s with cores := s.cores.set c.toNat (f (s.core c)) c.isLt }
def Core.ctx (k : Core) (b : Bool) : Ctx := if b then k.ctx1 else k.ctx0
def Core.modCtx (k : Core) (b : Bool) (f : Ctx → Ctx) : Core :=
  if b then { k with ctx1 := f k.ctx1 } else { k with ctx0 := f k.ctx0 }
def State.ctx (s : State) (x : CtxId) : Ctx := (s.core x.core).ctx x.ctx
def State.modCtx (s : State) (x : CtxId) (f : Ctx → Ctx) : State := s.modCore x.core fun k => k.modCtx x.ctx f
def State.modRegs (s : State) (x : CtxId) (f : Regs → Regs) : State :=
  s.modCtx x fun c => { c with regs := f c.regs }
def State.modFlow (s : State) (x : CtxId) (f : Flow → Flow) : State :=
  s.modCtx x fun c => { c with flow := f c.flow }
def State.die (s : State) (d : BitVec 2) : Die := s.dies[d.toNat]'d.isLt
def State.modDie (s : State) (d : BitVec 2) (f : Die → Die) : State :=
  { s with dies := s.dies.set d.toNat (f (s.die d)) d.isLt }
def linkIdx (src dst : BitVec 2) : BitVec 4 := src ++ dst
def State.link (s : State) (src dst : BitVec 2) : Link := s.links[(linkIdx src dst).toNat]'(linkIdx src dst).isLt
def State.modLink (s : State) (src dst : BitVec 2) (f : Link → Link) : State :=
  { s with links := s.links.set (linkIdx src dst).toNat (f (s.link src dst)) (linkIdx src dst).isLt }
def Link.mod (l : Link) (m : BitVec 3) : Module := l.mods[m.toNat]'m.isLt
def State.modModule (s : State) (src dst : BitVec 2) (m : BitVec 3) (f : Module → Module) : State :=
  s.modLink src dst fun l => { l with mods := l.mods.set m.toNat (f (l.mod m)) m.isLt }
def State.host (s : State) (n : BitVec 2) : HostFn := s.hosts[n.toNat]'n.isLt
def State.modHost (s : State) (n : BitVec 2) (f : HostFn → HostFn) : State :=
  { s with hosts := s.hosts.set n.toNat (f (s.host n)) n.isLt }
/-- The die of a core ID (01 R12). -/
def coreDie (c : BitVec 8) : BitVec 2 := c.extractLsb' 6 2
/-- The context whose bundle is being issued. -/
def State.cur (s : State) : Ctx := s.ctx s.iss.x
def State.modCur (s : State) (f : Ctx → Ctx) : State := s.modCtx s.iss.x f
def State.modIss (s : State) (f : Iss → Iss) : State := { s with iss := f s.iss }

/-- A free value of a kind, and the counter stepped (log 5). -/
def State.draw (s : State) (what : Config.Open) : Nat × State :=
  (Config.freeNat what s.fresh, { s with fresh := s.fresh + 1 })
/-- A number for a new operation (own). -/
def State.newId (s : State) : Nat × State := (s.nextId, { s with nextId := s.nextId + 1 })
/-- An event due at a dc. -/
def State.at_ (s : State) (due : Nat) (i : Act) : State := { s with agenda := s.agenda ++ [(due, i)] }
/-- An event with no fixed latency (20 R355): one dc or more from now. -/
def State.later (s : State) (i : Act) : State :=
  let (n, s) := s.draw .latency
  s.at_ (s.dc + 1 + n) i
/-- The list with every element that meets `p` changed by `f`. -/
def updWhere {α : Type} (p : α → Bool) (f : α → α) (l : List α) : List α := l.map fun a => if p a then f a else a

/-! ### Bytes -/

/-- A byte of a canonical list of cells: an unlisted address reads zero (log 3, log 4). -/
def cellsRead : List Host.Cell → Nat → Byte
  | [], _ => 0
  | (b, v) :: t, a => if b = a then v else cellsRead t a
/-- A byte written; a zero leaves no entry. -/
def cellsWrite : List Host.Cell → Nat → Byte → List Host.Cell
  | [], a, v => if v = 0 then [] else [(a, v)]
  | (b, w) :: t, a, v =>
    if a < b then (if v = 0 then (b, w) :: t else (a, v) :: (b, w) :: t)
    else if a = b then (if v = 0 then t else (a, v) :: t)
    else (b, w) :: cellsWrite t a v
/-- The canonical form: addresses strictly rising, and no entry equal to what an unlisted address reads as. -/
def cellsWf : List Host.Cell → Bool
  | [] => true
  | [(_, v)] => v != 0
  | (a, v) :: (b, w) :: t => v != 0 && decide (a < b) && cellsWf ((b, w) :: t)
def Memory.wf (m : Mem) : Bool := cellsWf m.cells
def cellsWriteAll (l : List Host.Cell) : List Host.Cell → List Host.Cell
  | [] => l
  | (a, v) :: t => cellsWriteAll (cellsWrite l a v) t
/-- The core-port stores of a dc stand in scratchpad once the dc is over (08 R161). -/
def Core.landSp (k : Core) : Core := { k with sp := cellsWriteAll k.sp k.spLate, spLate := [] }
def State.landSp (s : State) (c : BitVec 8) : State := if (s.core c).spLate.isEmpty then s else s.modCore c Core.landSp
/-- n bytes from address a, lowest first. -/
def cellsReadN (l : List Host.Cell) (a : Nat) : Nat → List Byte
  | 0 => []
  | n + 1 => cellsRead l a :: cellsReadN l (a + 1) n
/-- The little-endian value of bytes (00 R3). -/
def bytesToNat : List Byte → Nat
  | [] => 0
  | b :: t => b.toNat + 256 * bytesToNat t
/-- The n low bytes of a value, lowest first (00 R3). -/
def natToBytes (v : Nat) : Nat → List Byte
  | 0 => []
  | n + 1 => BitVec.ofNat 8 v :: natToBytes (v / 256) n
/-- Bytes placed at consecutive addresses. -/
def bytesAt (a : Nat) : List Byte → List Host.Cell
  | [] => []
  | b :: t => (a, b) :: bytesAt (a + 1) t

/-! ### Lanes -/

/-- n values of w bits, the first lowest. -/
def natLanes (w : Nat) (f : Nat → Nat) : Nat → Nat
  | 0 => 0
  | n + 1 => natLanes w f n + f n % 2 ^ w * 2 ^ (w * n)
/-- Lane i of a v register (03 R51). -/
def lane (v : VWord) (i : Nat) : BitVec 32 := v.extractLsb' (32 * i) 32
/-- A v register from its 64 lanes (03 R51). -/
def ofLanes (f : Nat → BitVec 32) : VWord := BitVec.ofNat 2048 (natLanes 32 (fun i => (f i).toNat) 64)
/-- The lanes of `d` where the mask is one, those of `old` elsewhere (07 R135). -/
def mergeLanes (old d : VWord) (m : Mask) : VWord := ofLanes fun i => if m.getLsbD i then lane d i else lane old i
/-- A mask from its 64 bits. -/
def ofBits (f : Nat → Bool) : Mask := BitVec.ofNat 64 (natLanes 1 (fun i => if f i then 1 else 0) 64)
/-- Element (row, col) of a tile (03 R51). -/
def Tile.elt (t : Tile) (row col : Nat) : BitVec 32 := t.extractLsb' (32 * (row * 64 + col)) 32
def tileOf (f : Nat → Nat → BitVec 32) : Tile :=
  BitVec.ofNat 131072 (natLanes 32 (fun i => (f (i / 64) (i % 64)).toNat) 4096)
/-- Lane j of a stream register (03 R51). -/
def streamLane (d : SWord) (j : Nat) : BitVec 1024 := d.extractLsb' (1024 * j) 1024
def ofStreamLanes (f : Nat → BitVec 1024) : SWord := BitVec.ofNat 65536 (natLanes 1024 (fun j => (f j).toNat) 64)

/-! ### Reading registers (03 R50, R52) -/

def Ctx.readG (c : Ctx) (r : GReg) : Word := if r = 0 then 0 else c.regs.g[r.toNat]'r.isLt
def Ctx.readA (c : Ctx) (r : AReg) : Word := c.regs.a[r.toNat]'r.isLt
def Ctx.readStride (c : Ctx) (r : AReg) : BitVec 40 := c.regs.stride[r.toNat]'r.isLt
def Ctx.readK (c : Ctx) (r : KReg) : Mask := if r = 0 then BitVec.allOnes 64 else c.regs.k[r.toNat]'r.isLt
def Ctx.readV (c : Ctx) (r : VReg) : VWord := c.v[r.toNat]'r.isLt
def Ctx.readS (c : Ctx) (r : SReg) : SVal := c.sreg[r.toNat]'r.isLt
def Ctx.readP (c : Ctx) (r : PReg) : Bool := if r = 0 then true else c.regs.p.getLsbD r.toNat
def Ctx.readTile (c : Ctx) (r : CReg) : Tile := c.regs.tiles[r.toNat]'r.isLt
def Ctx.readLc (c : Ctx) (r : CReg) : BitVec 32 := c.regs.lc[r.toNat]'r.isLt
def Ctx.readFmt (c : Ctx) (n : BitVec 5) : FmtSlot := if n = 0 then {} else c.regs.fmt[n.toNat]'n.isLt
def Ctx.readGen (c : Ctx) (n : BitVec 4) : GenK := c.regs.genk[n.toNat]'n.isLt
def Ctx.wslot (c : Ctx) (r : CReg) : WSlot := c.w[r.toNat]'r.isLt
/-- The ID and the offset of an address value (03 R50). -/
def addrId (a : Word) : BitVec 24 := a.extractLsb' 40 24
def addrOff (a : Word) : BitVec 40 := a.extractLsb' 0 40
def mkAddr (id : BitVec 24) (off : BitVec 40) : Word := id ++ off

/-- SLEN in bits (03 R62). -/
def slenBits (l : BitVec 2) : Nat := if l = 0 then 64 else if l = 1 then 256 else 1024

def GenK.toWord (k : GenK) : Word :=
  BitVec.ofNat 64 ((if k.lfsr then 2 ^ 63 else 0) + k.sgc.toNat * 2 ^ 26 + k.lfs.toNat * 2 ^ 10 + k.key.toNat)
def FmtSlot.toWord (f : FmtSlot) : Word := BitVec.ofNat 64 (f.geom.toNat * 2 ^ 16 + f.bias.toNat * 2 ^ 8 + f.code.toNat)
def FmtSlot.ofWord (w : Word) : FmtSlot := ⟨w.extractLsb' 16 3, w.extractLsb' 8 8, w.extractLsb' 0 5⟩

/-- The outstanding-operation counters (03 R57). -/
def Ctx.nl (c : Ctx) : Nat := (c.flow.inflight.filter (·.nl)).length
def Ctx.ns (c : Ctx) : Nat := c.counts.ns.length
def Ctx.nc (c : Ctx) : Nat := c.counts.nc.length
def Ctx.nt (c : Ctx) : Nat := c.counts.nt.length

/-! ### Writing registers: the end of a result's latency -/

def Regs.setG (r : Regs) (n : GReg) (v : Word) : Regs := if n = 0 then r else { r with g := r.g.set n.toNat v n.isLt }
def Regs.setK (r : Regs) (n : KReg) (v : Mask) : Regs := if n = 0 then r else { r with k := r.k.set n.toNat v n.isLt }
/-- One bit of the predicates, with no rule applied. -/
def setBit96 (p : BitVec 96) (n : Nat) (b : Bool) : BitVec 96 :=
  if b then p ||| BitVec.ofNat 96 (2 ^ n) else p &&& ~~~(BitVec.ofNat 96 (2 ^ n))
/-- A predicate write: p0 is fixed, and p88 to p95 belong to an active pipelined loop (03 R50, R55). -/
def Regs.setP (r : Regs) (n : PReg) (b : Bool) : Regs :=
  if n = 0 ∨ (r.loop.pipe = true ∧ 88 ≤ n.toNat) then r else { r with p := setBit96 r.p n.toNat b }
def Regs.setLc (r : Regs) (n : CReg) (v : BitVec 32) : Regs := { r with lc := r.lc.set n.toNat v n.isLt }
def Regs.setTile (r : Regs) (n : CReg) (t : Tile) : Regs := { r with tiles := r.tiles.set n.toNat t n.isLt }
def Regs.setCur (r : Regs) (n : CReg) (v : BitVec 17) : Regs := { r with cur := r.cur.set n.toNat v n.isLt }
def Ctx.setV (c : Ctx) (n : VReg) (v : VWord) : Ctx := { c with v := c.v.set n.toNat v n.isLt }
def Ctx.setW (c : Ctx) (n : CReg) (w : WSlot) : Ctx := { c with w := c.w.set n.toNat w n.isLt }

/-- The effect of MTC (06 R133, 03 R58-R62); a write to an RO register is ignored. -/
def Regs.writeCreg (r : Regs) (num : BitVec 8) (v : Word) : Regs :=
  let n := num.toNat
  if 0x11 ≤ n ∧ n ≤ 0x2F then
    { r with fmt := r.fmt.set ((BitVec.ofNat 5 (n - 0x10)).toNat) (FmtSlot.ofWord v) (BitVec.ofNat 5 (n - 0x10)).isLt }
  else if n = 0x30 then { r with slen := v.extractLsb' 0 2 }
  else if n = 0x31 then { r with rdmax := v.extractLsb' 0 3 }
  else if 0x40 ≤ n ∧ n ≤ 0x4F then
    let i : BitVec 4 := BitVec.ofNat 4 (n - 0x40)
    let old := r.genk[i.toNat]'i.isLt
    let lfs := v.extractLsb' 10 16
    let new : GenK := { old with lfsr := v.getLsbD 63, lfs := if lfs = 0 then 1 else lfs, key := v.extractLsb' 0 10 }
    { r with genk := r.genk.set i.toNat new i.isLt }
  else if 0x50 ≤ n ∧ n ≤ 0x53 then r.setLc (BitVec.ofNat 2 (n - 0x50)) (v.extractLsb' 0 32)
  else r

/-- The effect of MTS on a register of the context itself (17 R311-R315); others belong to the die. -/
def SysRegs.write (y : SysRegs) (num : BitVec 10) (v : Word) : SysRegs :=
  match num.toNat with
  | 0x000 => { y with dbg := v.getLsbD 2 }
  | 0x002 => { y with tepc := v.extractLsb' 0 51 }
  | 0x005 => { y with tvecEn := v.getLsbD 63, tvecBase := v.extractLsb' 0 51 }
  | 0x006 => { y with tscr := y.tscr.set 0 v }
  | 0x007 => { y with tscr := y.tscr.set 1 v }
  | 0x008 => { y with tscr := y.tscr.set 2 v }
  | 0x009 => { y with tscr := y.tscr.set 3 v }
  | 0x00A => { y with flatb := v.extractLsb' 0 57 }
  | 0x00B => { y with flats := v.extractLsb' 0 40 }
  | 0x00C => { y with msave := v.extractLsb' 0 57 }
  | _ => y

/-- The n bytes a load has gathered. -/
def PByte.byte (b : PByte) : Byte := (b.val.getD 0 &&& ~~~b.ownMask) ||| (b.own &&& b.ownMask)
def pbytesNat (l : List PByte) : Nat := bytesToNat (l.map (·.byte))

/-- A value of n bytes as a 64-bit register value, zero- or sign-extended (09 R186). -/
def extendN (v n : Nat) (sx : Bool) : Word :=
  if sx ∧ 2 ^ (8 * n - 1) ≤ v then BitVec.ofNat 64 (2 ^ 64 - 2 ^ (8 * n) + v) else BitVec.ofNat 64 v

/-- The number format of a slot, BIAS applied (03 R60). -/
def FmtSlot.num (f : FmtSlot) : NumFmt := NumFmt.ofCode f.code.toNat f.bias.toInt

/-- The width in bits of a slot's elements (04 R67). -/
def FmtSlot.width (f : FmtSlot) : Nat := f.num.width

/-- The bits of an element in its stored bytes (04 R68). -/
def eltBits (f : FmtSlot) (hi : Bool) (stored : Nat) : Nat :=
  if f.width = 4 then (if hi then stored / 16 % 16 else stored % 16) else stored % 2 ^ f.width

/-- What a load delivers into a lane (04 R81). -/
def deliver (f : FmtSlot) (bits : Nat) (shift : Int) : BitVec 32 :=
  if f.num.isInt ∧ f.geom = 0 then
    (if f.num.kind = .sint ∧ 2 ^ (f.width - 1) ≤ bits then BitVec.ofNat 32 (2 ^ 32 - 2 ^ f.width + bits)
     else BitVec.ofNat 32 bits)
  else toF32 ((f.num.decode bits).scale shift)

def byteInt (b : Byte) : Int := b.toInt

def LoadElt.value (e : LoadElt) : BitVec 32 :=
  deliver e.fmt (eltBits e.fmt e.hi (pbytesNat e.bytes))
    (match e.shift with
     | none => 0
     | some p => byteInt p.byte)

/-- The lanes of a vector load, and which they are. -/
def eltsMask (es : List LoadElt) : Mask := ofBits fun i => es.any fun e => e.lane == i
def eltsData (es : List LoadElt) : VWord :=
  ofLanes fun i => ((es.find? fun e => e.lane == i).map (·.value)).getD 0

/-- A result lands in its register (03 R50-R56). -/
def Ctx.land (c : Ctx) (r : Res) : Ctx :=
  match r with
  | .g n v => { c with regs := c.regs.setG n v }
  | .p n b => { c with regs := c.regs.setP n b }
  | .k n m => { c with regs := c.regs.setK n m }
  | .v n m d => c.setV n (mergeLanes (c.readV n) d m)
  | .a n v => { c with regs := { c.regs with a := c.regs.a.set n.toNat v n.isLt } }
  | .stride n st => { c with regs := { c.regs with stride := c.regs.stride.set n.toNat st n.isLt } }
  | .s n v => { c with sreg := c.sreg.set n.toNat v n.isLt }
  | .gen n k => { c with regs := { c.regs with genk := c.regs.genk.set n.toNat k n.isLt } }
  | .creg num v => { c with regs := c.regs.writeCreg num v }
  | .sreg num v => { c with sys := c.sys.write num v }
  | .loadG n bs sx => { c with regs := c.regs.setG n (extendN (pbytesNat bs) bs.length sx) }
  | .loadV n es => c.setV n (mergeLanes (c.readV n) (eltsData es) (eltsMask es))

/-- A result of the slot being issued, readable `lat` cc after this one (05 R100). -/
def Ctx.post (c : Ctx) (sl : Slot) (lat : Nat) (r : Res) : Ctx :=
  { c with flow := { c.flow with inflight := c.flow.inflight ++ [⟨lat, sl, false, r⟩] } }
def State.post (s : State) (lat : Nat) (r : Res) : State := s.modCur fun c => c.post s.iss.slot lat r
/-- A load's result, counted in NL until it lands (03 R57). -/
def State.postLoad (s : State) (lat : Nat) (r : Res) : State :=
  s.modCur fun c => { c with flow := { c.flow with inflight := c.flow.inflight ++ [⟨lat, s.iss.slot, true, r⟩] } }

/-! ### What a slot asks of the bundle -/

/-- A fault of the slot being issued: its cause, TVAL and IMM (17 R321). -/
def State.raise (s : State) (code : BitVec 16) (tval : Word) (imm : BitVec 32 := 0) : State :=
  s.modIss fun i => { i with faults := i.faults ++ [⟨i.slot, code, tval, imm⟩] }
/-- The bundle cannot issue yet: its context is frozen (02 R48). -/
def State.blockOn (s : State) (tval : Word) : State :=
  s.modIss fun i => { i with block := i.block <|> some (i.slot, tval) }
/-- A residency miss (09 R184 check 8). -/
def State.missOn (s : State) (it : Item) : State := s.modIss fun i => { i with misses := i.misses ++ [it] }
/-- The bundle holds before it issues (10 R213). -/
def State.holdOn (s : State) (h : Hold) : State := s.modIss fun i => { i with hold := some h }
/-- The bundle ends its segment (05 R87). -/
def State.endsSeg (s : State) : State := s.modIss fun i => { i with ends := true }
/-- An act held with the segment until it commits. -/
def State.stage (s : State) (a : Staged) : State :=
  s.modCur fun c => { c with seg := { c.seg with staged := c.seg.staged ++ [a] } }

/-! ### Records -/

def State.task? (s : State) (k : Nat) : Option Task := s.work.tasks.find? fun t => t.key == k
def State.modTask (s : State) (k : Nat) (f : Task → Task) : State :=
  { s with work := { s.work with tasks := updWhere (fun t => t.key == k) f s.work.tasks } }
def State.gang? (s : State) (g : GangId) : Option Gang := s.work.gangs.find? fun q => q.id == g
def State.modGang (s : State) (g : GangId) (f : Gang → Gang) : State :=
  { s with work := { s.work with gangs := updWhere (fun q => q.id == g) f s.work.gangs } }
def State.launch? (s : State) (lid : Nat) : Option Launch := s.work.launches.find? fun l => l.lid == lid
def State.modLaunch (s : State) (lid : Nat) (f : Launch → Launch) : State :=
  { s with work := { s.work with launches := updWhere (fun l => l.lid == lid) f s.work.launches } }
def State.tensor? (s : State) (id : BitVec 24) : Option Tensor := s.tensors.find? fun t => t.id == id
def State.modTensor (s : State) (id : BitVec 24) (f : Tensor → Tensor) : State :=
  { s with tensors := updWhere (fun t => t.id == id) f s.tensors }
def State.kv? (s : State) (id : BitVec 24) : Option KvSeq := s.kvs.find? fun t => t.id == id
def State.modKv (s : State) (id : BitVec 24) (f : KvSeq → KvSeq) : State :=
  { s with kvs := updWhere (fun t => t.id == id) f s.kvs }
def State.job? (s : State) (id : Nat) : Option Job := s.jobs.find? fun j => j.id == id
def State.modJob (s : State) (id : Nat) (f : Job → Job) : State :=
  { s with jobs := updWhere (fun j => j.id == id) f s.jobs }
/-- The record of the task that a context runs. -/
def State.taskOf (s : State) (x : CtxId) : Option Task := (s.ctx x).task.bind s.task?
/-- The record of the task that a context runs, changed. -/
def State.modOwnTask (s : State) (x : CtxId) (f : Task → Task) : State :=
  match (s.ctx x).task with
  | some k => s.modTask k f
  | none => s
/-- The gang of the task that a context runs. -/
def State.gangOf (s : State) (x : CtxId) : Option Gang := (s.taskOf x).bind fun t => s.gang? t.gang
/-- The gang ID of the task that a context runs. -/
def State.gangIdOf (s : State) (x : CtxId) : GangId := ((s.taskOf x).map (·.gang)).getD ⟨0, 0, 0⟩

/-- A barrier of a gang; none where it is free (10 R215). -/
def State.barrier? (s : State) (g : GangId) (bar : BitVec 11) : Option Barrier :=
  (s.gang? g).bind fun q => q.barriers.find? fun b => b.num == bar
def State.modBarrier (s : State) (g : GangId) (bar : BitVec 11) (f : Barrier → Barrier) : State :=
  s.modGang g fun q => { q with barriers := updWhere (fun b => b.num == bar) f q.barriers }
/-- The entries that the barriers homed on a core take of its 2,048 (10 R215). -/
def State.barrierEntries (s : State) (core : BitVec 8) : Nat :=
  ((s.work.gangs.filter fun q => q.home == core).map fun q => (q.barriers.filter fun b => !b.spilled).length).foldl (· + ·) 0
/-- An access to a barrier: one to the spill table costs 180 dc more (10 R215). -/
def State.toBarrier (s : State) (g : GangId) (bar : BitVec 11) (i : Act) : State :=
  let more := if (s.barrier? g bar).any (·.spilled) then 180 else 0
  let (n, s) := s.draw .latency
  s.at_ (s.dc + 1 + n + more) i

/-- The context that runs a task, searched among the occupied cores. -/
def State.ctxOfTask (s : State) (k : Nat) : Option CtxId :=
  s.occ.findSome? fun c =>
    if (s.ctx ⟨c, false⟩).task = some k then some ⟨c, false⟩
    else if (s.ctx ⟨c, true⟩).task = some k then some ⟨c, true⟩ else none

/-! ### Requests (17 R313, 06 R127) -/

/-- A request arrives; while a level is active it sets DRN (06 R127). -/
def State.request (s : State) (x : CtxId) (f : SysRegs → SysRegs) : State :=
  s.modCtx x fun c => { c with
    sys := f c.sys
    regs := if c.regs.loop.act != 0 then
        { c.regs with loop := { c.regs.loop with drn := true } } else c.regs }

/-! ### Counts -/

def Ctx.addNs (c : Ctx) (id : Nat) : Ctx := { c with counts := { c.counts with ns := c.counts.ns ++ [id] } }
def Ctx.addNt (c : Ctx) (id : Nat) : Ctx := { c with counts := { c.counts with nt := c.counts.nt ++ [id] } }
def Ctx.addNc (c : Ctx) (id : Nat) : Ctx := { c with counts := { c.counts with nc := c.counts.nc ++ [id] } }
/-- An operation completes: it leaves the counter it counts in (03 R57). -/
def Ctx.done (c : Ctx) (id : Nat) : Ctx :=
  { c with
    counts := { c.counts with ns := c.counts.ns.filter (· != id), nc := c.counts.nc.filter (· != id)
                              nt := c.counts.nt.filter (· != id), memDrains := c.counts.memDrains.filter (· != id) }
    posted := c.posted.filter (·.1 != id), pins := c.pins.filter (·.1 != id) }
/-- Whether an act of a context that touches memory is still to be performed: one that has been counted as failed never is
(11 R239). -/
def Ctx.owed (c : Ctx) (id : Nat) : Bool := c.posted.any (·.1 == id) || c.pins.any (·.1 == id)
/-- The SPAWNs of a context among its counted operations: no release waits for them (10 R222). -/
def State.spawnIds (s : State) (x : CtxId) : List Nat :=
  ((s.ctx x).counts.waiting.filterMap fun w =>
    match w.2.1 with
    | .ev (.spawnPost _ id _ _ _ _) => some id
    | _ => none)
  ++ (s.agenda.filterMap fun p =>
    match p.2 with
    | .ev (.spawnPost y id _ _ _ _) => if y = x then some id else none
    | _ => none)
  ++ s.dies.toList.flatMap fun d => d.spawnWait.filterMap fun p => if p.2.x = x then some p.2.id else none
/-- The operations that REL, BARA and FENCE wait for (10 R222): stores, posted atomics, arrivals, memory-target jobs and
memory-writing matrix operations that the context has counted. -/
def State.releaseWaits (s : State) (x : CtxId) : List Nat :=
  let c := s.ctx x
  let sp := s.spawnIds x
  (c.counts.ns.filter fun id => !sp.contains id) ++ c.counts.memDrains ++
    (c.counts.nc.filter fun id =>
      match s.job? id with
      | some j => (match j.dst with | .mem .. => true | .sp _ => false)
      | none => false)
/-- Whether none of the operations is outstanding any more; a matrix operation counts as long as it may write memory. -/
def State.allDone (s : State) (x : CtxId) (ids : List Nat) : Bool :=
  let c := s.ctx x
  ids.all fun id => !(c.counts.ns.contains id || c.counts.nc.contains id || c.counts.memDrains.contains id)

/-! ### The black-box record (22 R405-R407) -/

/-- An event of this dc, kept until the dc ends so that entries stand in order of CORE. -/
def State.bbLog (s : State) (d : BitVec 2) (typ : BitVec 8) (core : BitVec 8) (cx : BitVec 8) (dlev : Bool) (a b : Word) :
    State :=
  s.modDie d fun e => { e with bbBuf := e.bbBuf ++ [⟨typ, core, cx, dlev, a, b⟩] }
def State.bbDie (s : State) (d : BitVec 2) (typ : BitVec 8) (a b : Word) : State := s.bbLog d typ 0 0xFF true a b
def State.bbCore (s : State) (c : BitVec 8) (typ : BitVec 8) (a b : Word) : State :=
  s.bbLog (coreDie c) typ c 0xFF false a b
def State.bbCtx (s : State) (x : CtxId) (typ : BitVec 8) (a b : Word) : State :=
  s.bbLog (coreDie x.core) typ x.core (if x.ctx then 1 else 0) false a b
/-- The first entry's address in a die's ring. -/
def bbBase (d : BitVec 2) : Nat := 2 ^ 39 + d.toNat * 2 ^ 30 + 2 ^ 30 - 2 ^ 17
def BbEvent.toNat (e : BbEvent) (time : Nat) : Nat :=
  time % 2 ^ 64 * 2 ^ 192 + e.typ.toNat * 2 ^ 184 + e.core.toNat * 2 ^ 176 + e.ctx.toNat * 2 ^ 168
    + (if e.dlev then 2 ^ 167 else 0) + e.a.toNat * 2 ^ 64 + e.b.toNat
/-- One entry written whole at NEXT (22 R405). -/
def State.bbWrite (s : State) (d : BitVec 2) (e : BbEvent) : State :=
  let n := (s.die d).bbNext
  let s := { s with mem := { s.mem with
    cells := cellsWriteAll s.mem.cells (bytesAt (bbBase d + 32 * n.toNat) (natToBytes (e.toNat s.dc) 32)) } }
  s.modDie d fun z => { z with
    bbNext := n + 1
    bbWraps := if n = 4095 ∧ z.bbWraps ≠ BitVec.allOnes 32 then z.bbWraps + 1 else z.bbWraps }
def bbKey (e : BbEvent) : Nat := if e.dlev then 256 else e.core.toNat
/-- Stable order of the events of one dc: by CORE, die-level events last (22 R406). -/
def bbInsert (e : BbEvent) : List BbEvent → List BbEvent
  | [] => [e]
  | f :: t => if bbKey e < bbKey f then e :: f :: t else f :: bbInsert e t
def bbSort (l : List BbEvent) : List BbEvent := l.foldl (fun acc e => bbInsert e acc) []
def State.bbFlushDie (s : State) (d : BitVec 2) : State :=
  let l := bbSort (s.die d).bbBuf
  l.foldl (fun s e => s.bbWrite d e) (s.modDie d fun z => { z with bbBuf := [] })
def State.bbFlush (s : State) : State :=
  ((s.bbFlushDie 0).bbFlushDie 1 |>.bbFlushDie 2).bbFlushDie 3

/-! ### Segments -/

/-- A segment begins at an entry: what an abort restores is kept (02 R42, R44); a re-entry after an abort keeps the mark of
a consumed error and the outputs named so far (14 R283), which the commit clears. -/
def Ctx.beginSeg (c : Ctx) (entry : BAddr) : Ctx :=
  { c with flow := { c.flow with asEntry := false }, seg := { entry := entry, snap := c.regs, uncorrectable := c.seg.uncorrectable, outs := c.seg.outs } }

/-- The entry that an abort returns to: where no bundle has issued since the last commit, the next bundle. -/
def Ctx.entryPc (c : Ctx) : BAddr := if c.flow.asEntry then c.flow.pc else c.seg.entry
/-- What an abort does to the context itself (02 R44, 08 R181). Results in flight go with their segment, those of stream operations
too, whose registers 02 R44 does not restore: it does not say whether one still lands (DESIGN CHOICE, log 140). -/
def Ctx.abort (c : Ctx) (gone : List Nat) : Ctx :=
  let keep (l : List Nat) := l.filter fun id => !gone.contains id
  { c with
    regs := if c.flow.asEntry then c.regs else c.seg.snap
    flow := { c.flow with
      pc := c.entryPc, asEntry := true, inflight := [], group := none, settle := false, freeze := none, frozen := 0
      replies := [], asks := [], missed := none, hold := none, held := 0, stall := 0 }
    sb := c.sb.filter (·.committed)
    posted := c.posted.filter fun p => !gone.contains p.1
    pins := c.pins.filter fun p => !gone.contains p.1
    counts := { c.counts with ns := keep c.counts.ns, nc := keep c.counts.nc, nt := keep c.counts.nt
                              memDrains := keep c.counts.memDrains }
    w := c.w.map fun w => if w.born then {} else w
    drains := c.drains.filter fun d => !d.born
    work := match c.work with
      | some w => if w.born then none else some w
      | none => none
    seg := { entry := c.seg.entry, snap := c.seg.snap, uncorrectable := c.seg.uncorrectable, outs := c.seg.outs } }

/-- The numbers of the operations that the open segment issued and that an abort cancels. -/
def State.abortIds (s : State) (x : CtxId) : List Nat :=
  let c := s.ctx x
  (s.jobs.filterMap fun j => if j.x = x ∧ j.born then some j.id else none)
    ++ (c.drains.filterMap fun d => if d.born then some d.id else none)
    ++ (match c.work with
        | some w => if w.born then [w.id] else []
        | none => [])
    ++ (c.seg.staged.filterMap fun a =>
        match a with
        | .act id _ | .after id _ | .call id _ => some id
        | .cancelJobs _ | .now _ => none)

/-- SEGMENT_ABORT (02 R44): the context re-enters at its segment's entry. -/
def State.abort (s : State) (x : CtxId) : State :=
  let gone := s.abortIds x
  let left := s.jobs.filter fun (j : Job) => !(j.x = x ∧ j.born)
  let s := { s with jobs := left.map fun (j : Job) => { j with preds := j.preds.filter fun p => !gone.contains p } }
  s.modCtx x fun c => c.abort gone

/-! ### Ends, traps and returns -/

/-- The context stops issuing; the task ends once its counts are zero (02 R30). -/
def State.endTask (s : State) (x : CtxId) (st : BitVec 4) (fcode : BitVec 16) (entry : Option BAddr) : State :=
  let s := match (s.ctx x).task with
    | some k => s.modTask k fun t => { t with
        fcode := if st = 5 then t.fcode else fcode, entry := entry.getD t.entry }
    | none => s
  s.modFlow x fun f => { f with
    phase := .ending st, freeze := none, frozen := 0, replies := [], asks := [], hold := none, held := 0, savedHold := none
    pendingTrap := none, savedTrap := none, group := none
    inflight := [], settle := false }

/-- The causes that never enter a handler (17 R321). -/
def hardwareCause (code : BitVec 16) : Bool := code.extractLsb' 8 4 == 7#4

/-- TAKE_TRAP (17 R323): enters the handler of the cause's class, or ends the task. A cause that waits for that entry too waits
on for the return. -/
def State.takeTrap (s : State) (x : CtxId) (code : BitVec 16) (mask : BitVec 9) (tval : Word) (imm : BitVec 32)
    (async : Bool) (resume bundle : BAddr) : State :=
  let c := s.ctx x
  if c.sys.pl then s.endTask x 6 0x0704 (some resume)
  else if hardwareCause code || !c.sys.tvecEn then s.endTask x 6 code (some resume)
  else
    s.modCtx x fun c => { c with
      sys := { c.sys with
        pl := true, tepc := resume, tbun := bundle, tval := tval
        tcause := BitVec.ofNat 64 (imm.toNat * 2 ^ 32 + (if async then 2 ^ 25 else 0) + mask.toNat * 2 ^ 16 + code.toNat) }
      flow := { c.flow with
        pc := c.sys.tvecBase + BitVec.ofNat 51 (16 * (code.extractLsb' 8 4).toNat), asEntry := true, stall := 2
        savedTrap := c.flow.pendingTrap, pendingTrap := none, freeze := none, frozen := 0, replies := [], asks := [], hold := none, held := 0
        settle := false, savedHold := c.flow.hold.bind fun h => if h.before then none else some h }
      seg := { c.seg with uncorrectable := false, outs := [] }, squashes := 0, redo := false }

/-- A synchronous cause: the segment aborts, the record's ENTRY becomes its entry (02 R44), and the trap is taken there
(17 R322). -/
def State.syncTrap (s : State) (x : CtxId) (code : BitVec 16) (mask : BitVec 9) (tval : Word) (imm : BitVec 32)
    (bundle : BAddr) : State :=
  let entry := (s.ctx x).entryPc
  ((s.abort x).modOwnTask x fun t => { t with entry := entry }).takeTrap x code mask tval imm false entry bundle

/-- A cause met after commit: it waits for the entry that follows (17 R322). Where two meet there, the lower slot gives the
cause, and the mask names both (17 R321). -/
def State.trapAtEntry (s : State) (x : CtxId) (code : BitVec 16) (sl : Slot) (tval : Word) (imm : BitVec 32)
    (bundle : BAddr) : State :=
  s.modFlow x fun f => { f with pendingTrap := some (match f.pendingTrap with
    | none => (code, sl.mask, tval, imm, bundle)
    | some (c, m, v, i, b) => if m.toNat % (sl.mask.toNat * 2) = 0 then (code, m ||| sl.mask, tval, imm, bundle) else (c, m ||| sl.mask, v, i, b)) }

/-- The return from a trap (17 R316, resume): user level, at TEPC, which is a segment entry; 2 dc. Pending requests are taken
there: `settle` makes the entry a resumption point whatever the loops. Where results of the handler are still in flight, the
entry fails the check of 05 R87. -/
def State.returnFromTrap (s : State) (x : CtxId) : State :=
  s.modCtx x fun c => { c with
    sys := { c.sys with pl := false }
    flow := { c.flow with
      pc := c.sys.tepc, asEntry := true, stall := 2, phase := .run, settle := c.flow.inflight.isEmpty, hold := c.flow.savedHold
      held := 0, savedHold := none, pendingTrap := c.flow.savedTrap, savedTrap := none } }

/-- The requests that a task takes when it leaves clear DRN, unless one more is pending (06 R127). -/
def Ctx.served (c : Ctx) (why : Leave) : Ctx :=
  match why with
  | .yield | .miss => c
  | .preempt | .parkedGang =>
    { c with regs := { c.regs with loop := { c.regs.loop with drn := c.regs.loop.drn && (c.sys.wdog || c.sys.cperr != 0) } } }
/-- A task leaves its context: a write-back follows once its counters are zero (02 R30, 03 R65). -/
def State.leave (s : State) (x : CtxId) (why : Leave) : State :=
  (s.modCtx x fun c => c.served why).modFlow x fun f => { f with phase := .leaving why, freeze := none, frozen := 0 }

/-- A slot of the bundle receives bad data: the lowest-addressed block is the one reported (14 R282, 22 R407). -/
def State.faultPoison (s : State) (pa : Nat) : State := s.modIss fun i => { i with poison := some (min (i.poison.getD pa) pa) }

end Sys2Proof.Machine
end

