-- ==== Sys2Proof/Machine/Flags.lean ====
section
/-! DEFINITION. The conditions and the scalar results: this machine keeps no flags (04 R77, 06 R113); what other
machines flag, it computes as the condition of a compare. -/

namespace Sys2Proof

/-- The conditions of CMP, CMPI, BRC and VCMP (06 R117, 07 R140). -/
def Cond.holds {w : Nat} (c : Cond) (a b : BitVec w) : Bool :=
  match c with
  | .eq => a == b
  | .ne => a != b
  | .lt => a.slt b
  | .ge => b.sle a
  | .le => a.sle b
  | .gt => b.slt a
  | .ltn => a.ult b
  | .gen => b.ule a
  | .len => a.ule b
  | .gtn => b.ult a
  | .bs => (a &&& b) != 0
  | .bc => (a &&& b) == 0

/-- The conditions of VFCMP (07 R141). -/
def FCond.holds (c : FCond) (a b : BitVec 32) : Bool :=
  let x := f32 a
  let y := f32 b
  let un := x.isNaN || y.isNaN
  match c with
  | .eq => x.eqv y
  | .ne => un || !x.eqv y
  | .lt => x.lt y
  | .ge => !un && !x.lt y
  | .le => !un && !y.lt x
  | .gt => y.lt x
  | .un => un
  | .ord => !un

/-- The other context of the core, and the die, of a context (01 R12, R13). -/
def CtxId.other (x : CtxId) : CtxId := { x with ctx := !x.ctx }
def CtxId.die (x : CtxId) : BitVec 2 := x.core.extractLsb' 6 2

/-- The MODE field of a weight slot (08 R164). -/
def MldwMode.toNat : MldwMode → Nat
  | .dense => 0
  | .pair => 1
  | .masked => 2

/-! ### Scalar results (06 R113, R114) -/

def mulHigh (a b : Word) : Word := BitVec.ofInt 64 (a.toInt * b.toInt / 2 ^ 64)
def mulHighN (a b : Word) : Word := BitVec.ofNat 64 (a.toNat * b.toNat / 2 ^ 64)
/-- Signed division, truncated toward zero; by zero all ones (06 R114). -/
def divS (a b : Word) : Word := if b = 0 then BitVec.allOnes 64 else BitVec.ofInt 64 (a.toInt.tdiv b.toInt)
def divN (a b : Word) : Word := if b = 0 then BitVec.allOnes 64 else BitVec.ofNat 64 (a.toNat / b.toNat)
def remS (a b : Word) : Word := if b = 0 then a else BitVec.ofInt 64 (a.toInt.tmod b.toInt)
def remN (a b : Word) : Word := if b = 0 then a else BitVec.ofNat 64 (a.toNat % b.toNat)
/-- The amount of a 64-bit shift: the low six bits (06 R113). -/
def amt6 (b : Word) : Nat := b.toNat % 64
def rotL (a b : Word) : Word := (a <<< amt6 b) ||| (a >>> (64 - amt6 b))
def minS (a b : Word) : Word := if a.slt b then a else b
def maxS (a b : Word) : Word := if a.slt b then b else a
def minN (a b : Word) : Word := if a.ult b then a else b
def maxN (a b : Word) : Word := if a.ult b then b else a

/-- The number of one bits among the n low bits. -/
def onesBelow (x : Nat) : Nat → Nat
  | 0 => 0
  | n + 1 => onesBelow x n + x / 2 ^ n % 2
/-- Leading zeros of a value of n bits, counted from the top. -/
def zerosAbove (x : Nat) : Nat → Nat
  | 0 => 0
  | n + 1 => if x / 2 ^ n % 2 = 1 then 0 else zerosAbove x n + 1
/-- Trailing zeros, looking at n bits from bit k upward. -/
def zerosFrom (x k : Nat) : Nat → Nat
  | 0 => 0
  | n + 1 => if x / 2 ^ k % 2 = 1 then 0 else zerosFrom x (k + 1) n + 1

end Sys2Proof
end

