-- ==== Sys2Proof/Machine/Operands.lean ====
section
/-! DEFINITION. The operand forms: lane sources, conversion formats, scratchpad positions and the core port
(07 R138-R152, 08 R162, 05 R102-R104, 03 R64). -/

namespace Sys2Proof.Machine

/-- Lane i of the third operand of a binary lane operation (07 R138, R139). -/
def Ctx.srcLane (c : Ctx) (src : VSrc) (i : Nat) : BitVec 32 :=
  match src with
  | .reg v => lane (c.readV v) i
  | .imm k => k.signExtend 32

/-- The position of VBFX and VBFI in lane i (07 R149). -/
def Ctx.posLane (c : Ctx) (p : BitPos) (i : Nat) : Nat :=
  match p with
  | .reg v => (lane (c.readV v) i).toNat % 32
  | .imm k => k.toNat

/-- The amount of VFSH in lane i (07 R149). -/
def Ctx.amtLane (c : Ctx) (p : FunAmt) (i : Nat) : Nat :=
  match p with
  | .reg v => (lane (c.readV v) i).toNat % 64
  | .imm k => k.toNat

/-- The format of a conversion operand (07 R146): a code with BIAS 0, a lane integer, or a format slot. -/
def Ctx.cvtFmt (c : Ctx) (f : CvtFmt) : NumFmt :=
  match f with
  | .code k => NumFmt.ofCode k.toNat 0
  | .i32 => .sintOf 32
  | .u32 => .uintOf 32
  | .slot n => (c.readFmt n).num

/-- The position that aN's offset names: row in [16:6], bank in [5:0]; none with a one in [39:17] (08 R162). -/
def Ctx.spOfOff (c : Ctx) (a : AReg) : Option (Nat × Nat) :=
  let off := (addrOff (c.readA a)).toNat
  if off < 2 ^ 17 then some (off % 64, off / 64) else none

/-- A scratchpad operand: bank and row (08 R162). -/
def Ctx.spPos (c : Ctx) (p : SpPos) : Option (Nat × Nat) :=
  match p with
  | .direct b r => some (b.toNat, r.toNat)
  | .indirect a => c.spOfOff a

/-- The linear position of a byte of a bank and row (10 R201). -/
def linPos (bank row byte : Nat) : Nat := bank % 64 * 64 + row * 4096 + byte
/-- The bank and the row of a linear position. -/
def posBank (p : Nat) : Nat := p / 64 % 64
def posRow (p : Nat) : Nat := p / 4096

/-! ### Operating tables (22 R402) -/

/-- The table in force on a die; with both loops lost (TABLE 3) the limits of tables 1 and 2 hold together (log 60). -/
def State.opTable (s : State) (d : BitVec 2) : OpTable :=
  let t (n : Nat) : OpTable := s.tables.getD n ⟨6, 16, 16, 16, 0, 95, 90, 105, {}⟩
  let n := (s.die d).dthm.table.toNat
  if n = 3 then
    let a := t 1
    let b := t 2
    { vnom := b.vnom, vmax := if a.vmax.ult b.vmax then a.vmax else b.vmax
      colCap := if a.colCap.ult b.colCap then a.colCap else b.colCap, dieCap := if a.dieCap.ult b.dieCap then a.dieCap else b.dieCap
      poolDelay := max a.poolDelay b.poolDelay, hot := min a.hot b.hot, cool := min a.cool b.cool
      shutdown := min a.shutdown b.shutdown, costs := b.costs }
  else t n

/-! ### Protection of rows (03 R64, 09 R184 check 6) -/

/-- The scratch claim of a launch block: first row and rows (02 R35). -/
def claimOf (b : BitVec 512) : Nat × Nat := ((b.extractLsb' 51 11).toNat, (b.extractLsb' 313 12).toNat)

/-- The scratch claim of the gang whose task a context runs. -/
def State.claim (s : State) (x : CtxId) : Option (GangId × Nat × Nat) :=
  (s.taskOf x).bind fun t => (s.launch? t.gang.lid).map fun l => (t.gang, claimOf l.block)

/-- Whether a row lies in the other context's carve-out or in a claim of another gang (03 R64). -/
def State.rowBarred (s : State) (x : CtxId) (row : Nat) : Bool :=
  let o := s.ctx x.other
  let oc := if o.task.isSome then decide (o.tregs.spbase.toNat ≤ row ∧ row < o.tregs.spbase.toNat + o.tregs.spsize.toNat)
            else false
  let cl := match s.claim x.other with
    | some (g, b, n) => g != s.gangIdOf x && decide (b ≤ row ∧ row < b + n)
    | none => false
  oc || cl

/-- The first barred row among n rows from `row`. -/
def State.firstBarred (s : State) (x : CtxId) (row : Nat) : Nat → Option Nat
  | 0 => none
  | n + 1 => if s.rowBarred x row then some row else s.firstBarred x (row + 1) n

/-- The fault of a scratchpad range, if any: past the last row (bound), or barred (protection). Banks are whole rows for
the check, the position reported is the first byte that fails. -/
def State.spRangeFault (s : State) (x : CtxId) (pos n : Nat) : Option (BitVec 16 × Word) :=
  if n = 0 then none
  else if 2 ^ 23 < pos + n then some (0x0003, BitVec.ofNat 64 pos)
  else
    match s.firstBarred x (posRow pos) (posRow (pos + n - 1) + 1 - posRow pos) with
    | some r => some (0x0106, BitVec.ofNat 64 (max pos (r * 4096)))
    | none => none

/-! ### The core port (05 R102-R104) -/

/-- The row that an access of this slot meets in a bank: that of the winning access of a lower slot, if there is one. -/
def Iss.portRow (i : Iss) (bank row : Nat) : Nat := ((i.ports.find? fun p => p.1 == bank).map (·.2)).getD row
/-- Whether a lower slot has won a bank. -/
def Iss.portLost (i : Iss) (bank : Nat) : Bool := i.ports.any fun p => p.1 == bank
/-- The banks of this slot's access, claimed at a row. -/
def Iss.claim (i : Iss) (banks : List Nat) (row : Nat) : Iss :=
  { i with ports := i.ports ++ ((banks.filter fun b => !i.portLost b).map fun b => (b, row)) }
/-- The same for an access that may read several rows of a bank: a bank is claimed at the first row read in it, in lane
order, else at `row` (log 39). `reads` gives the bank and row of each active lane. -/
def Iss.claimRows (i : Iss) (banks : List Nat) (row : Nat) (reads : List (Nat × Nat)) : Iss :=
  { i with ports := i.ports ++ ((banks.filter fun b => !i.portLost b).map fun b =>
      (b, ((reads.find? fun p => p.1 == b).map (·.2)).getD row)) }
/-- Banks b to b + n - 1, modulo 64. -/
def bankSet (b n : Nat) : List Nat := (List.range n).map fun i => (b + i) % 64

/-- One byte of a bank as this slot reads it. -/
def State.portByte (s : State) (bank row byte : Nat) : Byte :=
  cellsRead (s.core s.iss.x.core).sp (linPos bank (s.iss.portRow (bank % 64) row) byte)
/-- Byte q of the 256-byte operand at bank and row, across four banks (08 R162). -/
def State.portQByte (s : State) (bank row q : Nat) : Byte := s.portByte (bank + q / 64) row (q % 64)
def natOfBytes (f : Nat → Byte) : Nat → Nat
  | 0 => 0
  | n + 1 => natOfBytes f n + (f n).toNat * 2 ^ (8 * n)
/-- Lane i of the 256-byte operand at bank and row. -/
def State.portLane (s : State) (bank row i : Nat) : BitVec 32 :=
  BitVec.ofNat 32 (natOfBytes (fun j => s.portQByte bank row (4 * i + j)) 4)

/-- A byte that this slot writes at the end of the issue cc, dropped in a bank it has lost (05 R103, R104). -/
def State.portWrite (s : State) (bank row : Nat) (l : List (Nat × Byte)) : State :=
  let ok := l.filter fun p => !s.iss.portLost ((bank + p.1 / 64) % 64)
  s.modIss fun i => { i with
    spWrites := i.spWrites ++ ok.map fun p => (linPos (bank + p.1 / 64) row (p.1 % 64), p.2) }

end Sys2Proof.Machine
end

