-- ==== Sys2Proof/Machine/Links.lean ====
section
/-! DEFINITION. Where an address is homed, and how an act reaches its home: the die links (20 R350, R351,
21 R375-R387). -/

namespace Sys2Proof.Machine

/-! ### Bytes of a line -/

/-- The two 4-bit units of a byte of a line (09 R189). -/
def unitBits (m : BitVec 256) (off : Nat) : BitVec 2 := m.extractLsb' (2 * off) 2
def lineByte (d : LineData) (off : Nat) : Byte := d.extractLsb' (8 * off) 8
def setLineByte (d : LineData) (off : Nat) (b : Byte) : LineData :=
  (d &&& ~~~(BitVec.ofNat 1024 (255 * 2 ^ (8 * off)))) ||| BitVec.ofNat 1024 (b.toNat * 2 ^ (8 * off))
/-- A byte mask of two units. -/
def nibMask (u : BitVec 2) : Byte := (if u.getLsbD 0 then 0x0F else 0) ||| (if u.getLsbD 1 then 0xF0 else 0)

/-! ### Homes -/

/-- The channel of an address (20 R351). -/
def chanHash (pa : Nat) : Nat :=
  let b := pa % 2 ^ 37 / 512
  Nat.xor (Nat.xor (b % 64) (b / 2 ^ 6 % 64)) (Nat.xor (b / 2 ^ 12 % 64) (b / 2 ^ 18 % 64))
/-- The module that carries packets to an address (21 R376). -/
def moduleOf (pa : Nat) : BitVec 3 := BitVec.ofNat 3 (chanHash pa)

/-- The kinds of memory of the physical map (20 R350). -/
inductive MemKind where
  | hbm | pool | lpddr | cxl
  deriving DecidableEq, Repr

/-- What lies at a physical address: the kind and the die (20 R350); CXL hangs on die 0. -/
def memAt (pa : Nat) : Option (MemKind × BitVec 2) :=
  if pa < 2 ^ 39 then
    (if pa % 2 ^ 37 < 96 * 2 ^ 30 then some (.hbm, BitVec.ofNat 2 (pa / 2 ^ 37)) else none)
  else if pa < 2 ^ 39 + 2 ^ 32 then some (.pool, BitVec.ofNat 2 ((pa - 2 ^ 39) / 2 ^ 30))
  else if pa < 2 ^ 40 then none
  else if pa < 2 ^ 41 then some (.lpddr, BitVec.ofNat 2 ((pa - 2 ^ 40) / 2 ^ 38))
  else if 2 ^ 42 ≤ pa ∧ pa < 2 ^ 42 + min Config.cxlBytes (2 ^ 42) then some (.cxl, 0)
  else none

/-- The dies of the partition of a die (21 R387). -/
def partOf (mode : BitVec 2) (d : BitVec 2) : Nat :=
  if mode = 0 then 0 else if mode = 1 then d.toNat / 2 else d.toNat
def samePart (mode : BitVec 2) (d e : BitVec 2) : Bool := partOf mode d == partOf mode e
/-- What lies at an address as a die of a partition reaches it (21 R387); a pool that has shut down is out of reach
(20 R374). -/
def State.memFor (s : State) (d : BitVec 2) (pa : Nat) : Option (MemKind × BitVec 2) :=
  match memAt pa with
  | some (k, e) => if samePart s.power.mode d e && !(k == .pool && (s.die e).sramDown) then some (k, e) else none
  | none => none
/-- The home die of an address. -/
def homeDie (pa : Nat) : BitVec 2 := ((memAt pa).map (·.2)).getD 0

/-- The bit of a die pair in the link vector: 01, 02, 03, 12, 13, 23 (21 R382; the order is log 10). -/
def pairIdx (a b : BitVec 2) : Nat :=
  let lo := min a.toNat b.toNat
  let hi := max a.toNat b.toNat
  if lo = 0 then hi - 1 else if lo = 1 then hi + 1 else 5
/-- Whether die `at` holds the link of two dies to be live. -/
def State.linkLive (s : State) (at_ a b : BitVec 2) : Bool := (s.die at_).linkVec.getLsbD (pairIdx a b)

/-- Whether d has a live link to e: by the vector it holds, and never over a link whose death it has seen itself. -/
def State.reaches (s : State) (d e : BitVec 2) : Bool := s.linkLive d d e && !(s.link d e).dead
/-- The next hop from d to e: the direct link, or the lowest die with both links live, of the same partition
(21 R385). -/
def State.route (s : State) (d e : BitVec 2) : Option (BitVec 2) :=
  if s.reaches d e then some e
  else if !samePart s.power.mode d e then none
  else
    [0#2, 1#2, 2#2, 3#2].find? fun f => f != d && f != e && samePart s.power.mode d f && s.reaches d f && s.linkLive d f e

/-! ### Failed acts (10 R223, 21 R384, R385) -/

/-- One failure more since the last FENCE. -/
def FAcc.add (f : FAcc) (d : BitVec 2) (refused : Bool) : FAcc :=
  { dmask := f.dmask ||| BitVec.ofNat 4 (2 ^ d.toNat), nfail := f.nfail + 1
    refused := f.refused || refused, lost := f.lost || !refused }
/-- The failure of one counted act of a context: it counts as completed (11 R239) and the next FENCE reports it. -/
def State.countFailure (s : State) (x : CtxId) (id : Nat) (d : BitVec 2) (refused : Bool) : State :=
  s.modCtx x fun c => { c.done id with facc := c.facc.add d refused }
/-- The lines of a core that wait for a line to become writable. -/
def Ctx.drainsOf (c : Ctx) (line : Nat) : List SbLine := c.sb.filter fun l => l.committed && l.draining && l.line == line
def Ctx.dropLine (c : Ctx) (id : Nat) : Ctx := { c with sb := c.sb.filter fun l => l.id != id }

/-- Every drain of a core that waits for a line fails. -/
def State.failDrains (s : State) (core : BitVec 8) (line : Nat) (d : BitVec 2) (refused : Bool) : State :=
  [false, true].foldl (fun s cx =>
    ((s.ctx ⟨core, cx⟩).drainsOf line).foldl (fun s l =>
      (s.countFailure ⟨core, cx⟩ l.id d refused).modCtx ⟨core, cx⟩ fun c => c.dropLine l.id) s) s

/-- The L1's own copy of a line. -/
def Core.l1Find (k : Core) (line : Nat) : Option L1Line := k.l1.find? fun l => l.line == line
def Core.l1Drop (k : Core) (line : Nat) : Core := { k with l1 := k.l1.filter fun l => l.line != line }
/-- An answer to the request for a line has come. -/
def Core.gotLine (k : Core) (line : Nat) : Core :=
  { k with missing := k.missing.filter (· != line), stale := k.stale.filter (· != line) }
/-- Lines on their way to the core may hold what stood at home before a write or an ACQ of the core: their fills do not stay
in the L1 (11 R231, R236). -/
def Core.staleFills (k : Core) (hit : Nat → Bool) : Core := { k with stale := k.missing.filter fun l => hit l || k.stale.contains l }

/-- A line that only one core held in M is lost: it counts there as a lost line drain (21 R384). -/
def State.loseLine (s : State) (core : BitVec 8) (d : BitVec 2) : State :=
  [false, true].foldl (fun s cx => s.modCtx ⟨core, cx⟩ fun c => { c with facc := c.facc.add d false }) s
/-- An act that will never be performed, refused by the remote side or lost on a dead link. -/
def State.failEvent (s : State) (d : BitVec 2) (refused : Bool) (i : Event) : State :=
  match i with
  | .lineDrain x id => (s.countFailure x id d refused).modCtx x fun c => c.dropLine id
  | .getm core line => s.failDrains core line d refused
  | .atomicAtHome x id _ _ _ _ _ dst =>
    -- a requester that waits for a value stays frozen and takes 0x0402 (21 R385)
    if dst.isSome then s else s.countFailure x id d refused
  | .relPerform x id _ => s.countFailure x id d refused
  | .barrierArrival _ _ (some x) id => s.countFailure x id d refused
  | .memoryDrainRow x id row =>
    (s.modCtx x fun c => { c with
      facc := c.facc.add d refused
      drains := updWhere (fun (z : Drain) => z.id == id && !z.done.contains row) (fun z => { z with done := z.done ++ [row] }) c.drains }).later (.ev i)
  | .copyBlockLand x id b =>
    let s := s.modCtx x fun c => { c with facc := c.facc.add d refused }
    s.modJob id fun j => { j with landed := j.landed ++ [b], due := j.due.filter fun p => p.1 != b }
  | .monitorArm x id _ _ => s.modCtx x fun c => c.done id
  | .gets core line _ _ => s.modCore core fun k => k.gotLine line
  | .putm core line =>
    -- the line leaves its L1 all the same; the data of one in M is lost (21 R384)
    (if ((s.core core).l1Find line).any (·.st == .m) then s.loseLine core d else s).modCore core fun k => k.l1Drop line
  | .l1Fill core line _ st _ _ =>
    let s := s.modCore core fun k => k.gotLine line
    if st = .m then s.failDrains core line d refused else s
  | .invalidation core line _ =>
    -- a sharer that is out of reach: what it alone held is lost (21 R384)
    let s := if ((s.core core).l1Find line).any (·.st == .m) then (s.loseLine core d).modCore core fun k => k.l1Drop line else s
    s.later (.ev (.invalidationAck core line none))
  | .invalidationAck core line data =>
    (if data.isSome then s.loseLine core d else s).later (.ev (.invalidationAck core line none))
  | _ => s

def State.failAct (s : State) (d : BitVec 2) (refused : Bool) (i : Act) : State :=
  match i with
  | .ev e => s.failEvent d refused e
  | .op x id _ _ (.kvappRead ..) | .op x id _ _ (.kvapp ..) | .op x id _ _ (.kvret ..) => s.countFailure x id d refused
  | .op x id _ _ (.tuse ..) | .op x id _ _ (.thint ..) | .op x id _ _ (.tfetch ..) => s.modCtx x fun c => c.done id
  | .op x id _ _ (.acq sc va _) =>
    -- in another partition it acts on the own L1 alone (11 R235); a home out of reach never replies (21 R385)
    if samePart s.power.mode x.die d then s else s.later (.ev (.replyArrival x id (.acq sc va)))
  | .op _ _ _ _ _ | .bitErrors _ _ | .slow _ _ _ | .w0 .. | .hostNext _ | .cxlFailed .. | .flit .. => s

/-! ### Sending -/

/-- The last flit that the receiver of a module accepted: what its ACKs name (21 R377). -/
def State.ackOf (s : State) (src dst : BitVec 2) (m : BitVec 3) : BitVec 12 := ((s.link src dst).mod m).rxexp - 1

/-- A flit that die `sdie` built, numbered and put on the wire, or kept waiting (21 R379, R381, R383); it carries the ACK of its
direction. -/
def State.transmit (s : State) (src dst : BitVec 2) (m : BitVec 3) (sdie ddie : BitVec 2) (i : Act) : State :=
  let l := s.link src dst
  let mo := l.mod m
  if mo.train || l.draining.isSome || decide (4095 ≤ mo.replay.length) || !mo.waiting.isEmpty then
    s.modModule src dst m fun q => { q with waiting := q.waiting ++ [(sdie, ddie, i)] }
  else
    let f : Flit := ⟨mo.txseq, s.ackOf dst src m, sdie, ddie, i⟩
    let s := if mo.replay.isEmpty then s.at_ (s.dc + 2048) (.ev (.replayTimeout src dst m)) else s
    let s := s.modModule src dst m fun q => { q with
      txseq := q.txseq + 1, replay := q.replay ++ [f], wire := q.wire ++ [f]
      ackedAt := if q.replay.isEmpty then s.dc else q.ackedAt }
    let s := s.modModule dst src m fun q => { q with unacked := false }
    s.later (.ev (.dataFlit src dst m true))

/-- Acts that waited for the module go out, in order. -/
def State.flushWaiting (s : State) (src dst : BitVec 2) (m : BitVec 3) : State :=
  let w := ((s.link src dst).mod m).waiting
  w.foldl (fun s p => s.transmit src dst m p.1 p.2.1 p.2.2) (s.modModule src dst m fun q => { q with waiting := [] })

/-- An act sent from a die to a die on a module: within the die after a free latency, else over the links; between the ends
of a link that drains it waits (21 R383). -/
def State.send (s : State) (src dst : BitVec 2) (m : BitVec 3) (i : Act) : State :=
  if src = dst then s.later i
  else if !samePart s.power.mode src dst then s.failAct dst true i
  else if (s.link src dst).draining.isSome then s.modModule src dst m fun q => { q with waiting := q.waiting ++ [(src, dst, i)] }
  else
    match s.route src dst with
    | some hop => s.transmit src hop m src dst i
    | none => s.failAct dst true i

/-- An act sent to the home of an address. -/
def State.sendHome (s : State) (src : BitVec 2) (pa : Nat) (i : Act) : State := s.send src (homeDie pa) (moduleOf pa) i

/-- A local act that keeps its order behind pending ones of its kind. -/
def State.laterAfter (s : State) (same : Act → Bool) (i : Act) : State :=
  let (n, s) := s.draw .latency
  let last := (s.agenda.filter fun p => same p.2).foldl (fun m p => max m p.1) 0
  s.at_ (max (s.dc + 1 + n) last) i

/-- A message between a home and a core about a line: the messages of one pair keep their order (21 R376). -/
def State.sendLine (s : State) (src dst : BitVec 2) (core : BitVec 8) (line : Nat) (i : Act) : State :=
  if src = dst then
    s.laterAfter (fun j =>
      match j with
      | .ev (.l1Fill c l _ _ _ _) => c == core && l == line
      | .ev (.invalidation c l _) => c == core && l == line
      | _ => false) i
  else s.send src dst (moduleOf (line * 128)) i

/-! ### Acts on their way -/

/-- The flits of a module that the receiver has not accepted (21 R379). -/
def Module.unsent (m : Module) : List Flit := m.replay.filter fun f => (f.seq - m.rxexp).ult (m.txseq - m.rxexp)
/-- The acts on their way: due, waiting for a line at a directory, or on a link. -/
def State.acts (s : State) : List Act :=
  s.agenda.map (·.2) ++ (s.dies.toList.flatMap fun z => z.dir.flatMap fun e => e.act.toList ++ e.queue)
    ++ s.links.toList.flatMap fun l => l.mods.toList.flatMap fun m => m.unsent.map (·.act) ++ m.waiting.map (·.2.2)
/-- Every act on its way changed. -/
def State.mapActs (s : State) (f : Act → Act) : State :=
  { s with
    agenda := s.agenda.map fun p => (p.1, f p.2)
    dies := s.dies.map fun (z : Die) => { z with dir := z.dir.map fun (e : DirEntry) => { e with act := e.act.map f, queue := e.queue.map f } }
    links := s.links.map fun (l : Link) => { l with mods := l.mods.map fun (m : Module) => { m with
      replay := m.replay.map fun (q : Flit) => { q with act := f q.act }, wire := m.wire.map fun (q : Flit) => { q with act := f q.act }
      waiting := m.waiting.map fun p => (p.1, p.2.1, f p.2.2) } } }

/-! ### Traffic that waits for a link -/

/-- Whether a module has lost a flit that it must send again before anything behind it arrives (21 R380). -/
def Module.behind (m : Module) : Bool :=
  match m.wire with
  | f :: _ => f.seq != m.rxexp
  | [] => !m.unsent.isEmpty
/-- Whether one direction of a module carries nothing now: it retrains, its link drains, or a resend is due. -/
def Link.stalled (l : Link) (m : BitVec 3) : Bool := l.draining.isSome || (l.mod m).train || (l.mod m).behind
/-- Whether an access of a die to an address waits for the links: both directions of its module, on each hop, and the drain of the
direct link (21 R376, R380, R381, R383). -/
def State.linkWaits (s : State) (d : BitVec 2) (pa : Nat) : Bool :=
  let e := homeDie pa
  let m := moduleOf pa
  let along (a b : BitVec 2) : Bool := (s.link a b).stalled m || (s.link b a).stalled m
  d != e && ((s.link d e).draining.isSome ||
    match s.route d e with
    | some hop => along d hop || (hop != e && along hop e)
    | none => false)
/-- Whether an access of a die to an address takes two hops (21 R385). -/
def State.detours (s : State) (d : BitVec 2) (pa : Nat) : Bool := d != homeDie pa && (s.route d (homeDie pa)).any (· != homeDie pa)

end Sys2Proof.Machine
end

