-- ==== Sys2Proof/Machine/Memory.lean ====
section
/-! DEFINITION. Physical memory as its home slices keep it: blocks with their codewords, poison, dead rows, monitors
(20 R356-R361, 09 R198, 10 R220). -/

namespace Sys2Proof.Machine

/-- The bytes of memory with no error handling: what the walker and the engines of the device read (19 R340). -/
def State.peek (s : State) (pa n : Nat) : List Byte := cellsReadN s.mem.cells pa n
def State.peekNat (s : State) (pa n : Nat) : Nat := bytesToNat (s.peek pa n)
def State.modMem (s : State) (f : Mem → Mem) : State := { s with mem := f s.mem }
def State.poke (s : State) (pa : Nat) (bs : List Byte) : State :=
  s.modMem fun m => { m with cells := cellsWriteAll m.cells (bytesAt pa bs) }

/-- A counter that saturates (20 R367). -/
def satInc (c : BitVec 32) : BitVec 32 := if c = BitVec.allOnes 32 then c else c + 1
def satAdd (c : BitVec 32) (n : Nat) : BitVec 32 := BitVec.ofNat 32 (min (2 ^ 32 - 1) (c.toNat + n))
def State.count (s : State) (d : BitVec 2) (f : Counters → Counters) : State := s.modDie d fun e => { e with ctr := f e.ctr }

/-- An uncorrectable block: marked poisoned and recorded; a second one of its HBM row logs the row (20 R358, 22 R408). -/
def State.markUncorrectable (s : State) (blk : Nat) : State :=
  let d := homeDie (blk * 512)
  let row := Config.dramRow blk
  let s := s.count d fun c => { c with eccu := satInc c.eccu }
  let s := s.modMem fun m => { m with
    poison := if m.poison.contains blk then m.poison else blk :: m.poison, flips := m.flips.filter (·.1 != blk) }
  let s := s.bbDie d 0x11 (BitVec.ofNat 64 (blk * 512)) 0
  let e := s.die d
  if ((memAt (blk * 512)).map (·.1)) ≠ some .hbm then s
  else if e.rowErrs.contains row then
    if e.repairLog.contains row ∨ 256 ≤ e.repairLog.length then s
    else
      (s.modDie d fun e => { e with repairLog := e.repairLog ++ [row], ctr := { e.ctr with rplog := satInc e.ctr.rplog } }).bbDie d 0x12 (BitVec.ofNat 64 (blk * 512))
        (BitVec.ofNat 64 (chanHash (blk * 512)))
  else s.modDie d fun e => { e with rowErrs := row :: e.rowErrs }

/-- The decoder on one block (20 R357, R358): 1 to 16 errors are corrected, 17 to 24 reported, beyond that the outcome
is open. It answers whether a correction pass was made. -/
def State.eccBlock (s : State) (blk : Nat) : Bool × State :=
  match s.mem.flips.find? fun p => p.1 == blk with
  | none => (false, s)
  | some (_, bits) =>
    let d := homeDie (blk * 512)
    let clear (s : State) : State := s.modMem fun m => { m with flips := m.flips.filter (·.1 != blk) }
    let corrected (s : State) (n : Nat) : State :=
      (s.count d fun c => { c with eccc := satInc c.eccc }).bbDie d 0x10 (BitVec.ofNat 64 (blk * 512)) (BitVec.ofNat 64 n)
    if bits.length ≤ 16 then (true, corrected (clear s) bits.length)
    else if bits.length ≤ 24 then (false, s.markUncorrectable blk)
    else
      let (w, s) := s.draw .eccBeyond
      let (v, s) := s.draw .eccData
      if w % 3 = 0 then (false, s.markUncorrectable blk)
      else
        let s := (clear s).poke (blk * 512) (natToBytes v 512)
        if w % 3 = 1 then (true, corrected s (v % 16 + 1)) else (false, s)

/-- The set of a block in the memory-side cache of its channel (20 R356): 32 sets of 16 ways, by the low bits of the block
number (log 123). -/
def mscSet (blk : Nat) : Nat × Nat := (chanHash (blk * 512) + 64 * (homeDie (blk * 512)).toNat, blk % 32)
/-- Room in a full set: a block of open choice leaves. One that differs from the stored block is written back, with a fresh
codeword (20 R356, R357). -/
def State.mscRoom (s : State) (blk : Nat) : State :=
  let set := s.mem.cache.filter fun p => mscSet p.1 == mscSet blk
  if set.length < 16 then s
  else
    let (n, s) := s.draw .mscVictim
    match set[n % set.length]? with
    | none => s
    | some v => s.modMem fun m => { m with
        cache := m.cache.filter fun p => p.1 != v.1
        flips := if v.2 then m.flips.filter fun p => p.1 != v.1 else m.flips }
/-- A block as an access at home meets it (20 R356, R358): one that its memory-side cache holds is served there; any other is
read through the decoder, unless all of it is written. It answers whether a correction pass was made. -/
def State.mscBlock (s : State) (blk : Nat) (whole write : Bool) : Bool × State :=
  let stored (s : State) : Bool × State :=
    if whole then (false, s.modMem fun m => { m with flips := m.flips.filter (·.1 != blk) }) else s.eccBlock blk
  if ((memAt (blk * 512)).map (·.1)) ≠ some .hbm then stored s
  else if s.mem.cache.any (·.1 == blk) then
    (false, if write then s.modMem fun m => { m with cache := updWhere (·.1 == blk) (fun p => (p.1, true)) m.cache } else s)
  else
    let (late, s) := if whole then (false, s) else s.eccBlock blk
    (late, (s.mscRoom blk).modMem fun m => { m with cache := (blk, write) :: m.cache })

/-- Every block of a range of addresses that holds bit errors is read, but one that its memory-side cache serves
(20 R356, R358). -/
def State.eccRange (s : State) (a n : Nat) : State :=
  (s.mem.flips.filter fun p => decide (a ≤ p.1 * 512 ∧ p.1 * 512 < a + n) && !s.mem.cache.any (·.1 == p.1)).foldl
    (fun s p => (s.eccBlock p.1).2) s

/-- The blocks that n bytes from a touch. -/
def blocksOf (a n : Nat) : List Nat := if n = 0 then [] else (List.range ((a + n - 1) / 512 + 1 - a / 512)).map (a / 512 + ·)

/-- The blocks of the HBM of a block's die that lie in its DRAM row (20 R360). -/
def rowBlocks (blk : Nat) : List Nat :=
  let d := (homeDie (blk * 512)).toNat
  ((List.range (96 * 2 ^ 30 / 512)).map (d * 2 ^ 37 / 512 + ·)).filter fun b => Config.dramRow b == Config.dramRow blk
/-- Whether the row of a block is dead: every block in it belongs to a frame that Bassoon has freed (20 R360, log 9). -/
def State.rowDead (s : State) (blk : Nat) : Bool :=
  s.mem.dead.contains (blk / 8) && (rowBlocks blk).all fun b => s.mem.dead.contains (b / 8)
/-- Whether an address lies in a dead row. -/
def State.isDead (s : State) (pa : Nat) : Bool := s.rowDead (pa / 512)

/-- A read performed at home: its bytes, the lowest poisoned block among those read, and whether a correction pass
delayed it (20 R356-R361). Blocks in dead rows read as zeros. -/
def State.homeRead (s : State) (pa n : Nat) : List Byte × Option Nat × Bool × State :=
  let blks := blocksOf pa n
  let dead := blks.filter s.rowDead
  let live := blks.filter fun b => !dead.contains b
  let s := if dead.isEmpty then s else s.count (homeDie pa) fun c => { c with deadrd := satInc c.deadrd }
  let (late, s) := live.foldl (fun (p : Bool × State) b =>
    let (c, s) := p.2.mscBlock b false false
    (p.1 || c, s)) (false, s)
  (if dead.isEmpty then s.peek pa n else (bytesAt pa (s.peek pa n)).map fun c => if dead.contains (c.1 / 512) then 0 else c.2
  , live.find? s.mem.poison.contains, late, s)

/-- The lower of two poisoned blocks (22 R407). -/
def minBlock (a b : Option Nat) : Option Nat :=
  match a, b with
  | some p, some q => some (min p q)
  | some p, none => some p
  | none, q => q

/-- A write performed at home to a watched 64-byte line gives its monitor a pending event (09 R198, 10 R220). -/
def Ctx.wakeMons (c : Ctx) (pa n : Nat) : Ctx :=
  let hit (m : Mon) : Bool := decide (pa < m.line * 64 + 64 ∧ m.line * 64 < pa + n)
  { c with mons := updWhere hit (fun m => { m with pending := true }) c.mons }
def State.wakeMons (s : State) (pa n : Nat) : State :=
  s.occ.foldl (fun s c => s.modCore c fun k => { k with ctx0 := k.ctx0.wakeMons pa n, ctx1 := k.ctx1.wakeMons pa n }) s

/-- The black-box ring and the repair log take no writes from any party (22 R405, R408). -/
def ringByte (pa : Nat) : Bool := decide (2 ^ 39 ≤ pa ∧ pa < 2 ^ 39 + 2 ^ 32 ∧ 2 ^ 30 - 2 ^ 17 ≤ pa % 2 ^ 30)

/-- Frame i of the frames of an item, a list of runs (first frame, count). -/
def frameAt : List (Nat × Nat) → Nat → Option Nat
  | [], _ => none
  | (f, n) :: t, i => if i < n then some (f + i) else frameAt t (i - n)
/-- The place of a frame among the frames of an item. -/
def frameIdx : List (Nat × Nat) → Nat → Option Nat
  | [], _ => none
  | (f, n) :: t, q => if f ≤ q ∧ q < f + n then some (q - f) else (frameIdx t q).map (· + n)
def frameCount (fs : List (Nat × Nat)) : Nat := fs.foldl (fun k p => k + p.2) 0
/-- The first m frames. -/
def frameTake : List (Nat × Nat) → Nat → List (Nat × Nat)
  | [], _ => []
  | (f, n) :: t, m => if m = 0 then [] else (f, min n m) :: frameTake t (m - n)
/-- The frames behind the first m. -/
def frameDrop : List (Nat × Nat) → Nat → List (Nat × Nat)
  | [], _ => []
  | (f, n) :: t, m => if m < n then (f + m, n - m) :: t else frameDrop t (m - n)
def frameHas (fs : List (Nat × Nat)) (q : Nat) : Bool := fs.any fun p => decide (p.1 ≤ q ∧ q < p.1 + p.2)
/-- The physical address of byte o of an item in its frames. -/
def framePa (fs : List (Nat × Nat)) (o : Nat) : Nat := ((frameAt fs (o / 4096)).getD 0) * 4096 + o % 4096

/-- A write to bytes that a tensor's frames hold: the resident copy differs from every lower one, and
the compressor's trial is old (12 R244, 20 R372). -/
def State.noteWrite (s : State) (hit : Nat → Nat → Bool) : State :=
  let wrote (t : Tensor) : Bool := decide (1 ≤ t.st.toNat ∧ t.st.toNat ≤ 4) && t.frames.any fun f => hit (f.1 * 4096) (f.2 * 4096)
  if s.tensors.any wrote then { s with tensors := updWhere wrote (fun t => { t with dirty := true, tried := none }) s.tensors } else s

/-- The HBM copy of bytes of a KV page that is in the pool, which every write of the page reaches too (20 R371). -/
def State.copies (s : State) (cells : List Host.Cell) : List Host.Cell :=
  s.kvs.flatMap fun q => q.pages.flatMap fun p =>
    if p.tier ≠ 0 || p.lower.isEmpty then []
    else cells.filterMap fun c => ((frameIdx p.frames (c.1 / 4096)).bind (frameAt p.lower)).map fun f => (f * 4096 + c.1 % 4096, c.2)
/-- A write of bytes at home (20 R359-R361): whether some were refused by a dead row, and the state after. A block covered
whole loses its poison mark. -/
def State.homeWrite (s : State) (cells : List Host.Cell) : Bool × State :=
  match cells with
  | [] => (false, s)
  | (pa, _) :: _ =>
    let dead := (cells.map fun c => c.1 / 512).eraseDups.filter s.rowDead
    let s := if dead.isEmpty then s else s.count (homeDie pa) fun c => { c with deadwr := satInc c.deadwr }
    let cells := if dead.isEmpty then cells else cells.filter fun c => !dead.contains (c.1 / 512)
    let blks := (cells.map fun c => c.1 / 512).eraseDups
    let whole (b : Nat) : Bool := decide ((cells.filter fun c => c.1 / 512 == b).length = 512)
    let s := blks.foldl (fun s b =>
      if whole b then (s.mscBlock b true true).2.modMem fun m => { m with poison := m.poison.filter (· != b) }
      else (s.mscBlock b false true).2) s
    let s := s.modMem fun m => { m with cells := cellsWriteAll m.cells ((cells ++ s.copies cells).filter fun c => !ringByte c.1) }
    let s := s.noteWrite fun a n => cells.any fun c => decide (a ≤ c.1 ∧ c.1 < a + n)
    (!dead.isEmpty, (cells.map fun c => c.1 / 64).eraseDups.foldl (fun s l => s.wakeMons (l * 64) 64) s)

/-- Consecutive bytes written at home. -/
def State.homeWriteAt (s : State) (pa : Nat) (bs : List Byte) : Bool × State := s.homeWrite (bytesAt pa bs)

/-- A consumption of poison is recorded (22 R407). -/
def State.logPoison (s : State) (x : CtxId) (blk : Nat) (engine : Bool) : State :=
  s.bbCtx x 0x13 (BitVec.ofNat 64 (blk * 512)) (if engine then 0 else (s.ctx x).tregs.taskid)

/-! ### Frames (20 R360, R368) -/

def rangesMeet (a n b m : Nat) : Bool := decide (a < b + m ∧ b < a + n)
/-- The first frame of a run that is withheld: one with a block in a withheld channel or an unusable row (22 R408, R409). -/
def State.firstBad (s : State) (d : BitVec 2) (f n : Nat) : Option Nat :=
  let z := s.die d
  if (z.withheld.isEmpty && z.badRows.isEmpty) || decide (2 ^ 39 ≤ f * 4096) then none
  else
    ((List.range n).find? fun i => (List.range 8).any fun b =>
      let blk := 8 * (f + i) + b
      z.withheld.contains (chanHash (blk * 512)) || z.badRows.contains (Config.dramRow blk)).map (f + ·)
/-- Whether a run of frames is free, withheld frames excepted. -/
def State.framesFree (s : State) (d : BitVec 2) (f n : Nat) : Bool :=
  !(s.mem.used.any fun p => rangesMeet f n p.1 p.2) && (s.firstBad d f n).isNone
/-- The frames of a tier of a die: first frame and count; the black-box ring is never allocated. -/
def tierFrames (d : BitVec 2) (tier : Nat) : Nat × Nat :=
  match tier with
  | 0 => ((2 ^ 39 + d.toNat * 2 ^ 30) / 4096, (2 ^ 30 - 2 ^ 17) / 4096)
  | 1 => (d.toNat * 2 ^ 37 / 4096, 96 * 2 ^ 30 / 4096)
  | 2 => ((2 ^ 40 + d.toNat * 2 ^ 38) / 4096, 2 ^ 38 / 4096)
  | _ => (2 ^ 42 / 4096, min Config.cxlBytes (2 ^ 42) / 4096)
/-- The first free run of n frames at or above f, trying after each used range (k tries). -/
def State.firstFit (s : State) (d : BitVec 2) (lim n f : Nat) : Nat → Option Nat
  | 0 => none
  | k + 1 =>
    if lim < f + n then none
    else
      match s.mem.used.find? fun p => rangesMeet f n p.1 p.2 with
      | some p => s.firstFit d lim n (p.1 + p.2) k
      | none =>
        match s.firstBad d f n with
        | some w => s.firstFit d lim n (w + 1) k
        | none => some f
/-- How many starts a first fit may try. -/
def State.fitTries (s : State) (d : BitVec 2) : Nat :=
  s.mem.used.length + 1 + (if (s.die d).withheld.isEmpty && (s.die d).badRows.isEmpty then 0 else 2 ^ 25)
/-- A range taken out of a list of ranges. -/
def cutRange (l : List (Nat × Nat)) (f n : Nat) : List (Nat × Nat) :=
  l.flatMap fun p => [(p.1, min p.2 (f - p.1)), (max p.1 (f + n), p.1 + p.2 - max p.1 (f + n))].filter fun q => q.2 != 0
/-- Free frames of a tier from frame f on, the lowest first, up to n of them, as runs (k tries). -/
def State.gather (s : State) (d : BitVec 2) (lim n f : Nat) : Nat → List (Nat × Nat)
  | 0 => []
  | k + 1 =>
    if n = 0 ∨ lim ≤ f then []
    else
      match s.mem.used.find? fun p => decide (p.1 ≤ f ∧ f < p.1 + p.2) with
      | some p => s.gather d lim n (p.1 + p.2) k
      | none =>
        let stop := s.mem.used.foldl (fun m p => if f < p.1 ∧ p.2 ≠ 0 then min m p.1 else m) lim
        let len := min n (stop - f)
        match s.firstBad d f len with
        | some w => (if w = f then [] else [(f, w - f)]) ++ s.gather d lim (n - (w - f)) (w + 1) k
        | none => (f, len) :: s.gather d lim (n - len) (f + len) k
/-- Up to n free frames of a tier of a die. -/
def State.freeRuns (s : State) (d : BitVec 2) (tier n : Nat) : List (Nat × Nat) :=
  let (f0, cnt) := tierFrames d tier
  s.gather d (f0 + cnt) n f0 (2 * s.fitTries d)
/-- How many free frames a tier of a die has, counted up to n (20 R368). -/
def State.tierFree (s : State) (d : BitVec 2) (tier n : Nat) : Nat := frameCount (s.freeRuns d tier n)
/-- Whether a tier of a die has n free frames (20 R368). -/
def State.tierFits (s : State) (d : BitVec 2) (tier n : Nat) : Bool :=
  let (f0, cnt) := tierFrames d tier
  (s.firstFit d (f0 + cnt) n f0 (s.fitTries d)).isSome || s.tierFree d tier n == n
/-- Frames handed out: they are written as zeros first, and with them every block of a dead row that they touch (20 R360). -/
def State.handOut (s : State) (fs : List (Nat × Nat)) : State :=
  let mine := frameHas fs
  let wipe (b : Nat) : Bool := mine (b / 8) || (s.rowDead b && (rowBlocks b).any fun q => mine (q / 8))
  s.modMem fun m => { m with
    used := fs ++ m.used, lost := fs.foldl (fun l p => cutRange l p.1 p.2) m.lost, dead := m.dead.filter fun q => !mine q
    cells := m.cells.filter fun c => !wipe (c.1 / 512)
    poison := m.poison.filter fun b => !wipe b
    flips := m.flips.filter fun p => !wipe p.1
    cache := m.cache.filter fun p => !wipe p.1 }
/-- n frames of a tier: at the free choice where it is a free run, else the lowest free run, else the lowest free frames
(12 R248). None where the tier is full. -/
def State.takeFrames (s : State) (d : BitVec 2) (tier n : Nat) : Option (List (Nat × Nat) × State) :=
  let (f0, cnt) := tierFrames d tier
  let (w, s) := s.draw .frame
  let pick := f0 + w % (cnt + 1 - n)
  let got : Option (List (Nat × Nat)) :=
    if n ≤ cnt ∧ s.framesFree d pick n then some [(pick, n)]
    else
      match s.firstFit d (f0 + cnt) n f0 (s.fitTries d) with
      | some f => some [(f, n)]
      | none =>
        let fs := s.freeRuns d tier n
        if frameCount fs = n then some fs else none
  got.map fun fs => (fs, s.handOut fs)
/-- Frames returned to the free pool; HBM frames among them make dead rows until they are handed out again (20 R360, log 9). -/
def State.freeFrames (s : State) (fs : List (Nat × Nat)) : State :=
  s.modMem fun m => { m with
    used := fs.foldl (fun l p => cutRange l p.1 p.2) m.used
    dead := m.dead ++ (fs.flatMap fun p => if p.1 * 4096 < 2 ^ 39 then (List.range p.2).map (p.1 + ·) else []) }

end Sys2Proof.Machine
end

