-- ==== Sys2Proof/Machine/Translate.lean ====
section
/-! DEFINITION. Address translation: the walk, its caches, the accessed and dirty bits (19 R338-R349). -/

namespace Sys2Proof.Machine

/-- The fields of a leaf entry (19 R342). -/
def leafTier (e : Word) : Nat := (e.extractLsb' 9 3).toNat
def leafSlot (e : Word) : BitVec 5 := e.extractLsb' 52 5
def leafGeom (e : Word) : BitVec 3 := e.extractLsb' 57 3
def leafCoh (e : Word) : Bool := e.getLsbD 60
def leafLock (e : Word) : Bool := e.getLsbD 61
def leafD (e : Word) : Bool := e.getLsbD 8
def leafA (e : Word) : Bool := e.getLsbD 7
def leafX (e : Word) : Bool := e.getLsbD 6
def leafU (e : Word) : Bool := e.getLsbD 5
def leafW (e : Word) : Bool := e.getLsbD 4
def leafRun (e : Word) : Nat := (e.extractLsb' 2 2).toNat
def entFrame (e : Word) : Nat := (e.extractLsb' 12 40).toNat
/-- The bytes of a page: a leaf at level L with its run (19 R343). -/
def pageSize (level run : Nat) : Nat := 4096 * 512 ^ level * 4 ^ run

/-- A translation: the entry and the virtual address it serves. -/
def TlbEntry.pa (e : TlbEntry) (va : Nat) : Nat := entFrame e.leaf * 4096 / e.size * e.size + va % e.size
def TlbEntry.covers (e : TlbEntry) (spid : BitVec 12) (va : Nat) : Bool :=
  e.spid == spid && decide (e.page ≤ va ∧ va < e.page + e.size)

/-- The space ID and the root frame of a root register (19 R338). -/
def rootSpid (r : Word) : BitVec 12 := r.extractLsb' 52 12
def rootFrame (r : Word) : Nat := entFrame r
def rootEn (r : Word) : Bool := r.getLsbD 0

/-- Why a translation fails: the cause and IMM (17 R321). -/
abbrev XFault := BitVec 16 × BitVec 32

/-- The index of a level in a virtual address (19 R340). -/
def levelIdx (va level : Nat) : Nat := va / 2 ^ (12 + 9 * level) % 512

/-- The reserved-bit conditions of a leaf (19 R340, R342). -/
def leafBad (e : Word) (level : Nat) : Bool :=
  decide (2 < level) || (e.extractLsb' 62 2 != 0) || decide (4 < (leafGeom e).toNat)
    || (level == 1 && (e.extractLsb' 12 9 != 0)) || (level == 2 && (e.extractLsb' 12 18 != 0))

/-- A leaf's A set, and D for a write: a read-modify-write at the entry's home (19 R346). -/
def withAD (e : Word) (write : Bool) : Word := e ||| (if write then 0x180 else 0x80)

/-- The TIER of a leaf set, and its frame where one is given (20 R373). -/
def setTier (e : Word) (tier : Nat) (frame : Option Nat) : Word :=
  let e := (e &&& ~~~(0xE00 : Word)) ||| BitVec.ofNat 64 (tier * 512)
  match frame with
  | some f => (e &&& ~~~(BitVec.ofNat 64 ((2 ^ 40 - 1) * 4096))) ||| BitVec.ofNat 64 (f * 4096)
  | none => e

/-- A leaf that names a pool page lost in a shutdown has TIER 6: it is rewritten when a walk meets it (20 R374). -/
def State.lostLeaf (s : State) (e : Word) : Bool :=
  leafTier e == 0 && s.mem.lost.any fun p => decide (p.1 ≤ entFrame e ∧ entFrame e < p.1 + p.2)

/-! ### Table entries at home (19 R340, R346, 11 R230) -/

/-- The lines of a core's L1 that hold a line go, and a fill under way does not stay. -/
def Core.dropCopy (k : Core) (line : Nat) : Core := (k.l1Drop line).staleFills (· == line)
/-- The cores that may hold a copy of a line (20 R362). -/
def DirEntry.targets (e : DirEntry) : List (BitVec 8) :=
  match e.groups with
  | some g => ((List.range 256).map (BitVec.ofNat 8)).filter fun c => g.getLsbD (c.toNat / 8)
  | none => e.sharers
/-- The lines of n bytes. -/
def linesOf (pa n : Nat) : List Nat :=
  if n = 0 then [] else (List.range ((pa + n - 1) / 128 + 1 - pa / 128)).map (pa / 128 + ·)
/-- Whether the right to write a line is on its way to an L1. -/
def State.granting (s : State) (line : Nat) : Bool :=
  s.acts.any fun a =>
    match a with
    | .ev (.l1Fill _ l _ .m _ _) => l == line
    | _ => false
/-- Whether an entry awaits acknowledgements (20 R364). -/
def DirEntry.transient (e : DirEntry) : Bool := e.st == .ts || e.st == .tm || e.st == .th
/-- The newest data of a coherent line where that is not at home: an L1 holds it in M, or an acknowledgement carries it. -/
def State.newest (s : State) (line : Nat) : Option LineData :=
  match (s.die (homeDie (line * 128))).dir.find? fun e => e.line == line with
  | none => none
  | some e =>
    ((e.targets ++ e.awaiting).findSome? fun c => (((s.core c).l1Find line).filter fun l => l.st == .m).map (·.data)) <|>
      s.acts.findSome? fun a =>
        match a with
        | .ev (.invalidationAck _ l (some d)) => if l = line then some d else none
        | _ => none
/-- The newest data of a line written home. -/
def State.bringHome (s : State) (line : Nat) : State :=
  match s.newest line with
  | some d => (s.homeWriteAt (line * 128) (natToBytes d.toNat 128)).2
  | none => s
/-- A line brought home for a read of the walker or of the record engine: the owner keeps a shared copy. Where a recall or a grant of
the line is under way the read takes the newest data, and the line is left to it (log 122). -/
def State.pullLine (s : State) (line : Nat) : State :=
  match (s.die (homeDie (line * 128))).dir.find? fun e => e.line == line with
  | none => s
  | some e =>
    let s := s.bringHome line
    if e.transient || s.granting line then s
    else if e.st = .e ∧ e.sharers.all (fun c => ((s.core c).l1Find line).isSome) then
      (e.sharers.foldl (fun s c => s.modCore c fun k => { k with
        l1 := updWhere (fun (l : L1Line) => l.line == line) (fun l => { l with st := .s }) k.l1 }) s).modDie (homeDie (line * 128)) fun z => { z with
          dir := updWhere (fun (q : DirEntry) => q.line == line) (fun q => { q with st := .s }) z.dir }
    else s
/-- The data of a line with the bytes of a write in it. -/
def patchLine (line pa : Nat) (bs : List Byte) (d : LineData) : LineData :=
  bs.zipIdx.foldl (fun d p => if (pa + p.2) / 128 = line then setLineByte d ((pa + p.2) % 128) p.1 else d) d
def Act.patch (line pa : Nat) (bs : List Byte) (a : Act) : Act :=
  match a with
  | .ev (.l1Fill c l d st g po) => if l = line ∧ st ≠ .nc then .ev (.l1Fill c l (patchLine line pa bs d) st g po) else a
  | .ev (.invalidationAck c l (some d)) => if l = line then .ev (.invalidationAck c l (some (patchLine line pa bs d))) else a
  | _ => a
/-- A write of the walker or of the record engine meets a coherent line: every copy goes. Where a recall or a grant of the line is under
way the copies keep it and take the bytes written: the write is performed in every one of them at once (log 122). -/
def State.pushLine (s : State) (line pa : Nat) (bs : List Byte) : State :=
  let d := homeDie (line * 128)
  match (s.die d).dir.find? fun e => e.line == line with
  | none => s
  | some e =>
    let s := s.bringHome line
    if e.transient || s.granting line then
      ((e.targets ++ e.awaiting).foldl (fun s c => s.modCore c fun k => { k with
        l1 := updWhere (fun (l : L1Line) => l.line == line) (fun l => { l with data := patchLine line pa bs l.data }) k.l1 }) s).mapActs
        (Act.patch line pa bs)
    else
      (e.targets.foldl (fun s c => s.modCore c fun k => k.dropCopy line) s).modDie d fun z => { z with dir := z.dir.filter fun q => q.line != line }
/-- Bytes read at their home, the newest data there. -/
def State.readHome (s : State) (pa n : Nat) : List Byte × Option Nat × Bool × State :=
  ((linesOf pa n).foldl (fun s l => s.pullLine l) s).homeRead pa n
/-- Bytes written at their home, in every copy of their lines. -/
def State.writeHome (s : State) (pa : Nat) (bs : List Byte) : State :=
  (((linesOf pa bs.length).foldl (fun s l => s.pushLine l pa bs) s).homeWriteAt pa bs).2
/-- A consumption of poison by no task is recorded (22 R407). -/
def State.logEngine (s : State) (blk : Option Nat) : State :=
  match blk with
  | some b => s.bbDie (homeDie (b * 512)) 0x13 (BitVec.ofNat 64 (b * 512)) 0
  | none => s
/-- ReadAtHome of a table entry: one 8-byte read, through the memory-side cache and its decoder (19 R340, 20 R358). -/
def State.readEntry (s : State) (pa : Nat) : State × Word :=
  let (bs, po, _, s) := s.readHome pa 8
  (s.logEngine po, BitVec.ofNat 64 (bytesToNat bs))
/-- An entry changed at its home (19 R346). -/
def State.writeEntry (s : State) (pa : Nat) (e : Word) : State := s.writeHome pa (natToBytes e.toNat 8)

/-- A leaf met at level L with its entry at `pa` (19 R340, R346). -/
def State.useLeaf (s : State) (spid : BitVec 12) (va : Nat) (write : Bool) (L pa : Nat) (e : Word) :
    State × Except XFault TlbEntry :=
  if leafBad e L then (s, .error (0x0104, BitVec.ofNat 32 L))
  else
    let e' := withAD (if s.lostLeaf e then setTier e 6 none else e) write
    let s := if e' = e then s else s.writeEntry pa e'
    let size := pageSize L (leafRun e)
    (s, .ok ⟨spid, va / size * size, size, e', pa⟩)

/-- A table pointer of level L kept in the walk cache (19 R347). -/
def Die.keepWalk (z : Die) (w : WalkEntry) : Die :=
  let same := z.walk.filter fun q => q.level == w.level && q != w
  let rest := z.walk.filter fun q => q.level != w.level
  { z with walk := w :: same.take 63 ++ rest }

/-- What a walk gives whose table lies behind a link that carries nothing now: the page counts as moving, and the access is translated
afresh once the link goes on (21 R383; DESIGN CHOICE, log 150). -/
def linkLeaf (spid : BitVec 12) (va : Nat) : TlbEntry := ⟨spid, va / 4096 * 4096, 4096, 0x2000000000000FF3, 2 ^ 52⟩
def TlbEntry.linkWait (e : TlbEntry) : Bool := e.leafPa == 2 ^ 52

/-- The walk from the table at frame `t`, level L (19 R340): a translation, or its fault. A table that lies where the die reaches no
memory is read as a leaf of such a frame would be: the protection fault (20 R350, 21 R387; DESIGN CHOICE, log 144). -/
def State.walkFrom (s : State) (d : BitVec 2) (spid : BitVec 12) (va : Nat) (write : Bool) (t : Nat) :
    Nat → State × Except XFault TlbEntry
  | 0 =>
    let pa := t * 4096 + 8 * levelIdx va 0
    if (s.memFor d pa).isNone then (s, .error (0x0102, 0))
    else if s.linkWaits d pa then (s, .ok (linkLeaf spid va))
    else
      let (s, e) := s.readEntry pa
      if !e.getLsbD 0 then (s, .error (0x0101, 0))
      else if !e.getLsbD 1 then (s, .error (0x0104, 0))
      else s.useLeaf spid va write 0 pa e
  | L + 1 =>
    let pa := t * 4096 + 8 * levelIdx va (L + 1)
    if (s.memFor d pa).isNone then (s, .error (0x0102, 0))
    else if s.linkWaits d pa then (s, .ok (linkLeaf spid va))
    else
      let (s, e) := s.readEntry pa
      if !e.getLsbD 0 then (s, .error (0x0101, 0))
      else if e.getLsbD 1 then s.useLeaf spid va write (L + 1) pa e
      else if e.extractLsb' 52 12 != 0 then (s, .error (0x0104, BitVec.ofNat 32 (L + 1)))
      else
        let s := s.modDie d fun z => z.keepWalk ⟨spid, L + 1, va / 2 ^ (12 + 9 * (L + 1)), e⟩
        s.walkFrom d spid va write (entFrame e) L

/-- The deepest walk-cache entry that serves an address (19 R340, R347). -/
def Die.walkStart (z : Die) (spid : BitVec 12) (va : Nat) : Option WalkEntry :=
  [1, 2, 3, 4].findSome? fun L => z.walk.find? fun w => w.spid == spid && w.level == L && w.pfx == va / 2 ^ (12 + 9 * L)

/-- A walk for a root (19 R340). -/
def State.walk (s : State) (d : BitVec 2) (root : Word) (va : Nat) (write : Bool) : State × Except XFault TlbEntry :=
  if 2 ^ 57 ≤ va then (s, .error (0x0101, 0))
  else if !rootEn root then (s, .error (0x0101, 0))
  else
    match (s.die d).walkStart (rootSpid root) va with
    | some w => (s.modDie d fun z => z.keepWalk w).walkFrom d (rootSpid root) va write (entFrame w.entry) (w.level - 1)
    | none => s.walkFrom d (rootSpid root) va write (rootFrame root) 4

/-- Entries dropped from the L1 TLBs of a die's cores. -/
def State.dropTlb (s : State) (d : BitVec 2) (gone : TlbEntry → Bool) : State :=
  { s with cores := s.cores.mapIdx fun i k =>
    if i / 64 = d.toNat ∧ k.tlb.any gone = true then { k with tlb := k.tlb.filter fun e => !gone e } else k }

/-- Whether two entries translate one page, which a TLB holds once (19 R347). -/
def TlbEntry.same (e q : TlbEntry) : Bool := q.spid == e.spid && q.page == e.page && q.size == e.size
/-- An entry of the L1 TLB of a core, or a new one, is the one used last; the least recently used leaves (19 R347). -/
def Core.useTlb (k : Core) (e : TlbEntry) : Core := { k with tlb := e :: (k.tlb.filter fun q => !e.same q).take 63 }
/-- An entry put into the L1 TLB of a core and the L2 TLB of its die, which includes it; the least recently used leave, from
L2 with the L1 entries of their pages (19 R347). -/
def State.fillTlb (s : State) (core : BitVec 8) (e : TlbEntry) : State :=
  let s := s.modCore core fun k => k.useTlb e
  let old := (s.die (coreDie core)).l2tlb.filter fun q => !e.same q
  let s := s.modDie (coreDie core) fun z => { z with l2tlb := e :: old.take 8191 }
  let out := old.drop 8191
  if out.isEmpty then s else s.dropTlb (coreDie core) fun q => out.any fun o => o.same q

/-- The locked region of a context that holds an address (19 R348). -/
def Ctx.lockAt (c : Ctx) (va : Nat) : Option Lock := c.locks.find? fun l => decide (l.base ≤ va ∧ va < l.base + l.len)

/-- The translation of one address for a context (19 R347, R348): lockable entries, L1 TLB, L2 TLB, walk caches, walk. A
write through a translation with D clear walks again (19 R346). -/
def State.translate (s : State) (x : CtxId) (va : Nat) (write : Bool) : State × Except XFault TlbEntry :=
  let c := s.ctx x
  let root := c.sys.troot
  let spid := rootSpid root
  if 2 ^ 57 ≤ va then (s, .error (0x0101, 0))
  else
    match c.lockAt va with
    | some l =>
      match l.entries.find? fun e => e.covers spid va with
      | some e => (s, .ok e)
      | none => (s, .error (0x0103, 0))
    | none =>
      if !rootEn root then (s, .error (0x0101, 0))
      else
        let again (s : State) : State × Except XFault TlbEntry :=
          match s.walk (coreDie x.core) root va write with
          | (s, .ok e) => (if e.linkWait then s else s.fillTlb x.core e, .ok e)
          | (s, .error f) => (s, .error f)
        match (s.core x.core).tlb.find? fun e => e.covers spid va with
        | some e => if write && !leafD e.leaf then again s else (s.modCore x.core fun k => k.useTlb e, .ok e)
        | none =>
          match (s.die (coreDie x.core)).l2tlb.find? fun e => e.covers spid va with
          | some e => if write && !leafD e.leaf then again s else (s.fillTlb x.core e, .ok e)
          | none => again s

/-- TLBI of one address or of all, in one die (17 R318): L2 entries go, and with them the L1 entries of the die. -/
def State.tlbiDie (s : State) (d : BitVec 2) (hit : TlbEntry → Bool) (walk : Bool) : State :=
  let s := s.modDie d fun z => { z with
    l2tlb := z.l2tlb.filter fun e => !hit e, walk := if walk then [] else z.walk }
  s.dropTlb d hit
def TlbEntry.holds (e : TlbEntry) (va : Nat) : Bool := decide (e.page ≤ va ∧ va < e.page + e.size)

/-! ### Leaves written by Bassoon and the allocator (20 R373, log 11) -/

/-- The address of the level-0 entry of a page, tables on the way made where they lack (log 11). -/
def State.leafSlotAt (s : State) (d : BitVec 2) (va : Nat) (t : Nat) : Nat → Option (Nat × State)
  | 0 => some (t * 4096 + 8 * levelIdx va 0, s)
  | L + 1 =>
    let pa := t * 4096 + 8 * levelIdx va (L + 1)
    let (s, e) := s.readEntry pa
    if e.getLsbD 0 then (if e.getLsbD 1 then none else s.leafSlotAt d va (entFrame e) L)
    else
      match s.takeFrames d 1 1 with
      | none => none
      | some (fs, s) => (s.writeEntry pa (BitVec.ofNat 64 (framePa fs 0 + 1))).leafSlotAt d va (framePa fs 0 / 4096) L

/-- One page of an item mapped: its leaf written. -/
def State.writeLeaf (s : State) (d : BitVec 2) (root : Word) (va : Nat) (leaf : Word) : Option State :=
  (s.leafSlotAt d va (rootFrame root) 4).map fun (pa, s) => s.writeEntry pa leaf

/-- The leaves of n pages from a virtual address, page i at frame i of the frames given; where none are, the frames stay. -/
def State.setLeaves (s : State) (d : BitVec 2) (root : Word) (va : Nat) (tier : Nat) (frames : List (Nat × Nat)) : Nat → State
  | 0 => s
  | n + 1 =>
    let s := s.setLeaves d root va tier frames n
    match s.leafSlotAt d (va + 4096 * n) (rootFrame root) 4 with
    | some (pa, s) =>
      let (s, e) := s.readEntry pa
      s.writeEntry pa (setTier e tier (frameAt frames n))
    | none => s

/-- TLBI .va .die on every die for n pages (20 R373). -/
def State.tlbiPages (s : State) (spid : BitVec 12) (va n : Nat) : State :=
  [0#2, 1#2, 2#2, 3#2].foldl (fun s d => s.tlbiDie d (fun e => e.spid == spid && rangesMeet e.page e.size va (4096 * n)) false) s

end Sys2Proof.Machine
end

