-- ==== Sys2Proof/Machine/Access.lean ====
section
/-! DEFINITION. Memory operands: EffAddr, the checks of 09 R184, the L1 and the segment store buffer as a load or a store
meets them (09 R182-R194, 04 R75, R81, 19 R344, R345). -/

namespace Sys2Proof.Machine

/-! ### Bounds -/

/-- What a tensor ID names: base, size in bytes, and the slot number of its pages (none for the flat window). -/
structure Extent where
  base : Nat
  size : Nat
  fmt : Option (BitVec 5)
  guardTag : Nat
  deriving DecidableEq, Repr

/-- A tensor in use, as a die of its partition names it (12 R245, R248, 21 R387). -/
def State.tensorFor (s : State) (d : BitVec 2) (id : BitVec 24) : Option Tensor :=
  (s.tensor? id).bind fun t => if t.st ≠ 0 ∧ samePart s.power.mode d t.home then some t else none
/-- A KV sequence in use, likewise. -/
def State.kvFor (s : State) (d : BitVec 2) (id : BitVec 24) : Option KvSeq :=
  (s.kv? id).bind fun q => if q.inUse ∧ samePart s.power.mode d q.home then some q else none

/-- TensorRecord (09 R182): tensor 0 is the flat window (03 R50, 17 R311); a KV sequence is no tensor. -/
def State.extent? (s : State) (x : CtxId) (id : BitVec 24) : Option Extent :=
  if id = 0 then
    let y := (s.ctx x).sys
    some ⟨y.flatb.toNat, y.flats.toNat, none, 0⟩
  else
    match s.tensorFor x.die id with
    | some t => some ⟨t.base, t.size, some t.fmt, t.guard.toNat⟩
    | none => none

/-- EffAddr (09 R182): the effective address, or the address that the bound fault reports. -/
def State.effAddr (s : State) (x : CtxId) (a : Word) (imm : Int) (n : Nat) : Except Word Nat :=
  let off : Int := (addrOff a).toNat + imm
  match s.extent? x (addrId a) with
  | none => .error (BitVec.ofInt 64 off)
  | some e =>
    if 0 ≤ off ∧ off + n ≤ e.size then .ok (e.base + off.toNat) else .error (BitVec.ofInt 64 (e.base + off))

/-! ### Checks 4, 5, 7 and 8 -/

/-- What an access asks of its pages. -/
structure Want where
  write : Bool
  /-- Compute references take misses; copies do not (10 R204). -/
  compute : Bool
  lockable : Bool := false
  deriving DecidableEq, Repr

/-- The translations of the 4 KiB pages an access touches. -/
abbrev Pages := List (Nat × TlbEntry)
def pagePa (ps : Pages) (va : Nat) : Nat :=
  match ps.find? fun p => p.1 == va / 4096 with
  | some p => p.2.pa va
  | none => 0
def pageLeaf (ps : Pages) (va : Nat) : Word := ((ps.find? fun p => p.1 == va / 4096).map (·.2.leaf)).getD 0

/-- The outcome of the checks of an access. -/
inductive Chk where
  | fault (code : BitVec 16) (tval : Word) (imm : BitVec 32)
  | miss (items : List Item)
  | block (tval : Word)
  | ok (ps : Pages)
  deriving DecidableEq, Repr

/-- The 4 KiB pages of byte ranges, each once, in the order of the ranges. -/
def pagesOf (ranges : List (Nat × Nat)) : List Nat :=
  (ranges.flatMap fun r => if r.2 = 0 then [] else (List.range ((r.1 + r.2 - 1) / 4096 + 1 - r.1 / 4096)).map (r.1 / 4096 + ·)).eraseDups

/-- Every page translated, until one fails (09 R184 check 4, 19 R344, R345). -/
def State.translateAll (s : State) (x : CtxId) (w : Want) : List Nat → State × Except XFault Pages
  | [] => (s, .ok [])
  | p :: t =>
    match s.translate x (p * 4096) w.write with
    | (s, .error f) => (s, .error f)
    | (s, .ok e) =>
      let y := (s.ctx x).sys
      if (!y.pl && !leafU e.leaf) || (w.write && !leafW e.leaf) || (w.lockable && !leafLock e.leaf) then (s, .error (0x0102, 0))
      else if w.compute ∧ leafTier e.leaf ≤ 3 ∧ (s.memFor x.die (e.pa (p * 4096))).isNone then (s, .error (0x0102, 0))
      else
        match s.translateAll x w t with
        | (s, .ok ps) => (s, .ok ((p, e) :: ps))
        | (s, .error f) => (s, .error f)

/-- Whether a task is the recipe of a tensor that is being recomputed (12 R253). -/
def State.recipeOf (s : State) (k : Option Nat) (id : BitVec 24) : Bool :=
  match k.bind s.task?, s.tensor? id with
  | some t, some r => r.st == 8 && (t.recipe.map (·.tensor)) == some id
  | _, _ => false
/-- Whether the accesses of a task to a tensor are served although it is being recomputed: its recipe's, once it has frames
(12 R253). -/
def State.recomputing (s : State) (k : Option Nat) (id : BitVec 24) : Bool :=
  s.recipeOf k id && (s.tensor? id).any fun r => !r.frames.isEmpty
def State.recomputes (s : State) (x : CtxId) (id : BitVec 24) : Bool := s.recomputing (s.ctx x).task id

/-- The format-slot check over the pages of an access (09 R182, 04 R75). -/
def fmtFault (c : Ctx) (id : BitVec 24) : Pages → Bool
  | [] => false
  | (_, e) :: t =>
    (t.any fun q => leafSlot q.2.leaf != leafSlot e.leaf) || (c.readFmt (leafSlot e.leaf)).geom != leafGeom e.leaf
      || (id == 0 && leafGeom e.leaf != 0) || fmtFault c id t

/-- A page of the flat window as a unit of residency: its leaf. -/
def flatItem (p : Nat × TlbEntry) : Item :=
  let level := if p.2.size < 2 ^ 21 then 0 else if p.2.size < 2 ^ 30 then 1 else 2
  .flat (p.2.leafPa / 4096 * 4096 + 8 * levelIdx (p.1 * 4096) level) (4096 * 512 ^ level)

/-- Checks 4, 5, 7 and 8 over the pages of byte ranges (09 R184). -/
def State.checkPages (s : State) (x : CtxId) (id : BitVec 24) (tval : Word) (ranges : List (Nat × Nat)) (w : Want) :
    State × Chk :=
  match s.translateAll x w (pagesOf ranges) with
  | (s, .error f) => (s, .fault f.1 tval f.2)
  | (s, .ok ps) =>
    let tiers := ps.map fun p => leafTier p.2.leaf
    let lost := tiers.contains 6 || (id == 0 && tiers.contains 5)
    if ps.any fun p => p.2.linkWait then (s, .block tval)
    else if fmtFault (s.ctx x) id ps then (s, .fault 0x0005 tval 0)
    else if lost then (s, .fault 0x0107 (id.zeroExtend 64) 0)
    else if tiers.contains 7 then (s, .block tval)
    else if w.compute && !s.recomputes x id then
      let far := ps.filter fun p => decide (2 ≤ leafTier p.2.leaf)
      if far.isEmpty then (s, .ok ps)
      else if s.recipeOf (s.ctx x).task id then (s, .block tval)
      else (s, .miss (if id = 0 then far.map flatItem else [.tensor id]))
    else (s, .ok ps)

/-- The same over the data and the scale bytes of an access (04 R73, R75): scale bytes are touched only where every data page
carries the geometry `geom` of the slot that the access decodes with, `slot` where that is one slot; where one does not, the
format-slot check fails over the data alone. -/
def State.checkScaled (s : State) (x : CtxId) (id : BitVec 24) (tval : Word) (slot : Option (BitVec 5)) (geom : BitVec 3)
    (data planes : List (Nat × Nat)) (w : Want) : State × Chk :=
  match s.translateAll x w (pagesOf data) with
  | (s, .error f) => (s, .fault f.1 tval f.2)
  | (s, .ok ps) =>
    if ps.any fun p => p.2.linkWait then (s, .block tval)
    else if slot.any fun n => ps.any fun p => leafSlot p.2.leaf != n then (s, .fault 0x0005 tval 0)
    else if id == 0 || ps.any fun p => leafGeom p.2.leaf != geom then s.checkPages x id tval data w
    else s.checkPages x id tval (data ++ planes) w

/-- The checks of one memory operand `[aN + imm]` over n bytes (09 R182, R184): the address and its translations where it
passes; else the fault, miss or freeze is recorded. -/
def State.operand (s : State) (a : Word) (imm : Int) (n al : Nat) (w : Want) : State × Option (Nat × Pages) :=
  let x := s.iss.x
  match s.effAddr x a imm n with
  | .error v => (s.raise 0x0003 v, none)
  | .ok va =>
    let tval := BitVec.ofNat 64 va
    if va % al ≠ 0 then (s.raise 0x0004 tval, none)
    else
      match s.checkPages x (addrId a) tval [(va, n)] w with
      | (s, .fault code v imm) => (s.raise code v imm, none)
      | (s, .miss items) => (items.foldl (fun s i => s.missOn i) s, none)
      | (s, .block v) => (s.blockOn v, none)
      | (s, .ok ps) => (s, some (va, ps))

/-! ### Formats of pages, and engine work -/

/-- Bytes of an element; a 4-bit element lies in one half of a byte. -/
def eltBytes (w : Nat) : Nat := if w ≤ 8 then 1 else w / 8
/-- The storage of 64 elements (08 R163). -/
def colBytes (w : Nat) : Nat := if w = 4 then 32 else 64 * eltBytes w
/-- The slot number of the page at an address, before any check (04 R75): the one its leaf names; where it has no
translation, the tensor's, and none in the flat window (DEDUCED, log 12). The translation itself is made by check 4. -/
def State.pageSlot (s : State) (x : CtxId) (e : Extent) (off : Int) : Option (BitVec 5) :=
  if off < 0 ∨ (e.size : Int) ≤ off then e.fmt
  else
    match (s.translate x (e.base + off.toNat) false).2 with
    | .ok t => if t.linkWait then e.fmt else some (leafSlot t.leaf)
    | .error _ => e.fmt
/-- The format of an access at an address: its page's slot, raw where there is none. -/
def State.slotAt (s : State) (x : CtxId) (e : Extent) (off : Int) : FmtSlot :=
  match s.pageSlot x e off with
  | some n => (s.ctx x).readFmt n
  | none => {}

/-- Bits [lo + n - 1 : lo] of word i of a descriptor. -/
def dw (d : List Word) (i : Nat) : Word := d.getD i 0
def df (d : List Word) (i lo n : Nat) : Nat := ((dw d i).extractLsb' lo n).toNat
/-- A format slot as engine work read it at its issue. -/
def Work.fmt (w : Work) (n : Nat) : FmtSlot := if n % 32 = 0 then {} else w.fmts.getD (n % 32) {}

def Work.rdFmt (w : Work) (n : BitVec 5) : FmtSlot := w.fmt n.toNat

/-- Word i of a descriptor, as the scratchpad holds it now (08 R173). -/
def State.descWord (s : State) (x : CtxId) (w : Work) (i : Nat) : Word :=
  w.desc.getD i (BitVec.ofNat 64 (bytesToNat (cellsReadN (s.core x.core).sp (linPos (w.bank + i / 8) w.row (8 * (i % 8))) 8)))
/-- The slot that the page of an address value names, among those that the work read at its issue (03 R61, 04 R75). -/
def State.workSlot (s : State) (x : CtxId) (w : Work) (a : Word) : FmtSlot :=
  match (s.extent? x (addrId a)).bind fun e => s.pageSlot x e (addrOff a).toNat with
  | some n => w.rdFmt n
  | none => {}
/-- The physical stretches of a range of a space as the tables map it now; pages without a frame have none. -/
def State.mappedNow (s : State) (d : BitVec 2) (root : Word) (va n : Nat) : List (Nat × Nat) :=
  (pagesOf [(va, n)]).filterMap fun p =>
    match (s.walk d root (p * 4096) false).2 with
    | .ok e => if leafTier e.leaf ≤ 3 then
        some (e.pa (max va (p * 4096)), min (va + n) (p * 4096 + 4096) - max va (p * 4096)) else none
    | .error _ => none
/-- The rows that engine work is still to write to memory, before its drain begins: the target of a carried MDRAIN or MDRAINA, or
of the final drain of an MGEMM, as its descriptor stands and as the tables map it now (08 R174, R179; DESIGN CHOICE, log 124). -/
def State.workWrites (s : State) (x : CtxId) (w : Work) : List (Nat × Nat) :=
  let rows (a : Word) (imm : Int) (pitch : Int) : List (Nat × Nat) :=
    match s.extent? x (addrId a), (s.ctx x).task.bind s.task? with
    | some e, some t =>
      let n := colBytes (s.workSlot x w a).width
      (List.range 64).flatMap fun (i : Nat) =>
        let o : Int := (addrOff a).toNat + imm + i * pitch
        if o < 0 ∨ (e.size : Int) < o + n then [] else s.mappedNow x.die t.troot (e.base + o.toNat) n
    | _, _ => []
  match w.phase, w.kind with
  | .draining, _ | _, .mattn | _, .drain _ (some _) .. => []
  | _, .drain _ none tad imm stride .. => rows tad imm.toInt stride.toInt
  | _, .mgemm => if (s.descWord x w 2).getLsbD 32 then rows (s.descWord x w 4) 0 ((s.descWord x w 5).extractLsb' 0 40).toInt else []

/-! ### The order of a context's own accesses (09 R192, 10 R206) -/

/-- The stretches of physical memory of one side of a job. -/
def JSide.segs (j : JSide) : List PSeg :=
  match j with
  | .sp _ => []
  | .mem _ _ l => l
/-- The physical ranges of a drain's rows that are still to be performed. -/
def Drain.left (d : Drain) : List (Nat × Nat) :=
  match d.tgt with
  | .sp _ _ => []
  | .mem rows _ _ => ((List.range rows.length).zip rows).flatMap fun p => if d.done.contains p.1 then [] else p.2
/-- The bytes of a side of a job: those of a target are counted in the target's format (10 R203). -/
def Job.sideLen (j : Job) (dst : Bool) : Nat :=
  if dst ∧ j.kind = .convert then (if j.dfmt.width = 4 then (j.nelt + 1) / 2 else j.nelt * (if j.dfmt.width ≤ 8 then 1 else j.dfmt.width / 8)) else j.len
/-- The physical stretches of a memory side of a job: those translated at issue, and the pages that had no frame then as
they are mapped now (10 R204, R206). -/
def State.sideNow (s : State) (j : Job) (dst : Bool) : List (Nat × Nat) :=
  match if dst then j.dst else j.src with
  | .sp _ => []
  | .mem _ va segs =>
    let n := j.sideLen dst
    let got := segs.map fun g => (g.pa, g.n)
    if n ≤ segs.foldl (fun m g => m + g.n) 0 then got
    else
      match s.task? j.task with
      | none => got
      | some t =>
        got ++ ((pagesOf [(va, n)]).filter fun p => !(segs.any fun g => rangesMeet (va + g.off) g.n (p * 4096) 4096)).flatMap fun p =>
          s.mappedNow j.x.die t.troot (max va (p * 4096)) (min (va + n) (p * 4096 + 4096) - max va (p * 4096))
/-- Whether a job has a block that it has not yet written. -/
def Job.unwritten (j : Job) : Bool := !(j.todo.isEmpty && j.due.isEmpty && j.buf.isEmpty)
/-- The number that orders a drain among the accesses of its context: that of the command that brought it. -/
def Drain.ord (d : Drain) : Nat := d.follow.getD d.id
/-- The numbers of the drains, engine work and jobs of the context still to be performed that write a physical byte range. -/
def State.engineWriters (s : State) (x : CtxId) (pa n : Nat) : List Nat :=
  ((s.ctx x).drains.filterMap fun d => if d.left.any fun r => rangesMeet pa n r.1 r.2 then some d.ord else none)
    ++ ((s.ctx x).work.toList.filterMap fun w => if (s.workWrites x w).any fun r => rangesMeet pa n r.1 r.2 then some w.id else none)
    ++ s.jobs.filterMap fun j =>
      if j.task == (s.ctx x).task.getD 0 && j.unwritten && (s.sideNow j true).any fun g => rangesMeet pa n g.1 g.2 then some j.id else none
/-- The same, posted atomics included: what an own access to these bytes may have to wait for (09 R192, 10 R206). -/
def State.writers (s : State) (x : CtxId) (pa n : Nat) : List Nat :=
  ((s.ctx x).posted.filterMap fun p => if rangesMeet pa n p.2.1 p.2.2 then some p.1 else none) ++ s.engineWriters x pa n
/-- A load of these bytes waits: for every write that its context issued before this bundle. -/
def State.owes (s : State) (x : CtxId) (pa n : Nat) : Bool := (s.writers x pa n).any fun id => !(s.iss.first.any fun f => decide (f ≤ id))
/-- A store of these bytes freezes at issue until the writes of earlier segments have been performed (DESIGN CHOICE, log 124); those
that the open segment holds leave only when it commits, and the store goes behind them in the buffer (09 R192). -/
def State.storeOwes (s : State) (x : CtxId) (pa n : Nat) : Bool := (s.writers x pa n).any fun id => !(s.abortIds x).contains id
/-- An atomic of these bytes freezes at issue likewise for drains and jobs of earlier segments. -/
def State.engineOwes (s : State) (x : CtxId) (pa n : Nat) : Bool :=
  (s.engineWriters x pa n).any fun id => !(s.abortIds x).contains id

/-! ### Loads -/

/-- One byte a load touches: its physical address and the units it needs. -/
abbrev Touch := Nat × BitVec 2
/-- The units of a load in one line, as a mask. -/
def touchMask (l : List Touch) (line : Nat) : BitVec 256 :=
  l.foldl (fun m t => if t.1 / 128 = line then m ||| BitVec.ofNat 256 (t.2.toNat * 2 ^ (2 * (t.1 % 128))) else m) 0

/-- The masked units of a line written over data (09 R191). -/
def mergeUnits (old new : LineData) (mask : BitVec 256) : LineData :=
  BitVec.ofNat 1024 (natLanes 4 (fun i => (if mask.getLsbD i then new.extractLsb' (4 * i) 4 else old.extractLsb' (4 * i) 4).toNat) 256)
/-- What the open segment has stored in a range: its open line, over one that own writes held with the segment have closed
(`State.storeBytes`). -/
def Ctx.openView (c : Ctx) (line : Nat) : Option SbLine :=
  match c.sb.filter fun l => l.line == line && !l.committed with
  | [] => none
  | l :: t => some (t.foldl (fun v k => { k with mask := v.mask ||| k.mask, data := mergeUnits v.data k.data k.mask }) l)

/-- Where the units of a load in one range come from (09 R190): a line of the buffer, or L1 with the masked units of the
open line, or the load waits for a committed line. -/
inductive From where
  | buffer (l : SbLine)
  | l1 (own : Option SbLine)
  | wait
  deriving DecidableEq, Repr

def Ctx.loadFrom (c : Ctx) (line : Nat) (need : BitVec 256) : From :=
  let here := c.sb.filter fun l => l.line == line
  let comm := here.filter (·.committed)
  match c.openView line, (comm.filter fun l => (l.mask &&& need) != 0).reverse with
  | none, [] => .l1 none
  | none, k :: _ => if k.mask &&& need = need then .buffer k else .wait
  | some o, held =>
    if o.mask &&& need = need then .buffer o
    else if o.mask &&& need = 0 then
      (match held with
      | [] => .l1 none
      | k :: _ => if k.mask &&& need = need then .buffer k else .wait)
    else if comm.isEmpty then .l1 (some o) else .wait

/-- A request of a core about a line, on its way home; the messages of one pair keep their order (21 R376). -/
def State.sendReq (s : State) (core : BitVec 8) (line : Nat) (i : Event) : State :=
  if coreDie core = homeDie (line * 128) then
    s.laterAfter (fun j =>
      match j with
      | .ev (.gets c l _ _) | .ev (.getm c l) | .ev (.putm c l) | .ev (.invalidationAck c l _) => c == core && l == line
      | _ => false) (.ev i)
  else s.sendHome (coreDie core) (line * 128) (.ev i)

/-- A missing line is asked for, once (09 R187, 20 R363). -/
def State.askLine (s : State) (core : BitVec 8) (line : Nat) (coh : Bool) (guardTag : Nat) : State :=
  if (s.core core).missing.contains line then s
  else
    let s := s.modCore core fun k => { k with missing := line :: k.missing }
    s.sendReq core line (.gets core line coh guardTag)

/-- L1 as a load meets it: a line of a non-coherent page may be fetched afresh (11 R231). -/
def State.l1Look (s : State) (core : BitVec 8) (line : Nat) : State × Option L1Line :=
  match (s.core core).l1Find line with
  | some l =>
    if l.st = .nc then
      let (n, s) := s.draw .staleHit
      if n % 2 = 0 then (s, some l) else (s.modCore core fun k => k.l1Drop line, none)
    else (s, some l)
  | none => (s, none)

/-- The bytes of one line as a load reads them now; none where the line is missing, which is asked for. -/
def State.loadLine (s : State) (x : CtxId) (line : Nat) (ts : List Touch) (coh : Bool) (guardTag : Nat) :
    State × Option (List PByte) :=
  let byteOf (d : LineData) (t : Touch) : Byte := lineByte d (t.1 % 128)
  match (s.ctx x).loadFrom line (touchMask ts line) with
  | .wait => (s, none)
  | .buffer l => (s, some (ts.map fun t => ⟨t.1, some (byteOf l.data t), 0, 0⟩))
  | .l1 own =>
    let mk (v : Option LineData) (t : Touch) : PByte :=
      match own with
      | some o => ⟨t.1, v.map fun d => byteOf d t, byteOf o.data t, nibMask (unitBits o.mask (t.1 % 128))⟩
      | none => ⟨t.1, v.map fun d => byteOf d t, 0, 0⟩
    match s.l1Look x.core line with
    | (s, none) =>
      if (s.core x.core).stale.contains line then (s, none)
      else (s.askLine x.core line coh guardTag, some (ts.map (mk none)))
    | (s, some l) =>
      let s := if l.poison then s.faultPoison (line * 128) else s
      (s, some (ts.map (mk (some l.data))))

/-- The bytes of a load, line by line; none where it must wait before it issues. -/
def State.loadLines (s : State) (x : CtxId) (cohOf : Nat → Bool) (guardTag : Nat) (ts : List Touch) :
    List Nat → State × Option (List PByte)
  | [] => (s, some [])
  | line :: t =>
    let mine := ts.filter fun q => q.1 / 128 == line
    if mine.any fun q => s.owes x q.1 1 then (s, none)
    else
      match s.loadLine x line mine (cohOf line) guardTag with
      | (s, none) => (s, none)
      | (s, some bs) =>
        match s.loadLines x cohOf guardTag ts t with
        | (s, some rest) => (s, some (bs ++ rest))
        | (s, none) => (s, none)

/-- Whether a physical line lies on a coherent page of the access. -/
def cohLine (ps : Pages) (line : Nat) : Bool :=
  ps.any fun p => leafCoh p.2.leaf && p.2.pa (p.1 * 4096) / 4096 == line * 128 / 4096

/-- A memory load of bytes (09 R187, R190): what it reads, in the order of `ts`; none where it waits. -/
def State.loadBytes (s : State) (x : CtxId) (ps : Pages) (guardTag : Nat) (ts : List Touch) : State × Option (List PByte) :=
  match s.loadLines x (cohLine ps) guardTag ts (ts.map fun t => t.1 / 128).eraseDups with
  | (s, none) => (s, none)
  | (s, some bs) =>
    (s, some (ts.map fun t => (bs.find? fun b => b.pa == t.1).getD ⟨t.1, some 0, 0, 0⟩))

/-- Bytes that must be read before the bundle issues (a card, a plane byte of a store): none where they are not all there
yet, in which case the context freezes (10 R207, 12 R248). -/
def State.readNow (s : State) (x : CtxId) (ps : Pages) (guardTag : Nat) (va n : Nat) (tval : Word) :
    State × Option (List Byte) :=
  let ts : List Touch := (List.range n).map fun i => (pagePa ps (va + i), 3)
  match s.loadBytes x ps guardTag ts with
  | (s, none) => (s.blockOn tval, none)
  | (s, some bs) => if bs.all fun b => b.val.isSome then (s, some (bs.map (·.byte))) else (s.blockOn tval, none)

/-- A load result that waits for lines freezes its context after issue (09 R187). -/
def State.noteLate (s : State) (tval : Word) (bs : List PByte) : State :=
  if bs.all fun b => b.val.isSome then s
  else s.modIss fun i => { i with late := i.late <|> some (i.slot, tval) }

/-! ### The segment store buffer (09 R189) -/

/-- One byte a store writes: virtual and physical address, units, value. -/
structure Put where
  va : Nat
  pa : Nat
  units : BitVec 2
  val : Byte
  deriving DecidableEq, Repr

/-- The number of the last store to a byte of a line. -/
def SbLine.ordAt (l : SbLine) (i : Nat) : Nat := l.ords.foldl (fun n o => if unitBits o.2 i = 0 then n else max n o.1) 0
/-- The units of a byte noted with the number of its store. -/
def SbLine.stamp (l : SbLine) (ord : Nat) (p : Put) : List (Nat × BitVec 256) :=
  let u := BitVec.ofNat 256 (p.units.toNat * 2 ^ (2 * (p.pa % 128)))
  match l.ords.getLast? with
  | some (o, m) => if o = ord then l.ords.dropLast ++ [(o, m ||| u)] else l.ords ++ [(ord, u)]
  | none => [(ord, u)]
/-- A byte merged into a line of the buffer. -/
def SbLine.put (l : SbLine) (p : Put) : SbLine :=
  let off := p.pa % 128
  let m := nibMask p.units
  { l with
    mask := l.mask ||| BitVec.ofNat 256 (p.units.toNat * 2 ^ (2 * off))
    data := setLineByte l.data off ((lineByte l.data off &&& ~~~m) ||| (p.val &&& m)) }

/-- The open line of a range: the last one where own writes held with the segment have closed another. -/
def Ctx.openLine (c : Ctx) (line : Nat) : Option SbLine := (c.sb.filter fun l => l.line == line && !l.committed).getLast?
/-- Own writes that do not let bytes join a line: one that has to follow a byte which the line holds, or `puts`, and is no older
than one that has to precede another. -/
def State.splits (s : State) (x : CtxId) (l : SbLine) (puts : List Put) : Bool :=
  let here := puts.filter fun p => p.pa / 128 == l.line
  let before := here.flatMap fun p => s.writers x p.pa 1
  let after := (List.range 128).flatMap fun i =>
    if unitBits l.mask i = 0 ∨ here.any (fun p => p.pa % 128 = i) then [] else (s.writers x (l.line * 128 + i) 1).filter fun id => decide (l.ordAt i < id)
  before.any fun b => after.any fun a => decide (a ≤ b)
/-- The open line that a store may still join: every one but a line that would then have to be performed both before and
after writes held with the segment (09 R189, R192; DESIGN CHOICE, log 124). -/
def State.joinLine (s : State) (x : CtxId) (line : Nat) (puts : List Put) : Option SbLine :=
  ((s.ctx x).openLine line).filter fun l => !s.splits x l puts

/-- A store of bytes into the buffer: the overflow fault, a freeze, or the bytes merged into open lines (09 R189). -/
def State.storeBytes (s : State) (ps : Pages) (tensor : BitVec 24) (tval : Word) (puts : List Put) : State :=
  let x := s.iss.x
  let c := s.ctx x
  let lines := (puts.map fun p => p.pa / 128).eraseDups
  let new := lines.filter fun l => (s.joinLine x l puts).isNone
  let opened := (c.sb.filter fun l => !l.committed).length
  if puts.any fun p => s.storeOwes x p.pa 1 then s.blockOn tval
  else if 64 < opened + new.length then s.raise 0x0006 tval
  else if 64 < c.sb.length + new.length then s.blockOn tval
  else
    let s := new.foldl (fun s line =>
      let (id, s) := s.newId
      let va := ((puts.find? fun p => p.pa / 128 == line).map (·.va)).getD 0
      let l : SbLine := { id := id, line := line, mask := 0, data := 0, committed := false, coh := cohLine ps line
                          tensor := tensor, va := BitVec.ofNat 64 va }
      s.modCtx x fun c => { c with sb := c.sb ++ [l] }) s
    let mine := lines.filterMap fun l => ((s.ctx x).openLine l).map (·.id)
    let ord := s.nextId
    s.modCtx x fun c => { c with sb := puts.foldl (fun sb p =>
      updWhere (fun l => l.line == p.pa / 128 && mine.contains l.id) (fun l => { l.put p with
        ords := l.stamp ord p, tensor := if l.tensor = 0 then tensor else l.tensor }) sb) c.sb }

/-! ### Elements of a page's format (04 R68, R73-R75, R81) -/

/-- One element of a memory operand: its lane, its first byte, its bytes, its half, and its plane byte. -/
structure EltAt where
  lane : Nat
  va : Nat
  n : Nat
  hi : Bool
  plane : Option Nat
  deriving DecidableEq, Repr

/-- The bytes that n consecutive elements fill. -/
def bytesOfN (w n : Nat) : Nat := if w = 4 then (n + 1) / 2 else n * eltBytes w
/-- The element position of a byte offset (04 R68). -/
def eltPos (w byte : Nat) : Nat := if w = 4 then 2 * byte else byte / eltBytes w
/-- The byte offset of an element position. -/
def eltByte (w p : Nat) : Nat := if w = 4 then p / 2 else p * eltBytes w
/-- The block of element i (04 R73). -/
def blockOf (geom : Nat) (i : Nat) : Nat :=
  match geom with
  | 1 => i / 16
  | 2 => i / 32
  | 3 => i / 64
  | _ => i / 64 / 8 * 8 + i % 64 / 8
/-- The number of blocks of n elements. -/
def blockCount (geom nel : Nat) : Nat :=
  match geom with
  | 0 => 0
  | 1 => (nel + 15) / 16
  | 2 => (nel + 31) / 32
  | 3 => (nel + 63) / 64
  | _ => nel / 64
/-- The scale plane's offset from the base: size rounded up to a multiple of 64 (04 R73). -/
def planeOff (size : Nat) : Nat := (size + 63) / 64 * 64

/-- The element at position p of a tensor. -/
def Extent.elt (e : Extent) (f : FmtSlot) (lane p : Nat) : EltAt :=
  { lane := lane, va := e.base + eltByte f.width p, n := eltBytes f.width, hi := f.width == 4 && p % 2 == 1
    plane := if f.geom = 0 then none else some (e.base + planeOff e.size + blockOf f.geom.toNat p) }

/-- The slot that the elements of an access go through: that of the page of the first element of an active lane, found with the
width of the page at the access's own address; with no active lane, that page's own (DEDUCED, log 12). -/
def State.vecSlot (s : State) (x : CtxId) (e : Extent) (off : Int) (elts : Extent → FmtSlot → List (Option EltAt)) :
    Option (BitVec 5) :=
  match (elts e (s.slotAt x e off)).filterMap id with
  | [] => s.pageSlot x e off
  | q :: _ => s.pageSlot x e ((q.va : Int) - e.base)

/-- The touches of an element: its bytes with the units it needs. -/
def EltAt.touches (e : EltAt) (ps : Pages) (w : Nat) : List Touch :=
  (List.range e.n).map fun i => (pagePa ps (e.va + i), if w = 4 then (if e.hi then 2 else 1) else 3)
def EltAt.planeTouch (e : EltAt) (ps : Pages) : List Touch :=
  match e.plane with
  | some v => [(pagePa ps v, 3)]
  | none => []
def EltAt.planeBytes (e : EltAt) : List (Nat × Nat) :=
  match e.plane with
  | some v => [(v, 1)]
  | none => []

/-- Checks 2 to 5, 7 and 8 of a vector access over the elements of its active lanes (09 R186, R194): the tensor's extent,
the format and the translations where it passes. `off` is the byte offset of the access, `al` whether LDV's alignment
is required, `elts` the element of each active lane. DESIGN CHOICE (log 136): with no active lane, where the rule names no
element to check, a tensor that does not exist still raises the bound fault and LDV and STV still align `va`. -/
def State.vecOperand (s : State) (a : Word) (off : Int) (al : Bool) (write : Bool)
    (elts : Extent → FmtSlot → List (Option EltAt)) : State × Option (Extent × FmtSlot × List EltAt × Pages) :=
  let x := s.iss.x
  match s.extent? x (addrId a) with
  | none => (s.raise 0x0003 (BitVec.ofInt 64 off), none)
  | some e =>
    let n := s.vecSlot x e off elts
    let f := (n.map fun n => (s.ctx x).readFmt n).getD {}
    let tval := BitVec.ofInt 64 (e.base + off)
    let es := elts e f
    if es.any fun q => match q with
        | some q => decide (e.base + e.size < q.va + q.n)
        | none => true
    then (s.raise 0x0003 tval, none)
    else
      let es := es.filterMap id
      if al && decide ((e.base + off) % eltBytes f.width ≠ 0) then (s.raise 0x0004 tval, none)
      else
        match s.checkScaled x (addrId a) tval n f.geom (es.map fun q => (q.va, q.n)) (es.flatMap (·.planeBytes)) ⟨write, true, false⟩ with
        | (s, .fault code v imm) => (s.raise code v imm, none)
        | (s, .miss items) => (items.foldl (fun s i => s.missOn i) s, none)
        | (s, .block v) => (s.blockOn v, none)
        | (s, .ok ps) => (s, some (e, f, es, ps))

/-- The lanes of a mask that are one. -/
def activeLanes (m : Mask) : List Nat := (List.range 64).filter fun i => m.getLsbD i

/-- The elements of LDV and STV: element i at position i from byte offset `off` (09 R186). The bound check precedes the
alignment check (09 R184), so a misaligned element keeps its own bytes. -/
def rowElts (m : Mask) (off : Int) (e : Extent) (f : FmtSlot) : List (Option EltAt) :=
  (activeLanes m).map fun i =>
    let b : Int := off + eltByte f.width i
    if b < 0 then none
    else some { e.elt f i (eltPos f.width b.toNat + (if f.width = 4 then i % 2 else 0)) with va := e.base + b.toNat }
/-- The elements of LDG and STG: lane i at the position of byte `off` plus its index (09 R186). -/
def gatherElts (m : Mask) (off : Nat) (idx : Nat → BitVec 32) (e : Extent) (f : FmtSlot) : List (Option EltAt) :=
  (activeLanes m).map fun i => some (e.elt f i (eltPos f.width off + (idx i).toNat))

/-- A vector load's element results (04 R81), with what they still wait for. -/
def State.loadElts (s : State) (e : Extent) (f : FmtSlot) (es : List EltAt) (ps : Pages) (tval : Word) :
    State × Option (List LoadElt) :=
  let ts := es.flatMap fun q => q.touches ps f.width ++ q.planeTouch ps
  match s.loadBytes s.iss.x ps e.guardTag ts with
  | (s, none) => (s.blockOn tval, none)
  | (s, some bs) =>
    let get (t : Touch) : PByte := (bs.find? fun b => b.pa == t.1).getD ⟨t.1, some 0, 0, 0⟩
    let mk (q : EltAt) : LoadElt :=
      { lane := q.lane, bytes := (q.touches ps f.width).map get, hi := q.hi, fmt := f, shift := ((q.planeTouch ps).map get).head? }
    (s.noteLate tval bs, some (es.map mk))

/-- How a store reads a lane (09 R193). -/
def laneValue (lt : LaneTy) (b : BitVec 32) : XVal :=
  match lt with
  | .f32 => f32 b
  | .i32 => XVal.ofInt b.toInt
  | .u32 => .fin false b.toNat 0

/-- The bytes of a vector store (09 R194): each lane rounded to the page's format, its shift read now. -/
def State.storeElts (s : State) (a : Word) (e : Extent) (f : FmtSlot) (es : List EltAt) (ps : Pages) (tval : Word)
    (lt : LaneTy) (v : VWord) : State :=
  let go (acc : State × Option (List Put)) (q : EltAt) : State × Option (List Put) :=
    match acc with
    | (s, none) => (s, none)
    | (s, some puts) =>
      let shift : State × Option Int :=
        match q.plane with
        | none => (s, some 0)
        | some pv =>
          match s.readNow s.iss.x ps e.guardTag pv 1 tval with
          | (s, some (b :: _)) => (s, some (byteInt b))
          | (s, _) => (s, none)
      match shift with
      | (s, none) => (s, none)
      | (s, some k) =>
        let code := roundTo ((laneValue lt (lane v q.lane)).scale (-k)) f.num .ne
        let stored := if f.width = 4 then code * 17 else code
        let put (i : Nat) : Put :=
          { va := q.va + i, pa := pagePa ps (q.va + i), units := if f.width = 4 then (if q.hi then 2 else 1) else 3
            val := BitVec.ofNat 8 (stored / 2 ^ (8 * i)) }
        (s, some (puts ++ (List.range q.n).map put))
  match es.foldl go (s, some []) with
  | (s, none) => s
  | (s, some puts) => s.storeBytes ps (addrId a) tval puts

end Sys2Proof.Machine
end

