-- ==== Sys2Proof/Machine/Coherence.lean ====
section
/-! DEFINITION. The directory of a home die, the L1s, the drains of the store buffer, and the accesses performed at home
(09 R187, R191, 11 R227-R231, 20 R356-R365). -/

namespace Sys2Proof.Machine

/-! ### The directory (20 R362-R365) -/

def State.dirEntry? (s : State) (line : Nat) : Option DirEntry := (s.die (homeDie (line * 128))).dir.find? fun e => e.line == line
def State.modDir (s : State) (line : Nat) (f : DirEntry → DirEntry) : State :=
  s.modDie (homeDie (line * 128)) fun z => { z with dir := updWhere (fun e => e.line == line) f z.dir }
def State.dropDir (s : State) (line : Nat) : State :=
  s.modDie (homeDie (line * 128)) fun z => { z with dir := z.dir.filter fun e => e.line != line }
/-- An entry made or used last stands first (20 R365). -/
def State.touchDir (s : State) (e : DirEntry) : State :=
  s.modDie (homeDie (e.line * 128)) fun z => { z with dir := e :: z.dir.filter fun q => q.line != e.line }
/-- A sharer added: up to four exactly, beyond that by groups of eight cores (20 R362). -/
def DirEntry.addSharer (e : DirEntry) (c : BitVec 8) : DirEntry :=
  let bit (c : BitVec 8) : BitVec 32 := BitVec.ofNat 32 (2 ^ (c.toNat / 8))
  match e.groups with
  | some g => { e with groups := some (g ||| bit c) }
  | none =>
    if e.sharers.contains c then e
    else if e.sharers.length < 4 then { e with sharers := e.sharers ++ [c] }
    else { e with sharers := [], groups := some (e.sharers.foldl (fun g q => g ||| bit q) (bit c)) }
/-- Invalidations or recalls go out, and the entry waits for their acknowledgements. -/
def State.recall (s : State) (e : DirEntry) (st : DirSt) (cores : List (BitVec 8)) (kind : Recall) (act : Option Act) : State :=
  let s := s.touchDir { e with st := st, awaiting := cores, act := act }
  cores.foldl (fun s c => s.sendLine (homeDie (e.line * 128)) (coreDie c) c e.line (.ev (.invalidation c e.line kind))) s

/-- What a request does about a line that is transient: it queues (20 R364). -/
def State.queueDir (s : State) (line : Nat) (act : Act) : State :=
  s.modDir line fun e => { e with queue := e.queue ++ [act] }

/-- Before an access is performed at home, the directory removes every L1 copy of the line (a write) or brings the owner's
data home (a read); the act waits until it has. None where nothing stands in the way (20 R363, 11 R240). -/
def State.clearLine (s : State) (line : Nat) (write : Bool) (act : Act) : Option State :=
  match s.dirEntry? line with
  | none => none
  | some e =>
    if e.transient then some (s.queueDir line act)
    else if e.st = .s then (if write then some (s.recall e .th e.targets .inv (some act)) else none)
    else some (s.recall e (if write then .th else .ts) e.targets (if write then .toI else .toS) (some act))

/-- The same over several lines. -/
def State.clearLines (s : State) (write : Bool) (act : Act) : List Nat → Option State
  | [] => none
  | l :: t =>
    match s.clearLine l write act with
    | some s => some s
    | none => s.clearLines write act t

/-- Acts that run next in this dc, in order, before everything else that is due. -/
def State.next (s : State) (l : List Act) : State := { s with agenda := l.map (fun a => (s.dc, a)) ++ s.agenda }

/-- The set of a line in its home slice (20 R351, R362): 256 sets for each channel and for each slice of the pool. -/
def dirSet (line : Nat) : Bool × Nat × Nat :=
  (((memAt (line * 128)).map (·.1)) == some .pool, chanHash (line * 128), line % 256)

/-- Room in the directory set of a line; the least recently used entry that is not transient is evicted first (20 R365).
None where there is room. -/
def State.dirRoom (s : State) (line : Nat) (act : Act) : Option State :=
  let d := homeDie (line * 128)
  let set := (s.die d).dir.filter fun e => dirSet e.line == dirSet line
  if set.length < 16 then none
  else
    match (set.filter fun e => !e.transient).getLast? with
    | none => some (s.later act)
    | some e =>
      let s := s.count d fun c => { c with dirovf := satInc c.dirovf }
      some (s.recall { e with evict := true } .th e.targets (if e.st = .s then .inv else .toI) (some act))

/-- An acknowledgement, with the data it carries (20 R364). The last one ends the transient state; the act that waited and
the requests queued behind it follow in order. -/
def State.ackDir (s : State) (core : BitVec 8) (line : Nat) (data : Option LineData) : State :=
  let s := match data with
    | some d => (s.homeWriteAt (line * 128) (natToBytes d.toNat 128)).2
    | none => s
  match s.dirEntry? line with
  | none => s
  | some e =>
    let left := e.awaiting.filter (· != core)
    if !e.transient || e.awaiting.isEmpty then s
    else if !left.isEmpty then s.modDir line fun e => { e with awaiting := left }
    else
      let s := if e.st = .ts then s.touchDir { e with st := .s, awaiting := [], act := none, queue := [] } else s.dropDir line
      s.next (e.act.toList ++ e.queue)

/-! ### L1 (09 R187) -/

/-- The set of a line in a 16-way L1 of 2 MiB. -/
def l1Set (line : Nat) : Nat := line % 1024

/-- Room for a line: where its set is full, a line of open choice leaves it (09 R187, 20 R363). -/
def State.l1Room (s : State) (core : BitVec 8) (line : Nat) : State :=
  let set := (s.core core).l1.filter fun l => l1Set l.line == l1Set line && l.line != line
  if set.length < 16 then s
  else
    let (n, s) := s.draw .l1Victim
    match set[n % set.length]? with
    | none => s
    | some v =>
      if v.st = .e ∨ v.st = .m then s.sendReq core v.line (.putm core v.line)
      else s.modCore core fun k => k.l1Drop v.line

/-- The line as an L1 keeps it after a fill: data that it owns already is newer (20 R362). -/
def Core.l1Put (k : Core) (l : L1Line) : Core :=
  let l := match k.l1Find l.line with
    | some o => if o.st = .e ∨ o.st = .m then { o with st := if l.st = .m then .m else o.st } else l
    | none => l
  { k with l1 := l :: (k.l1Drop l.line).l1 }

/-- The bytes of a line that have a masked unit. -/
def SbLine.bytes (l : SbLine) : List Nat := (List.range 128).filter fun i => l.mask.extractLsb' (2 * i) 2 != 0

/-- A monitor event for every 64-byte line that a drain touches (09 R198). -/
def State.wakeDrain (s : State) (l : SbLine) : State :=
  (l.bytes.map fun i => (l.line * 128 + i) / 64).eraseDups.foldl (fun s q => s.wakeMons (q * 64) 64) s

/-- The own L1 copies of a line take a drained line in, but one of the black-box ring, where writes are discarded (22 R405). -/
def Core.l1Merge (k : Core) (l : SbLine) (st : LineSt → LineSt) : Core :=
  if ringByte (l.line * 128) then k
  else { k with
    l1 := updWhere (fun (q : L1Line) => q.line == l.line) (fun q => { q with st := st q.st, data := mergeUnits q.data l.data l.mask }) k.l1 }
/-- A coherent line drain performed in the L1, in state M (09 R191, 11 R227). -/
def State.drainInL1 (s : State) (x : CtxId) (l : SbLine) : State :=
  let s := s.modCore x.core fun k => k.l1Merge l fun _ => .m
  ((s.modCtx x fun c => (c.dropLine l.id).done l.id).noteWrite fun a n => rangesMeet a n (l.line * 128) 128).wakeDrain l

/-- A non-coherent line drain performed at home; the core's own copy is updated (11 R231). -/
def State.drainAtHome (s : State) (x : CtxId) (l : SbLine) : State :=
  let cells := l.bytes.map fun i =>
    let a := l.line * 128 + i
    let m := nibMask (unitBits l.mask i)
    (a, (cellsRead s.mem.cells a &&& ~~~m) ||| (lineByte l.data i &&& m))
  let (dead, s) := s.homeWrite cells
  let s := s.modCore x.core fun k => (k.l1Merge l id).staleFills (· == l.line)
  if dead then (s.countFailure x l.id (homeDie (l.line * 128)) true).modCtx x fun c => c.dropLine l.id
  else s.modCtx x fun c => (c.dropLine l.id).done l.id

/-- The physical stretches of the rows of a gather, as its index list names them now (10 R203). -/
def State.gatherNow (s : State) (j : Job) : List (Nat × Nat) :=
  match j.src, s.task? j.task with
  | .mem tensor off0 _, some t =>
    (match s.extent? ((s.ctxOfTask j.task).getD j.x) tensor with
    | none => []
    | some e =>
      (List.range (if j.rb = 0 then 0 else (j.len + j.rb - 1) / j.rb)).flatMap fun i =>
        let off : Int := off0 + (bytesToNat (cellsReadN (s.core j.x.core).sp (j.idx + 4 * i) 4) : Int) * j.sstr
        if off < 0 then [] else s.mappedNow j.x.die t.troot (e.base + off.toNat) j.rb)
  | _, _ => []
/-- Whether a job has still to read bytes of a line (10 R206): by blocks where bytes are copied as they stand; else while it
has a block to read. -/
def State.jobReads (s : State) (j : Job) (line : Nat) : Bool :=
  let hit (a n : Nat) : Bool := rangesMeet (line * 128) 128 a n
  !j.todo.isEmpty &&
    match j.kind with
    | .copy => (j.src.segs.any fun g => hit g.pa g.n && j.todo.any fun b => rangesMeet (b * 512) 512 g.off g.n)
        || (j.src.segs.foldl (fun m g => m + g.n) 0 < j.len && (s.sideNow j false).any fun g => hit g.1 g.2)
    | .gather => (s.gatherNow j).any fun g => hit g.1 g.2
    | _ => ((s.sideNow j false).any fun g => hit g.1 g.2) || (j.sshift ++ j.dshift).any fun g => hit g.pa g.n
/-- Whether a committed line must still wait: for an older line of its range; for the reads of a job issued before its segment
committed (10 R206); for an earlier posted atomic, drain or job that writes its bytes (09 R192). -/
def State.drainWaits (s : State) (x : CtxId) (l : SbLine) : Bool :=
  let c := s.ctx x
  (c.sb.any fun q => q.committed && q.line == l.line && decide (q.id < l.id))
    || (s.jobs.any fun j => j.task == c.task.getD 0 && decide (j.id < l.id) && s.jobReads j l.line)
    || (!(s.writers x (l.line * 128) 128).isEmpty && (List.range 128).any fun i =>
      unitBits l.mask i != 0 && (s.writers x (l.line * 128 + i) 1).any fun id => decide (id < l.ordAt i))

/-! ### The poison that a slot receives (14 R282, R283) -/

/-- The tensor that engine work of the open segment is to write. -/
def State.workOut (s : State) (x : CtxId) (w : Work) : List (BitVec 24) :=
  if !w.born then []
  else
    match w.kind with
    | .mgemm => if (s.descWord x w 2).getLsbD 32 then [addrId (s.descWord x w 4)] else []
    | .drain _ none tad .. => [addrId tad]
    | _ => []
/-- The drop depth (12 R252): one more than the largest RDEP among the inputs that are dropped, 0 where none is. -/
def State.dropDepth (s : State) (t : Tensor) : Nat :=
  let ds := t.rin.filterMap fun i => (s.tensor? i).bind fun z => if z.st = 6 then some z.rdep else none
  if ds.isEmpty then 0 else 1 + ds.foldl max 0

/-- The outputs of a segment that consumed two uncorrectable errors (14 R283). -/
def State.poisonOutputs (s : State) (x : CtxId) : State :=
  let c := s.ctx x
  let fromLines := (c.sb.filter fun l => !l.committed).map (·.tensor)
  let fromDrains := c.drains.filterMap fun d =>
    match d.tgt with
    | .mem _ _ t => if d.born then some t else none
    | .sp _ _ => none
  let fromJobs := s.jobs.filterMap fun j =>
    match j.dst with
    | .mem t _ _ => if j.x == x && j.born then some t else none
    | .sp _ => none
  let fromWork := c.seg.outs ++ c.work.toList.flatMap (s.workOut x)
  ((fromLines ++ fromDrains ++ fromJobs ++ fromWork).filter (· != 0)).eraseDups.foldl (fun s id =>
    match s.tensor? id with
    | none => s
    | some t =>
      let st : BitVec 4 := if t.rcp = 0 then 7 else 6
      let n := (t.alloc + 4095) / 4096
      let s := s.setLeaves t.home t.root t.base (if st = 7 then 6 else 5) [] n
      (s.modTensor id fun t => { t with st := st, rdep := if st = 6 then s.dropDepth t else t.rdep, moving := none, refill := none }).tlbiPages (rootSpid t.root) t.base n) s

/-- A slot of a context received bad data: the segment rewinds, or at the second time its outputs are poisoned and the
task ends (14 R282, R283). -/
def State.consumePoison (s : State) (x : CtxId) (pa : Nat) : State :=
  let s := s.logPoison x (pa / 512) false
  if (s.ctx x).seg.uncorrectable then
    let entry := (s.ctx x).entryPc
    ((s.poisonOutputs x).abort x).endTask x 6 0x0703 (some entry)
  else
    let s := s.abort x
    (s.modCtx x fun c => { c with seg := { c.seg with uncorrectable := true } }).modOwnTask x fun t =>
      { t with rewound := true, rdvPassed := [] }

/-! ### Fills -/

/-- The bytes that a line brings to a load. -/
def PByte.fill (b : PByte) (line : Nat) (d : LineData) : PByte :=
  if b.pa / 128 = line ∧ b.val.isNone then { b with val := some (lineByte d (b.pa % 128)) } else b
def Res.fill (r : Res) (line : Nat) (d : LineData) : Res :=
  match r with
  | .loadG n bs sx => .loadG n (bs.map fun b => b.fill line d) sx
  | .loadV n es => .loadV n (es.map fun (e : LoadElt) => { e with
      bytes := e.bytes.map (fun b => b.fill line d), shift := e.shift.map fun b => b.fill line d })
  | r => r
/-- Whether a load still waits for a line. -/
def PByte.waits (b : PByte) (p : Nat → Bool) : Bool := b.val.isNone && p (b.pa / 128)
def Res.waits (r : Res) (p : Nat → Bool) : Bool :=
  match r with
  | .loadG _ bs _ => bs.any fun b => b.waits p
  | .loadV _ es => es.any fun e => (e.bytes.any fun b => b.waits p) || (e.shift.toList.any fun b => b.waits p)
  | _ => false
def Ctx.loadWaits (c : Ctx) (p : Nat → Bool) : Bool := c.flow.inflight.any fun f => f.res.waits p

/-- The lower slot of two, in PRES order. -/
def lowerSlot (a : Option (Slot × Word)) (b : Slot × Word) : Option (Slot × Word) :=
  match a with
  | some p => if p.1.idx ≤ b.1.idx then some p else some b
  | none => some b
/-- What a context waits for with its bundle's accesses: the lowest slot of those whose fill or reply is still to come (18 R335); the
freeze ends with the last of them, and its count goes on until then. -/
def Ctx.refreeze (c : Ctx) (bundle : BAddr) : Ctx :=
  let f := c.flow
  let fills := if c.loadWaits (fun _ => true) then [f.missed.getD (.L, 0)] else []
  let asks := f.replies.map fun id => ((f.asks.find? fun a => a.1 == id).map (·.2)).getD (.S, 0)
  match (fills ++ asks).foldl lowerSlot none with
  | none => { c with flow := { f with freeze := none, frozen := 0 } }
  | some p => { c with flow := { f with freeze := some ⟨if f.replies.isEmpty then .fills else .reply, p.1, p.2, bundle⟩ } }
/-- A filled line reaches the loads of a context; a freeze for fills ends with the last one. -/
def Ctx.fillLine (c : Ctx) (line : Nat) (d : LineData) : Ctx :=
  let c := { c with flow := { c.flow with
    inflight := c.flow.inflight.map fun (f : InFlight) => { f with res := f.res.fill line d } } }
  match c.flow.freeze with
  | some f => if f.why = .fills ∨ f.why = .reply then c.refreeze f.bundle else c
  | none => c

/-- The lines of a context that waited for the right to write are drained, oldest first. -/
def State.drainReady (s : State) (x : CtxId) (line : Nat) : State :=
  (((s.ctx x).sb.filter fun l => l.line == line && l.committed && l.draining)).foldl (fun s l => s.drainInL1 x l) s

/-- A line arrives at an L1 (09 R187, 20 R363). One that may be older than a write or an ACQ of the core serves the loads that
wait for it, and does not stay. The right to write does not answer a request to read. -/
def State.fillL1 (s : State) (core : BitVec 8) (line : Nat) (data : LineData) (st : LineSt) (guardTag : Nat) (poison : Bool) :
    State :=
  let old := st != .m && (s.core core).stale.contains line
  let s := if st = .m then s else s.modCore core fun k => k.gotLine line
  let s := if old then s else (s.l1Room core line).modCore core fun k => k.l1Put ⟨line, st, data, guardTag, poison⟩
  let d := ((s.core core).l1Find line).map (·.data)
  let s := [false, true].foldl (fun s cx =>
    let x : CtxId := ⟨core, cx⟩
    if poison && (s.ctx x).loadWaits (· == line) then s.consumePoison x (line * 128)
    else s.modCtx x fun c => c.fillLine line (d.getD data)) s
  if st = .m then (s.drainReady ⟨core, false⟩ line).drainReady ⟨core, true⟩ line else s

/-! ### Copies removed for a write at home (10 R206, 09 R197) -/

/-- The issuing core's own copies of non-coherent lines go when its atomic or copy is performed. -/
def State.dropOwn (s : State) (core : BitVec 8) (lines : List Nat) : State :=
  s.modCore core fun k => Core.staleFills { k with l1 := k.l1.filter fun l => !(l.st == .nc && lines.contains l.line) } lines.contains

/-! ### Where engine writes still go (09 R195) -/

/-- The bytes of block j among n: first offset and count. -/
def blockSpan (len j : Nat) : Nat × Nat := (512 * j, min 512 (len - 512 * j))

/-- Elements held in n stored bytes. -/
def eltsIn (w n : Nat) : Nat := if w = 4 then 2 * n else n / eltBytes w
/-- The number of blocks of a job's data. -/
def Job.dataBlocks (j : Job) : Nat := (j.len + 511) / 512
/-- The first element and the number of elements that block b of a conversion carries. -/
def Job.eltSpan (j : Job) (b : Nat) : Nat × Nat :=
  let w := j.sfmt.width
  let (o, n) := blockSpan j.len b
  (eltsIn w o, min (eltsIn w n) (j.nelt - eltsIn w o))
/-- The bytes of the target that block b writes: first offset and count. -/
def Job.dstSpan (j : Job) (b : Nat) : Nat × Nat :=
  match j.kind with
  | .convert =>
    let (e, n) := j.eltSpan b
    (eltByte j.dfmt.width e, (if j.dfmt.width = 4 then (n + 1) / 2 else n * eltBytes j.dfmt.width))
  | _ => blockSpan j.len b
def Job.isFill (j : Job) : Bool :=
  match j.kind with
  | .fill _ => true
  | _ => false
/-- The banks of n bytes from a linear position. -/
def banksOf (pos n : Nat) : List Nat := if n = 0 then [] else ((List.range ((pos % 64 + n + 63) / 64)).map fun i => posBank (pos + 64 * i)).eraseDups
/-- The head dimension that engine work on a KV sequence meets: 128 where the sequence is unknown. -/
def State.workDim (s : State) (x : CtxId) (w : Work) : Nat :=
  match w.seq <|> s.kv? (addrId (s.descWord x w 1)) with
  | some q => 16 * 2 ^ q.dimc.toNat
  | none => 128
/-- The banks that engine work still writes: the status row of a macro; state and output rows of a MATTN; the target rows of
a carried drain to scratchpad (08 R173, R176, R179). -/
def State.workBanks (s : State) (x : CtxId) (w : Work) : List Nat :=
  match w.kind with
  | .mgemm => [w.bank]
  | .mattn =>
    let at_ (lo n : Nat) : List Nat := bankSet (((s.descWord x w 4).extractLsb' lo 6).toNat) ((n + 63) / 64)
    let dim := s.workDim x w
    bankSet w.bank 4 ++ at_ 17 (4 * dim) ++ bankSet (((s.descWord x w 4).extractLsb' 17 6).toNat + 8) 1
      ++ (if (s.descWord x w 2).getLsbD 46 then
            at_ 34 (let f := w.fmts.getD ((s.descWord x w 3).extractLsb' 37 5).toNat {}
                    if f.width = 4 then dim / 2 else dim * eltBytes f.width) else [])
  | .drain _ (some (bank, _, fo)) .. => bankSet bank ((colBytes (w.fmts.getD fo.toNat {}).width + 63) / 64)
  | .drain _ none .. => []
/-- Whether engine writes of the core not yet performed touch one of the banks (09 R195): blocks that have not landed, rows of
drains, status words, engine work of either context. -/
def State.engineBusy (s : State) (core : BitVec 8) (banks : List Nat) : Bool :=
  let hit (l : List Nat) : Bool := l.any banks.contains
  (s.jobs.any fun j => j.x.core == core && !j.isFill &&
    match j.dst with
    | .sp pos => (j.todo ++ j.due.map (·.1)).any fun b => hit (banksOf (pos + (j.dstSpan b).1) (j.dstSpan b).2)
    | .mem .. => false)
  || (s.agenda.any fun p =>
    match p.2 with
    | .w0 y _ bank _ _ => y.core == core && banks.contains (bank % 64)
    | _ => false)
  || [false, true].any fun cx =>
    let c := s.ctx ⟨core, cx⟩
    (c.drains.any fun d =>
      match d.tgt with
      | .sp bank _ => hit (bankSet bank ((colBytes d.fmt.width + 63) / 64))
      | .mem .. => false)
    || c.work.any fun w => hit (s.workBanks ⟨core, cx⟩ w)

end Sys2Proof.Machine
end

