-- ==== Sys2Proof/Machine/Scalar.lean ====
section
/-! DEFINITION. S-slot integer, predicate and address-register operations (06 R112-R120, R132). -/

namespace Sys2Proof.Machine

/-- A general register of the context whose bundle issues. -/
def State.gval (s : State) (r : GReg) : Word := s.cur.readG r
def State.pval (s : State) (r : PReg) : Bool := s.cur.readP r

/-- A three-register operation: gd receives f of the sources, readable `lat` cc later (06 R113, 05 R100). -/
def State.alu (s : State) (lat : Nat) (gd : GReg) (f : Word → Word → Word) (gs1 gs2 : GReg) : State :=
  s.post lat (.g gd (f (s.gval gs1) (s.gval gs2)))
/-- A one-register operation with a value known at issue. -/
def State.alu1 (s : State) (gd : GReg) (f : Word → Word) (gs1 : GReg) : State := s.post 1 (.g gd (f (s.gval gs1)))
/-- A predicate operation (06 R118). -/
def State.plog (s : State) (pd : PReg) (b : Bool) : State := s.post 1 (.p pd b)

/-- ADD (06 R113). -/
def execAdd (gd gs1 gs2 : GReg) (s : State) : Out := .next (s.alu 1 gd (fun a b => a + b) gs1 gs2)

/-- SUB (06 R113). -/
def execSub (gd gs1 gs2 : GReg) (s : State) : Out := .next (s.alu 1 gd (fun a b => a - b) gs1 gs2)

/-- MUL (06 R113). -/
def execMul (gd gs1 gs2 : GReg) (s : State) : Out := .next (s.alu 3 gd (fun a b => a * b) gs1 gs2)

/-- MULH (06 R113). -/
def execMulh (gd gs1 gs2 : GReg) (s : State) : Out := .next (s.alu 3 gd mulHigh gs1 gs2)

/-- MULHN (06 R113). -/
def execMulhn (gd gs1 gs2 : GReg) (s : State) : Out := .next (s.alu 3 gd mulHighN gs1 gs2)

/-- DIV (06 R113). -/
def execDiv (gd gs1 gs2 : GReg) (s : State) : Out := .next (s.alu 18 gd divS gs1 gs2)

/-- DIVN (06 R113). -/
def execDivn (gd gs1 gs2 : GReg) (s : State) : Out := .next (s.alu 18 gd divN gs1 gs2)

/-- REM (06 R113). -/
def execRem (gd gs1 gs2 : GReg) (s : State) : Out := .next (s.alu 18 gd remS gs1 gs2)

/-- REMN (06 R113). -/
def execRemn (gd gs1 gs2 : GReg) (s : State) : Out := .next (s.alu 18 gd remN gs1 gs2)

/-- AND (06 R113). -/
def execAnd (gd gs1 gs2 : GReg) (s : State) : Out := .next (s.alu 1 gd (fun a b => a &&& b) gs1 gs2)

/-- OR (06 R113). -/
def execOr (gd gs1 gs2 : GReg) (s : State) : Out := .next (s.alu 1 gd (fun a b => a ||| b) gs1 gs2)

/-- XOR (06 R113). -/
def execXor (gd gs1 gs2 : GReg) (s : State) : Out := .next (s.alu 1 gd (fun a b => a ^^^ b) gs1 gs2)

/-- ANDN (06 R113). -/
def execAndn (gd gs1 gs2 : GReg) (s : State) : Out := .next (s.alu 1 gd (fun a b => a &&& ~~~b) gs1 gs2)

/-- SHL (06 R113). -/
def execShl (gd gs1 gs2 : GReg) (s : State) : Out := .next (s.alu 1 gd (fun a b => a <<< amt6 b) gs1 gs2)

/-- SHR (06 R113). -/
def execShr (gd gs1 gs2 : GReg) (s : State) : Out := .next (s.alu 1 gd (fun a b => a >>> amt6 b) gs1 gs2)

/-- SHA (06 R113). -/
def execSha (gd gs1 gs2 : GReg) (s : State) : Out := .next (s.alu 1 gd (fun a b => a.sshiftRight (amt6 b)) gs1 gs2)

/-- ROT (06 R113). -/
def execRot (gd gs1 gs2 : GReg) (s : State) : Out := .next (s.alu 1 gd rotL gs1 gs2)

/-- MIN (06 R113). -/
def execMin (gd gs1 gs2 : GReg) (s : State) : Out := .next (s.alu 1 gd minS gs1 gs2)

/-- MAX (06 R113). -/
def execMax (gd gs1 gs2 : GReg) (s : State) : Out := .next (s.alu 1 gd maxS gs1 gs2)

/-- MINN (06 R113). -/
def execMinn (gd gs1 gs2 : GReg) (s : State) : Out := .next (s.alu 1 gd minN gs1 gs2)

/-- MAXN (06 R113). -/
def execMaxn (gd gs1 gs2 : GReg) (s : State) : Out := .next (s.alu 1 gd maxN gs1 gs2)

/-- CLZ (06 R113). -/
def execClz (gd gs1 : GReg) (s : State) : Out := .next (s.alu1 gd (fun a => BitVec.ofNat 64 (zerosAbove a.toNat 64)) gs1)

/-- CTZ (06 R113). -/
def execCtz (gd gs1 : GReg) (s : State) : Out := .next (s.alu1 gd (fun a => BitVec.ofNat 64 (zerosFrom a.toNat 0 64)) gs1)

/-- POPC (06 R113). -/
def execPopc (gd gs1 : GReg) (s : State) : Out := .next (s.alu1 gd (fun a => BitVec.ofNat 64 (onesBelow a.toNat 64)) gs1)

/-- SEL (06 R113). -/
def execSel (gd : GReg) (ps : PReg) (gs1 gs2 : GReg) (s : State) : Out := .next (s.post 1 (.g gd (if s.pval ps then s.gval gs1 else s.gval gs2)))

/-- ADDI (06 R116). -/
def execAddi (gd gs1 : GReg) (imm : BitVec 36) (s : State) : Out := .next (s.alu1 gd (fun a => a + imm.signExtend 64) gs1)

/-- ANDI (06 R116). -/
def execAndi (gd gs1 : GReg) (imm : BitVec 36) (s : State) : Out := .next (s.alu1 gd (fun a => a &&& imm.signExtend 64) gs1)

/-- ORI (06 R116). -/
def execOri (gd gs1 : GReg) (imm : BitVec 36) (s : State) : Out := .next (s.alu1 gd (fun a => a ||| imm.signExtend 64) gs1)

/-- XORI (06 R116). -/
def execXori (gd gs1 : GReg) (imm : BitVec 36) (s : State) : Out := .next (s.alu1 gd (fun a => a ^^^ imm.signExtend 64) gs1)

/-- SHLI (06 R116). -/
def execShli (gd gs1 : GReg) (n : BitVec 6) (s : State) : Out := .next (s.alu1 gd (fun a => a <<< n.toNat) gs1)

/-- SHRI (06 R116). -/
def execShri (gd gs1 : GReg) (n : BitVec 6) (s : State) : Out := .next (s.alu1 gd (fun a => a >>> n.toNat) gs1)

/-- SHAI (06 R116). -/
def execShai (gd gs1 : GReg) (n : BitVec 6) (s : State) : Out := .next (s.alu1 gd (fun a => a.sshiftRight n.toNat) gs1)

/-- MOVI (06 R116). -/
def execMovi (gd : GReg) (imm : BitVec 42) (s : State) : Out := .next (s.post 1 (.g gd (imm.signExtend 64)))

/-- MOVHI reads gd as a source at issue (06 R116). -/
def execMovhi (gd : GReg) (imm : BitVec 22) (s : State) : Out := .next (s.post 1 (.g gd (imm ++ (s.gval gd).extractLsb' 0 42)))

/-- CMPI (06 R117). -/
def execCmpi (pd : PReg) (gs1 : GReg) (imm : BitVec 27) (cond : Cond) (s : State) : Out := .next (s.plog pd (cond.holds (s.gval gs1) (imm.signExtend 64)))

/-- CMP (06 R117). -/
def execCmp (pd : PReg) (gs1 gs2 : GReg) (cond : Cond) (s : State) : Out := .next (s.plog pd (cond.holds (s.gval gs1) (s.gval gs2)))

/-- PAND (06 R118). -/
def execPand (pd ps1 ps2 : PReg) (s : State) : Out := .next (s.plog pd (s.pval ps1 && s.pval ps2))

/-- POR (06 R118). -/
def execPor (pd ps1 ps2 : PReg) (s : State) : Out := .next (s.plog pd (s.pval ps1 || s.pval ps2))

/-- PXOR (06 R118). -/
def execPxor (pd ps1 ps2 : PReg) (s : State) : Out := .next (s.plog pd (s.pval ps1 != s.pval ps2))

/-- PANDN (06 R118). -/
def execPandn (pd ps1 ps2 : PReg) (s : State) : Out := .next (s.plog pd (s.pval ps1 && !s.pval ps2))

/-- PNOT (06 R118). -/
def execPnot (pd ps1 : PReg) (s : State) : Out := .next (s.plog pd (!s.pval ps1))

/-- PMOV (06 R118). -/
def execPmov (pd ps1 : PReg) (s : State) : Out := .next (s.plog pd (s.pval ps1))

/-- An address-register result: the value, and the stride where it changes too (06 R120). -/
def State.postA (s : State) (ad : AReg) (v : Word) (st : Option (BitVec 40)) : State :=
  let s := s.post 1 (.a ad v)
  match st with
  | some t => s.post 1 (.stride ad t)
  | none => s

/-- AMOV (06 R120). -/
def execAmov (ad asr : AReg) (s : State) : Out := .next (s.postA ad (s.cur.readA asr) (some (s.cur.readStride asr)))
/-- AADD: offset + gs + imm * stride, modulo 2^40 (06 R120). -/
def execAadd (ad asr : AReg) (gs : GReg) (imm : BitVec 16) (s : State) : Out :=
  let st := s.cur.readStride asr
  let a := s.cur.readA asr
  let off := addrOff a + (s.gval gs).extractLsb' 0 40 + imm.signExtend 40 * st
  .next (s.postA ad (mkAddr (addrId a) off) (some st))
/-- AGET (06 R120). -/
def execAget (gd : GReg) (asr : AReg) (sel : AgetSel) (s : State) : Out :=
  let a := s.cur.readA asr
  .next (s.post 1 (.g gd (match sel with
    | .whole => a
    | .offset => (addrOff a).zeroExtend 64
    | .ident => (addrId a).zeroExtend 64
    | .stride => (s.cur.readStride asr).signExtend 64)))
/-- ABIND: the stride is kept (06 R120). -/
def execAbind (ad : AReg) (gs1 gs2 : GReg) (s : State) : Out :=
  .next (s.postA ad (mkAddr ((s.gval gs1).extractLsb' 0 24) ((s.gval gs2).extractLsb' 0 40)) none)
/-- ASTR (06 R120). -/
def execAstr (ad : AReg) (gs : GReg) (imm : BitVec 24) (s : State) : Out :=
  .next (s.post 1 (.stride ad ((s.gval gs).extractLsb' 0 40 + imm.signExtend 40)))

/-- Whether two registers of a file are equal whole (06 R132). -/
def Ctx.sameReg (c : Ctx) (x1 x2 : BitVec 6) (kind : ChkKind) : Bool :=
  let n (x : BitVec 6) : BitVec 4 := x.extractLsb' 0 4
  match kind with
  | .g => c.readG x1 == c.readG x2
  | .v => c.readV x1 == c.readV x2
  | .a => c.readA (n x1) == c.readA (n x2) && c.readStride (n x1) == c.readStride (n x2)
  | .k => c.readK (n x1) == c.readK (n x2)
/-- CHK (06 R132). -/
def execChk (x1 x2 : BitVec 6) (kind : ChkKind) (s : State) : Out :=
  .next (if s.cur.sameReg x1 x2 kind then s else s.raise 0x0012 0)
/-- CHKP (06 R132). -/
def execChkp (ps1 ps2 : PReg) (s : State) : Out := .next (if s.pval ps1 = s.pval ps2 then s else s.raise 0x0012 0)

end Sys2Proof.Machine
end

