-- ==== Sys2Proof/Machine/Control.lean ====
section
/-! DEFINITION. S-slot control: branches, hardware loops, launches, task end, traps, control registers (06 R121-R133). -/

namespace Sys2Proof.Machine

/-- A taken transfer: the next bundle, after 2 dc (05 R101, 06 R122). -/
def State.transfer (s : State) (t : BAddr) : State := s.modIss fun i => { i with target := some t, cost := 2 }

/-- BR (06 R121). -/
def execBr (off : BitVec 32) (s : State) : Out := .next (s.transfer (s.iss.pc + off.signExtend 51))
/-- BRC (06 R121, R117). -/
def execBrc (gs1 gs2 : GReg) (off : BitVec 24) (cond : Cond) (s : State) : Out :=
  .next (if cond.holds (s.gval gs1) (s.gval gs2) then s.transfer (s.iss.pc + off.signExtend 51) else s)
/-- JMP (06 R121). -/
def execJmp (gs : GReg) (s : State) : Out := .next (s.transfer ((s.gval gs).extractLsb' 0 51))
/-- CALL (06 R121). -/
def execCall (gd : GReg) (off : BitVec 32) (s : State) : Out :=
  .next ((s.post 1 (.g gd ((s.iss.pc + 1).zeroExtend 64))).transfer (s.iss.pc + off.signExtend 51))
/-- RET: as JMP (06 R121). -/
def execRet (gs : GReg) (s : State) : Out := .next (s.transfer ((s.gval gs).extractLsb' 0 51))

/-! ### Hardware loops (06 R123-R128) -/

/-- EndLevel (06 R125). -/
def LoopState.endLevel (l : LoopState) (j : CReg) : LoopState :=
  { l with act := l.act &&& ~~~(BitVec.ofNat 4 (2 ^ j.toNat)), pipe := if l.pipe ∧ l.plv = j then false else l.pipe }
/-- Level K and every deeper level ended. -/
def LoopState.endFrom (l : LoopState) (k : CReg) : LoopState :=
  ([0#2, 1#2, 2#2, 3#2].filter fun j => decide (k.toNat ≤ j.toNat)).foldl LoopState.endLevel l
/-- The innermost active level: the highest-numbered one. -/
def LoopState.innermost (l : LoopState) : Option CReg := [3#2, 2#2, 1#2, 0#2].find? fun j => l.act.getLsbD j.toNat
/-- p88 to p95 set to a byte, by the loop engine itself. -/
def setStages (p : BitVec 96) (b : BitVec 8) : BitVec 96 := (p &&& BitVec.ofNat 96 (2 ^ 88 - 1)) ||| BitVec.ofNat 96 (b.toNat * 2 ^ 88)
def stages (p : BitVec 96) : BitVec 8 := p.extractLsb' 88 8

/-- The loop engine after LOOP on level K with a count that is not zero (06 R125). -/
def Regs.startLoop (r : Regs) (k : CReg) (start fin : BAddr) (sm1 : BitVec 3) : Regs :=
  let l := r.loop.endFrom k
  let l := { l with
    act := l.act ||| BitVec.ofNat 4 (2 ^ k.toNat), start := l.start.set k.toNat start k.isLt, fin := l.fin.set k.toNat fin k.isLt }
  if sm1 = 0 then { r with loop := l }
  else { r with loop := { l with pipe := true, plv := k, sm1 := sm1 }, p := setStages r.p 1 }

/-- LOOP (06 R125). -/
def execLoop (lc : CReg) (gs : GReg) (off : BitVec 12) (sm1 : BitVec 3) (s : State) : Out :=
  let n := (s.gval gs).extractLsb' 0 32
  let fin := s.iss.pc + off.zeroExtend 51
  let s := s.modRegs s.iss.x fun r => ({ r with loop := r.loop.endFrom lc }).setLc lc n
  .next (if n = 0 then s.transfer (fin + 1) else s.modRegs s.iss.x fun r => r.startLoop lc (s.iss.pc + 1) fin sm1)

/-- LEXIT (06 R128). -/
def execLexit (lc : CReg) (off : BitVec 32) (s : State) : Out :=
  .next ((s.modRegs s.iss.x fun r => { r with loop := r.loop.endFrom lc }).transfer (s.iss.pc + off.signExtend 51))

/-- What a pass end does (06 R126): the registers, the next bundle, and whether the drain end is reached (Settle, then the
request is taken at Start). `fuel` bounds the levels that end together. -/
def Regs.passEnd (r : Regs) (k : CReg) : Nat → Regs × BAddr × Bool
  | 0 => (r, r.loop.fin[k.toNat]'k.isLt + 1, false)
  | fuel + 1 =>
    let piped := r.loop.pipe && r.loop.plv == k
    let lc := r.lc[k.toNat]'k.isLt
    let dec := if lc = 0 then 0 else lc - 1
    let st := stages r.p
    let lc' := if piped && !st.getLsbD 0 then lc else dec
    let st' := st <<< 1
    let keep : BitVec 8 := BitVec.ofNat 8 (2 ^ (r.loop.sm1.toNat + 1) - 1)
    let b0 := lc' != 0 && !r.loop.drn
    let st' : BitVec 8 := ((st' &&& keep) ||| (st &&& ~~~keep) ||| (if b0 then 1 else 0))
    let r := r.setLc k lc'
    let r := if piped then { r with p := setStages r.p st' } else r
    let live := if piped then (st' &&& keep) != 0 else b0
    if live then (r, r.loop.start[k.toNat]'k.isLt, false)
    else if r.loop.drn && lc' != 0 then
      let r := { r with loop := { r.loop with drn := false } }
      let r := if piped then { r with p := setStages r.p (stages r.p ||| 1) } else r
      (r, r.loop.start[k.toNat]'k.isLt, true)
    else
      let fin := r.loop.fin[k.toNat]'k.isLt
      let r := { r with loop := ({ r.loop with drn := false }).endLevel k }
      match [3#2, 2#2, 1#2, 0#2].find? fun j => r.loop.act.getLsbD j.toNat && decide (j.toNat < k.toNat) && r.loop.fin[j.toNat]'j.isLt == fin with
      | some j => r.passEnd j fuel
      | none => (r, fin + 1, false)

/-- The loop-engine word (06 R124). -/
def Regs.loopWord (r : Regs) : Word :=
  BitVec.ofNat 64 ((stages r.p).toNat * 2 ^ 56 + r.loop.act.toNat * 2 ^ 52 + r.loop.sm1.toNat * 2 ^ 49
    + (if r.loop.pipe then 2 ^ 48 else 0) + r.loop.plv.toNat * 2 ^ 46 + (if r.loop.drn then 2 ^ 45 else 0))

/-! ### Counted operations (03 R57) -/

/-- An operation that counts one in NS from its issue; past the ceiling of 96 its context freezes (03 R57). -/
def State.countNs (s : State) (k : Nat → State → State) : State :=
  if 96 ≤ s.cur.ns then s.blockOn 0
  else
    let (id, s) := s.newId
    k id (s.modCur fun c => c.addNs id)
/-- The same in NT, with its ceiling of 32. -/
def State.countNt (s : State) (k : Nat → State → State) : State :=
  if 32 ≤ s.cur.nt then s.blockOn 0
  else
    let (id, s) := s.newId
    k id (s.modCur fun c => c.addNt id)
/-- A load, with its ceiling of 48. -/
def State.countNl (s : State) (k : State → State) : State := if 48 ≤ s.cur.nl then s.blockOn 0 else k s

/-! ### Launches, task end and software traps -/

/-- SPAWN (06 R129, 18 R329): held with the segment, posted after the stores counted at its commit. -/
def execSpawn (gs : GReg) (q : BitVec 4) (s : State) : Out :=
  let a := s.gval gs
  .next (if a.extractLsb' 0 6 ≠ 0 then s.raise 0x0004 a
    else s.countNs fun id s =>
      s.stage (.after id (.ev (.spawnPost s.iss.x id q (a.extractLsb' 0 57) s.cur.sys.dbg s.cur.tregs.taskid))))

/-- TEND (06 R130). -/
def execTend (s : State) : Out := .next (s.modIss fun i => { i with ending := .tend })

/-- TRAP (06 R131): its bundle commits, and the cause is taken at the entry after it. -/
def execTrap (imm : BitVec 16) (s : State) : Out :=
  .next (s.endsSeg.modIss fun i => { i with ending := .trap imm })

/-! ### Control registers (03 R58-R64, 06 R133) -/

/-- FSTAT as a word (03 R63). -/
def fstatWord (f : BitVec 12) : Word := f.zeroExtend 64

/-- What MFC reads (03 R58-R64). -/
def Ctx.readCreg (c : Ctx) (x : CtxId) (num : BitVec 8) : Word :=
  let n := num.toNat
  if 0x10 ≤ n ∧ n ≤ 0x2F then (c.readFmt (BitVec.ofNat 5 (n - 0x10))).toWord
  else if 0x40 ≤ n ∧ n ≤ 0x4F then (c.readGen (BitVec.ofNat 4 (n - 0x40))).toWord
  else if 0x50 ≤ n ∧ n ≤ 0x53 then (c.readLc (BitVec.ofNat 2 (n - 0x50))).zeroExtend 64
  else
    match n with
    | 0x00 => c.tregs.vcore.zeroExtend 64
    | 0x01 => c.tregs.gsize.zeroExtend 64
    | 0x02 => c.tregs.taskid
    | 0x03 => BitVec.ofNat 64 (x.core.toNat * 2 + (if x.ctx then 1 else 0))
    | 0x04 => c.tregs.lbp.zeroExtend 64
    | 0x08 => BitVec.ofNat 64 c.nl
    | 0x09 => BitVec.ofNat 64 c.ns
    | 0x0A => BitVec.ofNat 64 c.nc
    | 0x0B => BitVec.ofNat 64 c.nt
    | 0x30 => c.regs.slen.zeroExtend 64
    | 0x31 => c.regs.rdmax.zeroExtend 64
    | 0x34 => c.tregs.spbase.zeroExtend 64
    | 0x35 => c.tregs.spsize.zeroExtend 64
    | 0x36 => c.tregs.spovf.zeroExtend 64
    | 0x38 => fstatWord c.regs.fstat
    | 0x39 => c.replays.zeroExtend 64
    | _ => 0

/-- MFC (06 R133). -/
def execMfc (gd : GReg) (num : BitVec 8) (s : State) : Out := .next (s.post 1 (.g gd (s.cur.readCreg s.iss.x num)))

/-- MTC (06 R133): illegal field values fault at issue (03 R60, R62). -/
def execMtc (num : BitVec 8) (gs : GReg) (s : State) : Out :=
  let v := s.gval gs
  let n := num.toNat
  .next
    (if 0x11 ≤ n ∧ n ≤ 0x2F ∧ (28 ≤ (v.extractLsb' 0 5).toNat ∨ 5 ≤ (v.extractLsb' 16 3).toNat) then s.raise 0x0005 0
     else if n = 0x30 ∧ v.extractLsb' 0 2 = 3 then s.raise 0x0001 0
     else if n = 0x31 ∧ (v.extractLsb' 0 3 = 0 ∨ 5 ≤ (v.extractLsb' 0 3).toNat) then s.raise 0x0001 0
     else s.post 1 (.creg num v))

end Sys2Proof.Machine
end

