-- ==== Sys2Proof/Machine/Vector.lean ====
section
/-! DEFINITION. V-slot lane operations, reductions and lane masks (07 R135-R155). -/

namespace Sys2Proof.Machine

/-! ### Shared forms -/

def State.vval (s : State) (v : VReg) : VWord := s.cur.readV v
/-- The lanes of vd under the write mask km receive f (07 R135). -/
def State.lanes (s : State) (lat : Nat) (vd : VReg) (km : KReg) (f : Nat → BitVec 32) : State :=
  s.post lat (.v vd (s.cur.readK km) (ofLanes f))
/-- Every lane of vd receives f. -/
def State.allLanes (s : State) (lat : Nat) (vd : VReg) (f : Nat → BitVec 32) : State :=
  s.post lat (.v vd (BitVec.allOnes 64) (ofLanes f))
/-- A binary integer lane operation (07 R138, R139). -/
def State.vbin (s : State) (vd vs1 : VReg) (src : VSrc) (km : KReg) (f : BitVec 32 → BitVec 32 → BitVec 32) : State :=
  s.lanes 2 vd km fun i => f (lane (s.vval vs1) i) (s.cur.srcLane src i)
/-- A binary32 lane operation of two registers. -/
def State.vflt (s : State) (vd vs1 vs2 : VReg) (km : KReg) (f : BitVec 32 → BitVec 32 → BitVec 32) : State :=
  s.lanes 4 vd km fun i => f (lane (s.vval vs1) i) (lane (s.vval vs2) i)
/-- A lane operation of one register. -/
def State.vone (s : State) (lat : Nat) (vd vs1 : VReg) (km : KReg) (f : BitVec 32 → BitVec 32) : State :=
  s.lanes lat vd km fun i => f (lane (s.vval vs1) i)

/-- An exact integer clamped to signed or unsigned 32 bits, or wrapped (07 R139). -/
def satInt (sat : Sat) (signed unsigned : Int) : BitVec 32 :=
  match sat with
  | .wrap => BitVec.ofInt 32 signed
  | .ss => BitVec.ofInt 32 (max (-(2 ^ 31)) (min (2 ^ 31 - 1) signed))
  | .us => BitVec.ofInt 32 (max 0 (min (2 ^ 32 - 1) unsigned))
def lane5 (b : BitVec 32) : Nat := b.toNat % 32

/-- VADD (07 R139). -/
def execVadd (vd vs1 : VReg) (src : VSrc) (km : KReg) (sat : Sat) (s : State) : Out := .next (s.vbin vd vs1 src km fun a b => satInt sat (a.toInt + b.toInt) (a.toNat + b.toNat))
/-- VSUB (07 R139). -/
def execVsub (vd vs1 : VReg) (src : VSrc) (km : KReg) (sat : Sat) (s : State) : Out := .next (s.vbin vd vs1 src km fun a b => satInt sat (a.toInt - b.toInt) ((a.toNat : Int) - b.toNat))
/-- VMUL (07 R139). -/
def execVmul (vd vs1 : VReg) (src : VSrc) (km : KReg) (_sat : Sat) (s : State) : Out := .next (s.vbin vd vs1 src km fun a b => a * b)
/-- VMULH (07 R139). -/
def execVmulh (vd vs1 : VReg) (src : VSrc) (km : KReg) (_sat : Sat) (s : State) : Out := .next (s.vbin vd vs1 src km fun a b => BitVec.ofInt 32 (a.toInt * b.toInt / 2 ^ 32))
/-- VMIN (07 R139). -/
def execVmin (vd vs1 : VReg) (src : VSrc) (km : KReg) (_sat : Sat) (s : State) : Out := .next (s.vbin vd vs1 src km fun a b => if a.slt b then a else b)
/-- VMAX (07 R139). -/
def execVmax (vd vs1 : VReg) (src : VSrc) (km : KReg) (_sat : Sat) (s : State) : Out := .next (s.vbin vd vs1 src km fun a b => if a.slt b then b else a)
/-- VMINN (07 R139). -/
def execVminn (vd vs1 : VReg) (src : VSrc) (km : KReg) (_sat : Sat) (s : State) : Out := .next (s.vbin vd vs1 src km fun a b => if a.ult b then a else b)
/-- VMAXN (07 R139). -/
def execVmaxn (vd vs1 : VReg) (src : VSrc) (km : KReg) (_sat : Sat) (s : State) : Out := .next (s.vbin vd vs1 src km fun a b => if a.ult b then b else a)
/-- VABS (07 R139). -/
def execVabs (vd vs1 : VReg) (km : KReg) (sat : Sat) (s : State) : Out := .next (s.vone 2 vd vs1 km fun a => satInt sat (if a.toInt < 0 then -a.toInt else a.toInt) 0)
/-- VAND (07 R139). -/
def execVand (vd vs1 : VReg) (src : VSrc) (km : KReg) (_sat : Sat) (s : State) : Out := .next (s.vbin vd vs1 src km fun a b => a &&& b)
/-- VOR (07 R139). -/
def execVor (vd vs1 : VReg) (src : VSrc) (km : KReg) (_sat : Sat) (s : State) : Out := .next (s.vbin vd vs1 src km fun a b => a ||| b)
/-- VXOR (07 R139). -/
def execVxor (vd vs1 : VReg) (src : VSrc) (km : KReg) (_sat : Sat) (s : State) : Out := .next (s.vbin vd vs1 src km fun a b => a ^^^ b)
/-- VANDN (07 R139). -/
def execVandn (vd vs1 : VReg) (src : VSrc) (km : KReg) (_sat : Sat) (s : State) : Out := .next (s.vbin vd vs1 src km fun a b => a &&& ~~~b)
/-- VSHL (07 R139). -/
def execVshl (vd vs1 : VReg) (src : VSrc) (km : KReg) (_sat : Sat) (s : State) : Out := .next (s.vbin vd vs1 src km fun a b => a <<< lane5 b)
/-- VSHR (07 R139). -/
def execVshr (vd vs1 : VReg) (src : VSrc) (km : KReg) (_sat : Sat) (s : State) : Out := .next (s.vbin vd vs1 src km fun a b => a >>> lane5 b)
/-- VSHA (07 R139). -/
def execVsha (vd vs1 : VReg) (src : VSrc) (km : KReg) (_sat : Sat) (s : State) : Out := .next (s.vbin vd vs1 src km fun a b => a.sshiftRight (lane5 b))
/-- VCMP (07 R140, R142). -/
def execVcmp (kd : KReg) (vs1 : VReg) (src : VSrc) (km : KReg) (cond : Cond) (s : State) : Out := .next (s.post 2 (.k kd (ofBits fun i => (s.cur.readK km).getLsbD i && cond.holds (lane (s.vval vs1) i) (s.cur.srcLane src i))))
/-- VSEL writes every lane (07 R139). -/
def execVsel (vd vs1 vs2 : VReg) (km : KReg) (s : State) : Out := .next (s.allLanes 2 vd fun i => if (s.cur.readK km).getLsbD i then lane (s.vval vs1) i else lane (s.vval vs2) i)
/-- VFADD (07 R144). -/
def execVfadd (vd vs1 vs2 : VReg) (km : KReg) (s : State) : Out := .next (s.vflt vd vs1 vs2 km f32Add)
/-- VFSUB (07 R144). -/
def execVfsub (vd vs1 vs2 : VReg) (km : KReg) (s : State) : Out := .next (s.vflt vd vs1 vs2 km f32Sub)
/-- VFMUL (07 R144). -/
def execVfmul (vd vs1 vs2 : VReg) (km : KReg) (s : State) : Out := .next (s.vflt vd vs1 vs2 km f32Mul)
/-- VFMIN (07 R144). -/
def execVfmin (vd vs1 vs2 : VReg) (km : KReg) (s : State) : Out := .next (s.vflt vd vs1 vs2 km f32Min)
/-- VFMAX (07 R144). -/
def execVfmax (vd vs1 vs2 : VReg) (km : KReg) (s : State) : Out := .next (s.vflt vd vs1 vs2 km f32Max)
/-- VFMA (07 R144). -/
def execVfma (vd vs1 vs2 vs3 : VReg) (km : KReg) (s : State) : Out := .next (s.lanes 4 vd km fun i => f32Fma (lane (s.vval vs1) i) (lane (s.vval vs2) i) (lane (s.vval vs3) i))
/-- VFMS (07 R144). -/
def execVfms (vd vs1 vs2 vs3 : VReg) (km : KReg) (s : State) : Out := .next (s.lanes 4 vd km fun i => f32Fms (lane (s.vval vs1) i) (lane (s.vval vs2) i) (lane (s.vval vs3) i))
/-- VFABS (07 R144). -/
def execVfabs (vd vs1 : VReg) (km : KReg) (s : State) : Out := .next (s.vone 4 vd vs1 km fun a => a &&& 0x7FFFFFFF)
/-- VFNEG (07 R144). -/
def execVfneg (vd vs1 : VReg) (km : KReg) (s : State) : Out := .next (s.vone 4 vd vs1 km fun a => a ^^^ 0x80000000)
/-- VFCMP (07 R141, R142). -/
def execVfcmp (kd : KReg) (vs1 vs2 : VReg) (km : KReg) (cond : FCond) (s : State) : Out := .next (s.post 4 (.k kd (ofBits fun i => (s.cur.readK km).getLsbD i && cond.holds (lane (s.vval vs1) i) (lane (s.vval vs2) i))))
/-- VEXP2 (07 R145). -/
def execVexp2 (vd vs1 : VReg) (km : KReg) (s : State) : Out := .next (s.vone 8 vd vs1 km f32Exp2)
/-- VLOG2 (07 R145). -/
def execVlog2 (vd vs1 : VReg) (km : KReg) (s : State) : Out := .next (s.vone 8 vd vs1 km f32Log2)
/-- VRCP (07 R145). -/
def execVrcp (vd vs1 : VReg) (km : KReg) (s : State) : Out := .next (s.vone 8 vd vs1 km f32Rcp)
/-- VRSQ (07 R145). -/
def execVrsq (vd vs1 : VReg) (km : KReg) (s : State) : Out := .next (s.vone 8 vd vs1 km f32Rsq)
/-- VcvtLane (07 R147, 04 R82): one rounding; a format converted to itself keeps its value. -/
def cvtLane (src tgt : NumFmt) (sh : Int) (b : BitVec 32) : BitVec 32 :=
  let x := src.decode b.toNat
  if src = tgt ∧ sh = 0 ∧ !x.isNaN then BitVec.ofNat 32 (b.toNat % 2 ^ src.width)
  else BitVec.ofNat 32 (roundTo (x.scale sh) tgt .ne)

/-- VCVT (07 R147). -/
def execVcvt (vd vs1 : VReg) (km : KReg) (src tgt : CvtFmt) (s : State) : Out := .next (s.vone 3 vd vs1 km fun a => cvtLane (s.cur.cvtFmt src) (s.cur.cvtFmt tgt) 0 a)
/-- VCVTS (07 R147). -/
def execVcvts (vd vs1 vs2 : VReg) (km : KReg) (src tgt : CvtFmt) (s : State) : Out := .next (s.lanes 3 vd km fun i => cvtLane (s.cur.cvtFmt src) (s.cur.cvtFmt tgt) ((lane (s.vval vs2) i).extractLsb' 0 8).toInt (lane (s.vval vs1) i))
/-- L ones. -/
def onesN (n : Nat) : BitVec 32 := BitVec.ofNat 32 (2 ^ n - 1)
/-- VBFX of one lane (07 R149). -/
def bfx (a : BitVec 32) (p len : Nat) (sx : Bool) : BitVec 32 :=
  let t := (a >>> p) &&& onesN len
  if sx ∧ t.getLsbD (len - 1) then t ||| ~~~(onesN len) else t
/-- VBFI of one lane (07 R149). -/
def bfi (old a : BitVec 32) (p len : Nat) : BitVec 32 :=
  let m := onesN len <<< p
  (old &&& ~~~m) ||| ((a <<< p) &&& m)

/-- VBFX (07 R149). -/
def execVbfx (vd vs1 : VReg) (pos : BitPos) (len : BitVec 6) (sx : BitVec 1) (km : KReg) (s : State) : Out := .next (s.lanes 2 vd km fun i => bfx (lane (s.vval vs1) i) (s.cur.posLane pos i) len.toNat (sx == 1))
/-- VBFI reads vd at issue (07 R149). -/
def execVbfi (vd vs1 : VReg) (pos : BitPos) (len : BitVec 6) (km : KReg) (s : State) : Out := .next (s.lanes 2 vd km fun i => bfi (lane (s.vval vd) i) (lane (s.vval vs1) i) (s.cur.posLane pos i) len.toNat)
/-- VFSH (07 R149). -/
def execVfsh (vd vs1 vs2 : VReg) (amt : FunAmt) (km : KReg) (s : State) : Out := .next (s.lanes 2 vd km fun i => ((lane (s.vval vs2) i ++ lane (s.vval vs1) i) >>> s.cur.amtLane amt i).extractLsb' 0 32)
/-- VPOPC (07 R149). -/
def execVpopc (vd vs1 : VReg) (km : KReg) (s : State) : Out := .next (s.vone 2 vd vs1 km fun a => BitVec.ofNat 32 (onesBelow a.toNat 32))
/-- VCLZ (07 R149). -/
def execVclz (vd vs1 : VReg) (km : KReg) (s : State) : Out := .next (s.vone 2 vd vs1 km fun a => BitVec.ofNat 32 (zerosAbove a.toNat 32))
/-- VPERM (07 R151). -/
def execVperm (vd vs1 vs2 : VReg) (km : KReg) (s : State) : Out := .next (s.lanes 3 vd km fun i => lane (s.vval vs1) ((lane (s.vval vs2) i).toNat % 64))
/-- VBCAST (07 R151), with the three cc that 05 R100 gives it; the listing of 15 R288 reads the result after two, which the
model, following the table of latencies, does not make early (DEDUCED, log 137). -/
def execVbcast (vd : VReg) (src : BcastSrc) (km : KReg) (s : State) : Out := .next (s.lanes 3 vd km fun _ =>
    match src with
    | .g r => (s.gval r).extractLsb' 0 32
    | .lane v l => lane (s.vval v) l.toNat)
/-- VSLIDE (07 R151). -/
def execVslide (vd vs1 vs2 : VReg) (n : BitVec 6) (km : KReg) (s : State) : Out := .next (s.lanes 3 vd km fun i => if i + n.toNat < 64 then lane (s.vval vs1) (i + n.toNat) else lane (s.vval vs2) (i + n.toNat - 64))
/-- The rows of a lookup table, 64 entries each (07 R152). -/
def lutRows (sz : BitVec 4) : Nat := 2 ^ (sz.toNat - 6)
/-- VLUT (07 R152): check 6 over the whole table, then a table read through the core port. -/
def execVlut (vd vs1 : VReg) (bank : BitVec 6) (row0 : BitVec 11) (sz : BitVec 4) (km : KReg) (s : State) : Out :=
  match s.firstBarred s.iss.x row0.toNat (lutRows sz) with
  | some r => .next (s.raise 0x0106 (BitVec.ofNat 64 (((bankSet bank.toNat 4).map fun b => linPos b r 0).foldl min (2 ^ 23))))
  | none =>
    let s' := s.lanes 6 vd km fun i =>
      let e := (lane (s.vval vs1) i).toNat % 2 ^ sz.toNat
      s.portLane bank.toNat (row0.toNat + e / 64) (e % 64)
    .next (s'.modIss fun i => i.claimRows (bankSet bank.toNat 4) row0.toNat ((activeLanes (s.cur.readK km)).map fun l =>
      let e := (lane (s.vval vs1) l).toNat % 2 ^ sz.toNat
      ((bank.toNat + e % 64 / 16) % 64, row0.toNat + e / 64)))

/-- The index of the set bit number i of a mask. -/
def nthSet (m : Mask) (i : Nat) : Option Nat := (activeLanes m)[i]?
/-- VCOMP (07 R151). -/
def execVcomp (vd vs1 : VReg) (km : KReg) (s : State) : Out := .next (s.allLanes 3 vd fun i =>
    match nthSet (s.cur.readK km) i with
    | some j => lane (s.vval vs1) j
    | none => 0)
/-- VEXPD (07 R151). -/
def execVexpd (vd vs1 : VReg) (km : KReg) (s : State) : Out := .next (s.allLanes 3 vd fun i => if (s.cur.readK km).getLsbD i then lane (s.vval vs1) (onesBelow (s.cur.readK km).toNat i) else 0)
/-- PairwiseReduce over 2^n inputs (04 R83): neighbours are combined first. -/
def pairTree {α : Type} (op : α → α → α) (x : Nat → α) : Nat → Nat → α
  | 0, i => x i
  | n + 1, i => op (pairTree op x n (2 * i)) (pairTree op x n (2 * i + 1))
def pairReduce {α : Type} (op : α → α → α) (x : Nat → α) : α := pairTree op x 6 0
/-- A reduction over the active lanes of vs1, the others entering as the identity (07 R154). -/
def State.reduce {α : Type} (s : State) (vs1 : VReg) (km : KReg) (rd : BitVec 32 → α) (unit : α) (op : α → α → α) : α :=
  pairReduce op fun i => if (s.cur.readK km).getLsbD i then rd (lane (s.vval vs1) i) else unit

/-- VRADD (07 R154). -/
def execVradd (gd : GReg) (vs1 : VReg) (km : KReg) (s : State) : Out := .next (s.post 6 (.g gd (BitVec.ofInt 64 (s.reduce vs1 km (fun b => b.toInt) 0 fun a b => a + b))))
/-- VRMAX (07 R154). -/
def execVrmax (gd : GReg) (vs1 : VReg) (km : KReg) (s : State) : Out := .next (s.post 6 (.g gd (BitVec.ofInt 64 (s.reduce vs1 km (fun b => b.toInt) (-(2 ^ 31)) fun a b => if a < b then b else a))))
/-- VRMIN (07 R154). -/
def execVrmin (gd : GReg) (vs1 : VReg) (km : KReg) (s : State) : Out := .next (s.post 6 (.g gd (BitVec.ofInt 64 (s.reduce vs1 km (fun b => b.toInt) (2 ^ 31 - 1) fun a b => if a < b then a else b))))
/-- VRFADD (07 R154). -/
def execVrfadd (gd : GReg) (vs1 : VReg) (km : KReg) (s : State) : Out := .next (s.post 12 (.g gd ((s.reduce vs1 km (fun b => b) 0x80000000#32 f32Add).zeroExtend 64)))
/-- VRFMAX (07 R154). -/
def execVrfmax (gd : GReg) (vs1 : VReg) (km : KReg) (s : State) : Out := .next (s.post 12 (.g gd ((s.reduce vs1 km (fun b => b) negInf32 f32Max).zeroExtend 64)))
/-- VMOV (07 R153). -/
def execVmov (vd vs1 : VReg) (km : KReg) (s : State) : Out := .next (s.vone 2 vd vs1 km fun a => a)
/-- VMOVI (07 R153). -/
def execVmovi (vd : VReg) (imm : BitVec 32) (km : KReg) (s : State) : Out := .next (s.lanes 2 vd km fun _ => imm)
/-- VINS writes all lanes, the others as read at issue (07 R153). -/
def execVins (vd : VReg) (gs : GReg) (ln : BitVec 6) (s : State) : Out := .next (s.allLanes 2 vd fun i => if i = ln.toNat then (s.gval gs).extractLsb' 0 32 else lane (s.vval vd) i)
/-- VEXT (07 R153). -/
def execVext (gd : GReg) (vs1 : VReg) (ln : BitVec 6) (sx : BitVec 1) (s : State) : Out := .next (s.post 2 (.g gd (let b := lane (s.vval vs1) ln.toNat; if sx = 1 then b.signExtend 64 else b.zeroExtend 64)))
/-- KAND (07 R155). -/
def execKand (kd ks1 ks2 : KReg) (s : State) : Out := .next (s.post 1 (.k kd (s.cur.readK ks1 &&& s.cur.readK ks2)))
/-- KOR (07 R155). -/
def execKor (kd ks1 ks2 : KReg) (s : State) : Out := .next (s.post 1 (.k kd (s.cur.readK ks1 ||| s.cur.readK ks2)))
/-- KXOR (07 R155). -/
def execKxor (kd ks1 ks2 : KReg) (s : State) : Out := .next (s.post 1 (.k kd (s.cur.readK ks1 ^^^ s.cur.readK ks2)))
/-- KNOT (07 R155). -/
def execKnot (kd ks1 : KReg) (s : State) : Out := .next (s.post 1 (.k kd (~~~(s.cur.readK ks1))))
/-- KMOV (07 R155). -/
def execKmov (form : KmovForm) (s : State) : Out := .next (match form with
    | .kk kd ks => s.post 1 (.k kd (s.cur.readK ks))
    | .kg kd gs => s.post 1 (.k kd (s.gval gs))
    | .gk gd ks => s.post 1 (.g gd (s.cur.readK ks)))
/-- KPOP (07 R155). -/
def execKpop (gd : GReg) (ks1 : KReg) (s : State) : Out := .next (s.post 2 (.g gd (BitVec.ofNat 64 (onesBelow (s.cur.readK ks1).toNat 64))))

end Sys2Proof.Machine
end

