-- ==== Sys2Proof/Machine/Stream.lean ====
section
/-! DEFINITION. Stochastic streams: V1-slot operations of Ocarina (13 R262-R274). -/

namespace Sys2Proof.Machine

/-- The latency of the stream operations (05 R100, 13 R268), and the dc for which they occupy the unit (13 R273). -/
def streamDc (len : Nat) : Nat := (len + 255) / 256
def streamLat (len : Nat) : Nat := streamDc len + 2

/-- The low w bits of i in reverse order (13 R263). -/
def bitReverse (i : Nat) : Nat → Nat
  | 0 => 0
  | w + 1 => bitReverse (i / 2) w + i % 2 * 2 ^ w
/-- One LFSR step (13 R263). -/
def lfsrStep (x : BitVec 16) : BitVec 16 :=
  let fb := ((x.getLsbD 15 != x.getLsbD 13) != x.getLsbD 12) != x.getLsbD 10
  (x <<< 1) ||| (if fb then 1 else 0)
/-- The next n LFSR states after x. -/
def lfsrSeq (x : BitVec 16) : Nat → List Nat
  | 0 => []
  | n + 1 => (lfsrStep x).toNat :: lfsrSeq (lfsrStep x) n
/-- The comparison numbers of a generator for streams of `len` bits, and their scale (13 R263). -/
def GenK.numbers (k : GenK) (len : Nat) : List Nat × Nat :=
  if k.lfsr then (lfsrSeq k.lfs len, 65536)
  else
    let w := Nat.log2 len
    ((List.range len).map fun i => Nat.xor (bitReverse i w) (k.key.toNat % 2 ^ w), len)

/-- The stream whose bit i is one where number i is below the threshold. -/
def thresholdBits (rs : List Nat) (t : Nat) : Nat := (rs.zipIdx.foldl (fun acc p => if p.1 < t then acc + 2 ^ p.2 else acc) 0)
/-- The threshold of SGEN (13 R269). -/
def sgenThreshold (x : XVal) (bp : Bool) (scale : Nat) : Nat :=
  let d := if bp then (x.add (.ofInt 1)).scale (-1) else x
  match x, d with
  | .nan _, _ | _, .nan _ => 0
  | _, .inf neg => if neg then 0 else scale
  | _, .fin neg m e =>
    if neg ∨ m = 0 then 0
    else if XVal.lt (.ofInt 1) (.fin false m e) then scale
    else (cutShift (m * scale) e).1

/-- The class that a generator gives (13 R265). -/
def GenK.cls (k : GenK) (n : BitVec 4) : BitVec 8 := n ++ k.sgc
/-- Lane j's bits below a length. -/
def SVal.lanes (v : SVal) (j len : Nat) : Nat := (streamLane v.data j).toNat % 2 ^ len

/-- A stream operation freezes its context while the unit is occupied (13 R273). -/
def State.whenFree (s : State) (k : State → State) : State :=
  if s.dc < (s.core s.iss.x.core).ocarina then s.blockOn 0 else k s
/-- A stream operation that occupies the unit: the operands must have the current length (13 R267), and their classes must
relate as required (13 R266). TVAL names the first operand in the order sa, sb, ssel that fails: 17 R321 does not say which
(DESIGN CHOICE, log 125). -/
def State.streamOp (s : State) (ops : List SReg) (clash : Option (BitVec 8 × BitVec 8)) (k : Nat → State → State) : State :=
  let len := slenBits s.cur.regs.slen
  s.whenFree fun s =>
    match ops.find? fun r => (s.cur.readS r).len != s.cur.regs.slen with
    | some r => s.raise 0x0011 (r.zeroExtend 64)
    | none =>
      match clash with
      | some (a, b) => s.raise 0x0010 ((a ++ b).zeroExtend 64)
      | none => k len (s.modCore s.iss.x.core fun c => { c with ocarina := s.dc + streamDc len })
/-- A stream result with its class and the current length code. -/
def State.postS (s : State) (len : Nat) (sd : SReg) (cls : BitVec 8) (f : Nat → Nat) : State :=
  s.post (streamLat len) (.s sd ⟨ofStreamLanes fun j => BitVec.ofNat 1024 (f j), cls, s.cur.regs.slen⟩)
/-- A gate over two streams whose classes must differ, or be equal (13 R266, R270). -/
def State.gate (s : State) (sd sa sb : SReg) (distinct : Bool) (f : Nat → Nat → Nat → Nat) : State :=
  let a := s.cur.readS sa
  let b := s.cur.readS sb
  let clash := if (a.cls == b.cls) == distinct then some (a.cls, b.cls) else none
  s.streamOp [sa, sb] clash fun len s => s.postS len sd a.cls fun j => f len (a.lanes j len) (b.lanes j len)

/-- SSEED (13 R264). -/
def execSseed (gen : BitVec 4) (gs : GReg) (kind : BitVec 1) (s : State) : Out :=
  let k := s.cur.readGen gen
  let v := s.gval gs
  let lfs := v.extractLsb' 0 16
  let new : GenK :=
    if kind = 0 then { k with lfsr := false, key := v.extractLsb' 0 10, sgc := k.sgc + 1 }
    else { k with lfsr := true, lfs := if lfs = 0 then 1 else lfs, sgc := k.sgc + 1 }
  .next (s.whenFree fun s => s.post 1 (.gen gen new))
/-- SGEN (13 R269). -/
def execSgen (sd : SReg) (vs : VReg) (gen : BitVec 4) (bp : BitVec 1) (s : State) : Out :=
  .next (s.streamOp [] none fun len s =>
    let k := s.cur.readGen gen
    let (rs, scale) := k.numbers len
    s.postS len sd (k.cls gen) fun j => thresholdBits rs (sgenThreshold (f32 (lane (s.vval vs) j)) (bp == 1) scale))
/-- SAND (13 R270). -/
def execSand (sd sa sb : SReg) (s : State) : Out := .next (s.gate sd sa sb true fun _ a b => Nat.land a b)
/-- SOR (13 R270). -/
def execSor (sd sa sb : SReg) (s : State) : Out := .next (s.gate sd sa sb true fun _ a b => Nat.lor a b)
/-- SMIN (13 R270). -/
def execSmin (sd sa sb : SReg) (s : State) : Out := .next (s.gate sd sa sb false fun _ a b => Nat.land a b)
/-- SMAX (13 R270). -/
def execSmax (sd sa sb : SReg) (s : State) : Out := .next (s.gate sd sa sb false fun _ a b => Nat.lor a b)
/-- SXNOR (13 R270). -/
def execSxnor (sd sa sb : SReg) (s : State) : Out :=
  .next (s.gate sd sa sb true fun len a b => Nat.xor (Nat.xor a b) (2 ^ len - 1))
/-- SMUX: ones of ssel select sb (13 R270). -/
def execSmux (sd sa sb ssel : SReg) (s : State) : Out :=
  let a := s.cur.readS sa
  let b := s.cur.readS sb
  let l := s.cur.readS ssel
  let clash := if l.cls = a.cls ∨ l.cls = b.cls then some (a.cls, l.cls) else none
  .next (s.streamOp [sa, sb, ssel] clash fun len s =>
    s.postS len sd a.cls fun j =>
      let m := l.lanes j len
      Nat.lor (Nat.land (b.lanes j len) m) (Nat.land (a.lanes j len) (Nat.xor m (2 ^ len - 1))))
/-- SCNT (13 R271). -/
def execScnt (vd : VReg) (ss : SReg) (mode : ScntMode) (km : KReg) (s : State) : Out :=
  let v := s.cur.readS ss
  .next (s.streamOp [ss] none fun len s =>
    s.lanes (streamLat len) vd km fun j =>
      let c := onesBelow (v.lanes j len) len
      match mode with
      | .n => BitVec.ofNat 32 c
      | .u => toF32 ((XVal.ofInt c).scale (-(Nat.log2 len)))
      | .b => toF32 ((XVal.ofInt (2 * c - len)).scale (-(Nat.log2 len))))
/-- SREGEN (13 R272). -/
def execSregen (sd ss : SReg) (gen : BitVec 4) (s : State) : Out :=
  let v := s.cur.readS ss
  .next (s.streamOp [ss] none fun len s =>
    let k := s.cur.readGen gen
    let (rs, scale) := k.numbers len
    s.postS len sd (k.cls gen) fun j => thresholdBits rs (onesBelow (v.lanes j len) len * scale / len))
/-- SDLY (13 R272). -/
def execSdly (sd ss : SReg) (n : BitVec 10) (s : State) : Out :=
  let v := s.cur.readS ss
  .next (s.streamOp [ss] none fun len s =>
    let k := n.toNat % len
    s.postS len sd (v.cls ^^^ 8) fun j =>
      let b := v.lanes j len
      Nat.lor (b * 2 ^ k % 2 ^ len) (b / 2 ^ (len - k)))
/-- SCLS (13 R272): no length check; it does not occupy the unit. -/
def execScls (gd : GReg) (ss : SReg) (s : State) : Out :=
  let v := s.cur.readS ss
  .next (s.whenFree fun s => s.post 1 (.g gd ((v.len ++ v.cls).zeroExtend 64)))

end Sys2Proof.Machine
end

