-- ==== Sys2Proof/Machine/LoadStore.lean ====
section
/-! DEFINITION. L-slot loads, atomics and monitor arming; W-slot stores (09 R182-R198). -/

namespace Sys2Proof.Machine

/-! ### Scratchpad operands (08 R162, 09 R184, R195) -/

/-- A scratchpad operand whose position and rows pass checks 2 and 6, and whose `.ma` hold is over; `four` says whether
its bank set is four banks or one. -/
def State.spOperand (s : State) (p : SpPos) (four ma : Bool) (k : Nat → Nat → State → State) : State :=
  match s.cur.spPos p with
  | none =>
    let off := (match p with
      | .indirect a => addrOff (s.cur.readA a)
      | .direct _ _ => 0).toNat
    s.raise 0x0003 (BitVec.ofNat 64 (off / 64 * 4096 + off % 64 * 64))
  | some (bank, row) =>
    if s.rowBarred s.iss.x row then s.raise 0x0106 (BitVec.ofNat 64 (linPos bank row 0))
    else
      let banks := if four then bankSet bank 4 else [bank]
      if ma && s.engineBusy s.iss.x.core banks then s.blockOn 0
      else (k bank row s).modIss fun i => i.claim banks row

/-! ### Loads -/

def wantLoad : Want := ⟨false, true, false⟩
def wantStore : Want := ⟨true, true, false⟩
def State.guardOf (s : State) (a : Word) : Nat := ((s.extent? s.iss.x (addrId a)).map (·.guardTag)).getD 0

/-- LD (09 R186, R187). -/
def execLd (gd : GReg) (ad : AReg) (sz : BitVec 2) (sx : BitVec 1) (imm : BitVec 35) (s : State) : Out :=
  let n := 2 ^ sz.toNat
  let a := s.cur.readA ad
  match s.operand a imm.toInt n 1 wantLoad with
  | (s, none) => .next s
  | (s, some (va, ps)) =>
    .next (s.countNl fun s =>
      let ts : List Touch := (List.range n).map fun i => (pagePa ps (va + i), 3)
      match s.loadBytes s.iss.x ps (s.guardOf a) ts with
      | (s, none) => s.blockOn (BitVec.ofNat 64 va)
      | (s, some bs) => (s.noteLate (BitVec.ofNat 64 va) bs).postLoad 14 (.loadG gd bs (sx == 1)))

/-- The vector loads of memory: LDV and LDG (09 R186). -/
def State.vecLoad (s : State) (vd : VReg) (a : Word) (off : Int) (al : Bool)
    (elts : Extent → FmtSlot → List (Option EltAt)) : State :=
  match s.vecOperand a off al false elts with
  | (s, none) => s
  | (s, some (e, f, es, ps)) =>
    s.countNl fun s =>
      match s.loadElts e f es ps (BitVec.ofInt 64 (e.base + off)) with
      | (s, none) => s
      | (s, some rs) => s.postLoad 14 (.loadV vd rs)

/-- LDV (09 R186). -/
def execLdv (vd : VReg) (ad : AReg) (km : KReg) (imm : BitVec 34) (s : State) : Out :=
  let a := s.cur.readA ad
  let off : Int := (addrOff a).toNat + imm.toInt
  .next (s.vecLoad vd a off true (rowElts (s.cur.readK km) off))

/-- LDG (09 R186). -/
def execLdg (vd : VReg) (ad : AReg) (vs : VReg) (km : KReg) (s : State) : Out :=
  let a := s.cur.readA ad
  let off := (addrOff a).toNat
  let c := s.cur
  .next (s.vecLoad vd a off false (gatherElts (c.readK km) off fun i => lane (c.readV vs) i))

/-- LDS: a row of four banks into the lanes, or n bytes of one bank (09 R186, R188). -/
def execLds (form : LdsForm) (pos : SpPos) (ma : BitVec 1) (s : State) : Out :=
  match form with
  | .vec vd km =>
    .next (s.spOperand pos true (ma == 1) fun bank row s =>
      s.countNl fun s => s.postLoad 6 (.v vd (s.cur.readK km) (ofLanes fun i => s.portLane bank row i)))
  | .scalar gd byte sz sx =>
    let n := 2 ^ sz.toNat
    .next (s.spOperand pos false (ma == 1) fun bank row s =>
      s.countNl fun s =>
        s.postLoad 6 (.g gd (extendN (natOfBytes (fun i => s.portByte bank row (byte.toNat + i)) n) n (sx == 1))))

/-- LDSG: lane i reads word i of its own row (09 R186). -/
def execLdsg (vd : VReg) (bank : BitVec 6) (row0 : BitVec 11) (vs : VReg) (km : KReg) (ma : BitVec 1) (s : State) : Out :=
  let banks := bankSet bank.toNat 4
  let rowOf (i : Nat) : Nat := (row0.toNat + (lane (s.vval vs) i).toNat) % 2048
  match (activeLanes (s.cur.readK km)).find? fun i => s.rowBarred s.iss.x (rowOf i) with
  | some i => .next (s.raise 0x0106 (BitVec.ofNat 64 (linPos bank.toNat (rowOf i) 0)))
  | none =>
    if ma = 1 ∧ s.engineBusy s.iss.x.core banks = true then .next (s.blockOn 0)
    else
      .next ((s.countNl fun s =>
        s.postLoad 8 (.v vd (s.cur.readK km) (ofLanes fun i => s.portLane bank.toNat (rowOf i) i))).modIss fun i =>
          i.claimRows banks row0.toNat ((activeLanes (s.cur.readK km)).map fun l => ((bank.toNat + l / 16) % 64, rowOf l)))

/-! ### Stores -/

/-- A store of consecutive bytes. -/
def State.storeRun (s : State) (a : Word) (va : Nat) (ps : Pages) (bs : List Byte) : State :=
  s.storeBytes ps (addrId a) (BitVec.ofNat 64 va) (bs.zipIdx.map fun p => ⟨va + p.2, pagePa ps (va + p.2), 3, p.1⟩)

/-- ST (09 R194). -/
def execSt (gs : GReg) (ad : AReg) (sz : BitVec 2) (imm : BitVec 22) (s : State) : Out :=
  let n := 2 ^ sz.toNat
  let a := s.cur.readA ad
  match s.operand a imm.toInt n 1 wantStore with
  | (s, none) => .next s
  | (s, some (va, ps)) => .next (s.storeRun a va ps (natToBytes (s.gval gs).toNat n))

/-- STZ (09 R194). -/
def execStz (ad : AReg) (imm : BitVec 30) (s : State) : Out :=
  let a := s.cur.readA ad
  match s.operand a imm.toInt 128 128 wantStore with
  | (s, none) => .next s
  | (s, some (va, ps)) => .next (s.storeRun a va ps (List.replicate 128 0))

/-- The vector stores to memory: STV and STG (09 R194). -/
def State.vecStore (s : State) (vs : VReg) (a : Word) (off : Int) (al : Bool) (lt : LaneTy)
    (elts : Extent → FmtSlot → List (Option EltAt)) : State :=
  match s.vecOperand a off al true elts with
  | (s, none) => s
  | (s, some (e, f, es, ps)) => s.storeElts a e f es ps (BitVec.ofInt 64 (e.base + off)) lt (s.vval vs)

/-- STV (09 R194). -/
def execStv (vs : VReg) (ad : AReg) (km : KReg) (lt : LaneTy) (imm : BitVec 18) (s : State) : Out :=
  let a := s.cur.readA ad
  let off : Int := (addrOff a).toNat + imm.toInt
  .next (s.vecStore vs a off true lt (rowElts (s.cur.readK km) off))

/-- STG: where two lanes name one element, the higher lane's value is kept (09 R194). -/
def execStg (vs : VReg) (ad : AReg) (vi : VReg) (km : KReg) (lt : LaneTy) (s : State) : Out :=
  let a := s.cur.readA ad
  let off := (addrOff a).toNat
  let c := s.cur
  .next (s.vecStore vs a off false lt (gatherElts (c.readK km) off fun i => lane (c.readV vi) i))

/-- STS (09 R194, 05 R104). -/
def execSts (vs : VReg) (pos : SpPos) (km : KReg) (ma : BitVec 1) (s : State) : Out :=
  .next (s.spOperand pos true (ma == 1) fun bank row s =>
    s.portWrite bank row ((activeLanes (s.cur.readK km)).flatMap fun i =>
      (List.range 4).map fun j => (4 * i + j, (lane (s.vval vs) i).extractLsb' (8 * j) 8)))

/-- STSS (09 R194). -/
def execStss (gs : GReg) (pos : SpPos) (byte : BitVec 6) (sz : BitVec 2) (ma : BitVec 1) (s : State) : Out :=
  .next (s.spOperand pos false (ma == 1) fun bank row s =>
    s.portWrite bank row ((List.range (2 ^ sz.toNat)).map fun j => (byte.toNat + j, (s.gval gs).extractLsb' (8 * j) 8)))

/-! ### Atomics (09 R196, R197) -/

/-- A source of an atomic: a register, or a pair at 16 bytes; the pair of g0 reads zero. -/
def State.pairVal (s : State) (r : GReg) (sz : BitVec 3) : BitVec 128 :=
  if sz = 4 then (if r = 0 then 0 else s.gval (r + 1) ++ s.gval r) else (s.gval r).zeroExtend 128

/-- AtomicAtHome's new value (09 R197), over n bytes. -/
def AtomicOp.apply (op : AtomicOp) (n : Nat) (old x y : Nat) : Nat :=
  let m := 2 ^ (8 * n)
  let sgn (v : Nat) : Int := if 2 ^ (8 * n - 1) ≤ v % m then (v % m : Nat) - (m : Int) else (v % m : Nat)
  let x := x % m
  match op with
  | .add => (old + x) % m
  | .and => Nat.land old x
  | .or => Nat.lor old x
  | .xor => Nat.xor old x
  | .min => if sgn x < sgn old then x else old
  | .max => if sgn old < sgn x then x else old
  | .minn => if x < old then x else old
  | .maxn => if old < x then x else old
  | .swp => x
  | .cas => if old = x then y % m else old
  | .fadd => (f32Add (BitVec.ofNat 32 old) (BitVec.ofNat 32 x)).toNat
/-- What a value-returning atomic delivers: sign-extended for the signed minimum and maximum (09 R197). -/
def AtomicOp.result (op : AtomicOp) (n old : Nat) : BitVec 128 :=
  match op with
  | .min | .max => (extendN old n true).zeroExtend 128
  | _ => BitVec.ofNat 128 old

/-- An atomic at issue (09 R197): its checks, then an act that leaves at commit: posted with gd = g0, else the context
freezes from commit until the reply. -/
def State.atomic (s : State) (op : AtomicOp) (gd : GReg) (ad : AReg) (gs1 gs2 : GReg) (sz : BitVec 3) (imm : BitVec 23) : State :=
  let n := 2 ^ sz.toNat
  let x := s.pairVal gs1 sz
  let y := s.pairVal gs2 sz
  match s.operand (s.cur.readA ad) imm.toInt n n wantStore with
  | (s, none) => s
  | (s, some (va, ps)) =>
    let pa := pagePa ps va
    let x_ := s.iss.x
    if s.engineOwes x_ pa n then s.blockOn (BitVec.ofNat 64 va)
    else
      let s := s.endsSeg
      let note (id : Nat) (s : State) : State := s.modCur fun c => { c with posted := c.posted ++ [(id, pa, n)] }
      if gd = 0 then
        s.countNs fun id s => (note id s).stage (.act id (.ev (.atomicAtHome x_ id op pa n x y none)))
      else
        let (id, s) := s.newId
        let s := s.modIss fun i => { i with asks := i.asks ++ [(id, i.slot, BitVec.ofNat 64 va)] }
        (note id s).stage (.call id (.ev (.atomicAtHome x_ id op pa n x y (some gd))))

/-- ATADD (09 R197). -/
def execAtadd (gd : GReg) (ad : AReg) (gs1 : GReg) (sz : BitVec 3) (imm : BitVec 23) (s : State) : Out :=
  .next (s.atomic .add gd ad gs1 0 sz imm)
/-- ATAND (09 R197). -/
def execAtand (gd : GReg) (ad : AReg) (gs1 : GReg) (sz : BitVec 3) (imm : BitVec 23) (s : State) : Out :=
  .next (s.atomic .and gd ad gs1 0 sz imm)
/-- ATOR (09 R197). -/
def execAtor (gd : GReg) (ad : AReg) (gs1 : GReg) (sz : BitVec 3) (imm : BitVec 23) (s : State) : Out :=
  .next (s.atomic .or gd ad gs1 0 sz imm)
/-- ATXOR (09 R197). -/
def execAtxor (gd : GReg) (ad : AReg) (gs1 : GReg) (sz : BitVec 3) (imm : BitVec 23) (s : State) : Out :=
  .next (s.atomic .xor gd ad gs1 0 sz imm)
/-- ATMIN (09 R197). -/
def execAtmin (gd : GReg) (ad : AReg) (gs1 : GReg) (sz : BitVec 3) (imm : BitVec 23) (s : State) : Out :=
  .next (s.atomic .min gd ad gs1 0 sz imm)
/-- ATMAX (09 R197). -/
def execAtmax (gd : GReg) (ad : AReg) (gs1 : GReg) (sz : BitVec 3) (imm : BitVec 23) (s : State) : Out :=
  .next (s.atomic .max gd ad gs1 0 sz imm)
/-- ATMINN (09 R197). -/
def execAtminn (gd : GReg) (ad : AReg) (gs1 : GReg) (sz : BitVec 3) (imm : BitVec 23) (s : State) : Out :=
  .next (s.atomic .minn gd ad gs1 0 sz imm)
/-- ATMAXN (09 R197). -/
def execAtmaxn (gd : GReg) (ad : AReg) (gs1 : GReg) (sz : BitVec 3) (imm : BitVec 23) (s : State) : Out :=
  .next (s.atomic .maxn gd ad gs1 0 sz imm)
/-- ATSWP (09 R197). -/
def execAtswp (gd : GReg) (ad : AReg) (gs1 : GReg) (sz : BitVec 3) (imm : BitVec 23) (s : State) : Out :=
  .next (s.atomic .swp gd ad gs1 0 sz imm)
/-- ATCAS (09 R197). -/
def execAtcas (gd : GReg) (ad : AReg) (gs1 gs2 : GReg) (sz : BitVec 3) (imm : BitVec 23) (s : State) : Out :=
  .next (s.atomic .cas gd ad gs1 gs2 sz imm)
/-- ATFADD (09 R197). -/
def execAtfadd (gd : GReg) (ad : AReg) (gs1 : GReg) (sz : BitVec 3) (imm : BitVec 23) (s : State) : Out :=
  .next (s.atomic .fadd gd ad gs1 0 sz imm)

/-- An act keeps the page of its bytes where it is until it is performed (09 R191, 12 R251). -/
def State.pin (s : State) (id pa n : Nat) : State := s.modCur fun c => { c with pins := c.pins ++ [(id, pa, n)] }

/-- MARM (09 R198): the arm request leaves at commit and counts in NS. -/
def execMarm (mon : BitVec 12) (ad : AReg) (imm : BitVec 32) (s : State) : Out :=
  match s.operand (s.cur.readA ad) imm.toInt 1 1 wantLoad with
  | (s, none) => .next s
  | (s, some (va, ps)) =>
    .next (s.endsSeg.countNs fun id s => (s.pin id (pagePa ps va) 1).stage (.act id (.ev (.monitorArm s.iss.x id mon (pagePa ps va)))))

end Sys2Proof.Machine
end

