-- ==== Sys2Proof/Machine/Jobs.lean ====
section
/-! DEFINITION. Jobs and fills in the copy engine: lanes, blocks, the Shawm graph (10 R200-R211, 08 R166,
20 R352-R355). -/

namespace Sys2Proof.Machine

/-! ### Lanes (20 R352, R353) -/

/-- The next slot of a core after dc `d`: dc of position (k div 4) + 16 i. -/
def slotAfter (core : BitVec 8) (d : Nat) : Nat :=
  let p := core.toNat % 64 / 4
  d + 1 + (p + 16 - (d + 1) % 16) % 16
/-- A lane slot taken by a block requested in this dc, after every slot taken before it. -/
def State.takeLane (s : State) (core : BitVec 8) : Nat × State :=
  let taken := ((s.core core).lanes.filter fun d => decide (s.dc < d))
  let d := slotAfter core (taken.foldl max s.dc)
  (d, s.modCore core fun k => { k with lanes := taken ++ [d] })

/-! ### Where a job's bytes lie -/

/-- The physical ranges of n bytes from offset `off` of a side; none where a byte has no translation yet. -/
def segsAt (segs : List PSeg) (off : Nat) : Nat → Option (List Nat)
  | 0 => some []
  | n + 1 =>
    match segsAt segs off n with
    | none => none
    | some l => (segs.find? fun g => decide (g.off ≤ off + n ∧ off + n < g.off + g.n)).map fun g => l ++ [g.pa + (off + n - g.off)]

/-- Stretches of memory named by pages: `va` counts as offset 0. -/
def segsOf (ps : Pages) (va n : Nat) : List PSeg :=
  (pagesOf [(va, n)]).filterMap fun p =>
    match ps.find? fun q => q.1 == p with
    | some q =>
      let lo := max va (p * 4096)
      let hi := min (va + n) (p * 4096 + 4096)
      if leafTier q.2.leaf ≤ 3 then some ⟨lo - va, q.2.pa lo, hi - lo⟩ else none
    | none => none

/-- The scale-plane bytes that n elements from element `first` need: first and count (04 R73). -/
def planeSpan (geom first n : Nat) : Nat × Nat :=
  if geom = 0 ∨ n = 0 then (0, 0)
  else
    let last := first + n - 1
    if geom = 4 then (first / 512 * 8, last / 512 * 8 + 8 - first / 512 * 8)
    else (blockOf geom first, blockOf geom last + 1 - blockOf geom first)
/-- The scale bytes of block b of a fill, from the start of the plane (08 R166). -/
def Job.scaleSpan (j : Job) (b : Nat) : Nat × Nat :=
  let (f, n) := planeSpan j.sfmt.geom.toNat j.selt j.nelt
  let r := f / 512 + (b - j.dataBlocks)
  let lo := max f (512 * r)
  (lo, min (f + n) (512 * r + 512) - lo)

/-- The latency figure of a place as a core's die meets it (20 R353); none for LPDDR and CXL. -/
def figure (d : BitVec 2) (pa : Nat) : Option Nat :=
  match memAt pa with
  | some (.pool, e) => some (if e = d then 96 else 320)
  | some (.hbm, e) => some (if e = d then 420 else 640)
  | _ => none

/-- The figure of a leg at known addresses: the slowest; none where one is unslotted. -/
def figuresOf (d : BitVec 2) (l : List Nat) : Option Nat := l.foldl (fun acc pa =>
  match acc, figure d pa with
  | some m, some f => some (max m f)
  | _, _ => none) (some 0)
/-- The bytes of the source that block b reads. -/
def Job.srcSpan (j : Job) (b : Nat) : Nat × Nat := if j.dataBlocks ≤ b then j.scaleSpan b else blockSpan j.len b
def Job.srcSegs (j : Job) (b : Nat) : List PSeg := if j.dataBlocks ≤ b then j.sshift else j.src.segs

/-- The figure of a leg: its slowest stretch; none where it is unslotted or has no frame. -/
def legFigure (d : BitVec 2) (segs : List PSeg) (off n : Nat) : Option Nat :=
  if (segsAt segs off n).isNone then none
  else
    (segs.filter fun g => rangesMeet g.off g.n off n).foldl (fun acc g =>
      match acc, figure d g.pa with
      | some m, some f => some (max m f)
      | _, _ => none) (some 0)
/-- The latency of block b from its slot; none where a leg is unslotted (20 R353, R355). The rows of a gather are placed when
they are read: `rows` are the addresses then, and before that they count as slotted (DEDUCED, log 32). -/
def Job.latency (j : Job) (b : Nat) (rows : List Nat) : Option Nat :=
  let d := j.x.die
  let src := match j.src, j.kind with
    | .sp _, _ => some 0
    | .mem _ _ _, .gather => figuresOf d rows
    | .mem _ _ _, _ => legFigure d (j.srcSegs b) (j.srcSpan b).1 (j.srcSpan b).2
  let dst := match j.dst with
    | .sp _ => some 0
    | .mem _ _ segs => legFigure d segs (j.dstSpan b).1 (j.dstSpan b).2
  match src, dst with
  | some a, some c => some (if a + c = 0 then 1 else a + c)
  | _, _ => none
def Job.slotted (j : Job) (b : Nat) : Bool := (j.latency b []).isSome

/-- How much later a block lands that touches the pool (22 R402). -/
def State.poolDelay (s : State) (j : Job) (b : Nat) (rows : List Nat) : Nat :=
  let inPool (pa : Nat) : Bool := match memAt pa with
    | some (.pool, _) => true
    | _ => false
  let pool (segs : List PSeg) (o n : Nat) : Bool := segs.any fun g => rangesMeet g.off g.n o n && inPool g.pa
  let src := match j.src with
    | .sp _ => false
    | .mem _ _ _ => rows.any inPool
  let dst := match j.dst with
    | .sp _ => false
    | .mem _ _ segs => pool segs (j.dstSpan b).1 (j.dstSpan b).2
  if src || dst then (s.opTable j.x.die).poolDelay else 0

/-! ### Launch -/

/-- The blocks of a job are requested, in order, and each takes a lane (20 R353); unslotted blocks go at once. -/
def State.launchJob (s : State) (id : Nat) : State :=
  match s.job? id with
  | none => s
  | some j =>
    let s := s.modJob id fun j => { j with st := .running }
    j.todo.foldl (fun s b =>
      if j.slotted b then
        let (d, s) := s.takeLane j.x.core
        s.at_ d (.ev (.copyBlockIssue j.x id b))
      else s.later (.ev (.copyBlockIssue j.x id b))) s

/-! ### The graph (10 R208, R209) -/

def spanMeets (l m : List (Bool × Nat × Nat)) : Bool := l.any fun a => m.any fun b => a.1 == b.1 && rangesMeet a.2.1 a.2.2 b.2.1 b.2.2
/-- Overlap of an earlier entry with a new job. -/
def Job.before (e j : Job) : Bool := spanMeets e.wr j.rd || spanMeets e.rd j.wr || spanMeets e.wr j.wr
/-- The lowest free entry of the table, which goes with the task (03 R65). -/
def State.freeSlot (s : State) (k : Nat) : Nat :=
  ((List.range 24).find? fun n => !(s.jobs.any fun j => j.task == k && j.slot == some n)).getD 0
/-- The entries of a context's table, in entry order. -/
def jobSlotKey (j : Job) : Nat := j.slot.getD 24
/-- Enter(J) (10 R209). -/
def State.enterJob (s : State) (id : Nat) : State :=
  match s.job? id with
  | none => s
  | some j =>
    let ps := (s.jobs.filter fun e => e.task == j.task && e.slot.isSome && e.id != id && e.before j).map (·.id)
    let n := s.freeSlot j.task
    let s := s.modJob id fun j => { j with slot := some n, preds := ps, st := .waiting }
    if ps.isEmpty then s.launchJob id else s
/-- A finished or cancelled job leaves the table, and its successors may launch, in entry order. -/
def State.leaveJob (s : State) (id : Nat) : State :=
  let ready := (s.jobs.filter fun j => j.st == .waiting && j.preds == [id])
  let s := { s with jobs := (s.jobs.filter fun j => j.id != id).map fun (j : Job) => { j with preds := j.preds.filter (· != id) } }
  ((List.range 25).flatMap fun n => ready.filter fun j => jobSlotKey j == n).foldl (fun s j => s.launchJob j.id) s

/-! ### Follow-on commands (08 R179) -/

/-- Engine work ends: its NT count falls (08 R160). -/
def State.endWork (s : State) (x : CtxId) (id : Nat) : State :=
  s.modCtx x fun c => { c.done id with
    work := match c.work with
      | some w => if w.id = id then none else some w
      | none => none }
/-- Banks that a write of Piccolo takes at the engine port in this dc: copies and drain rows wait for them (08 R161, R172). -/
def State.portTaken (s : State) (core : BitVec 8) (m : BitVec 64) : State :=
  s.modCore core fun k => { k with drainDc := some s.dc, drainBanks := if k.drainDc = some s.dc then k.drainBanks ||| m else m }
/-- The bytes of a 64-bit word written to scratchpad through the engine port. -/
def State.spPoke (s : State) (core : BitVec 8) (pos : Nat) (bs : List Byte) : State :=
  s.modCore core fun k => { k with sp := cellsWriteAll k.sp (bytesAt pos bs) }
/-- A position of a 256-byte operand: byte q lies in bank + q / 64 of the row (08 R162). -/
def opPos (bank row q : Nat) : Nat := linPos (bank + q / 64) row (q % 64)
/-- W0 written (08 R173). -/
def State.writeW0 (s : State) (x : CtxId) (bank row : Nat) (w : Word) : State :=
  (s.portTaken x.core (BitVec.ofNat 64 (2 ^ (bank % 64)))).spPoke x.core (opPos bank row 0) (natToBytes w.toNat 8)
/-- The status word: DONE, ERR, TMISS, CODE, NMISS, STEPS. -/
def statusWord (done err tmiss : Bool) (code nmiss steps : Nat) : Word :=
  BitVec.ofNat 64 ((if done then 2 ^ 63 else 0) + (if err then 2 ^ 62 else 0) + (if tmiss then 2 ^ 61 else 0)
    + code % 2 ^ 13 * 2 ^ 48 + nmiss % 2 ^ 16 * 2 ^ 32 + steps % 2 ^ 32)
/-- A macro ends with its status word; the macro that a context ran last stays known for MSTEP (08 R178). -/
def State.endMacro (s : State) (x : CtxId) (w : Work) (err : Bool) (code : Nat) : State :=
  let st := statusWord true err w.tmiss code w.nmiss w.step
  let s := (s.writeW0 x w.bank w.row st).endWork x w.id
  s.modCtx x fun c => { c with lastMacro := some (w.bank, w.row, st)
                               w := match w.kind with
                                 | .mgemm => (c.w.set 2 {}).set 3 {}
                                 | _ => c.w }
/-- A follow-on command ends without running (08 R179): CODE 8 after an error, 6 after JCAN. -/
def State.dropFollow (s : State) (x : CtxId) (w : Work) (code : Nat) : State :=
  match w.kind with
  | .mgemm | .mattn => s.endMacro x w true code
  | .drain .. => s.endWork x w.id
/-- The copy has landed: the command is handed to the array; a carried drain keeps the number of the job's slot, which a
later copy error names. -/
def State.startFollow (s : State) (x : CtxId) (w : Work) (slot : Nat) : State :=
  s.modCtx x fun c => { c with work := match c.work with
    | some v => if v.id = w.id then some { v with phase := .ready, job := none, nextChunk := slot } else some v
    | none => none }

/-! ### Pages of a running job (10 R205) -/

/-- A page of a job that had no frame at issue: its translation now, or what stands in the way (10 R205). -/
inductive PageNow where
  | seg (g : PSeg)
  | retry
  | dropped
  | lost
  | bad
  deriving DecidableEq, Repr
def State.pageNow (s : State) (j : Job) (tensor : BitVec 24) (va off : Nat) (write : Bool) : State × PageNow :=
  match (s.task? j.task).map (·.troot) with
  | none => (s, .bad)
  | some root =>
    match s.walk j.x.die root va write with
    | (s, .error _) => (s, .bad)
    | (s, .ok e) =>
      if leafTier e.leaf ≤ 3 ∨ leafTier e.leaf = 5 ∧ s.recomputing (some j.task) tensor = true then (s, .seg ⟨off, e.pa va, 4096 - va % 4096⟩)
      else if leafTier e.leaf = 6 ∨ leafTier e.leaf = 5 ∧ tensor = 0 then (s, .lost)
      else if leafTier e.leaf = 5 then (s, .dropped)
      else (s, .retry)
/-- Where the completion word of a job lies (10 R209): its page as translated at issue, or as it is mapped now. -/
def State.cwNow (s : State) (j : Job) : State × Except PageNow (Option Nat) :=
  match j.cwe with
  | none => (s, .ok none)
  | some c =>
    match c.pa with
    | some p => (s, .ok (some p))
    | none =>
      match s.pageNow j c.tensor c.va 0 true with
      | (s, .seg g) => (s, .ok (some g.pa))
      | (s, r) => (s, .error r)

/-! ### The end of a job (10 R205, R209, R210) -/

/-- A copy error pending for a job slot of a task: in its context, or in its record while no context runs it (17 R313). -/
def State.copyError (s : State) (k : Nat) (slot : Nat) : State :=
  let bit := BitVec.ofNat 24 (2 ^ slot)
  match s.ctxOfTask k with
  | some x => s.request x fun y => { y with cperr := y.cperr ||| bit }
  | none => s.modTask k fun t => { t with cperr := t.cperr ||| bit }
/-- A failure of a write of a task, which its next FENCE reports (10 R223). -/
def State.taskFailure (s : State) (k : Nat) (d : BitVec 2) (refused : Bool) : State :=
  match s.ctxOfTask k with
  | some x => s.modCtx x fun c => { c with facc := c.facc.add d refused }
  | none => s.modTask k fun t => { t with facc := t.facc.add d refused }
/-- Where the task of a job runs now; its engine keeps the job. -/
def State.jobCtx (s : State) (j : Job) : CtxId := (s.ctxOfTask j.task).getD j.x
/-- The completion word's value (10 R209). -/
def jobWord (err : Bool) (tag : BitVec 8) : Word := BitVec.ofNat 64 (2 ^ 63 + (if err then 2 ^ 62 else 0) + tag.toNat)
/-- The effects of Finish but for the graph: completion word at `cw`, arrival, count, follow-on. -/
def State.creditJob (s : State) (j : Job) (cw : Option Nat) (err : Bool) (fcode : Nat) (arrive : Bool) : State :=
  let x := s.jobCtx j
  let s := match cw with
    | some pa =>
      let (dead, s) := s.homeWriteAt pa (natToBytes (jobWord err j.tag).toNat 8)
      if dead then s.taskFailure j.task (homeDie pa) true else s.dropOwn x.core (linesOf pa 8)
    | none => s
  let s := match j.bare, arrive, s.task? j.task with
    | some b, true, some t =>
      -- an arrival whose barrier has been freed is dropped and recorded (10 R219)
      if j.orphan then s.bbDie (((s.gang? t.gang).map fun (q : Gang) => q.die).getD 0) 0x32 (BitVec.ofNat 64 (t.gang.lid % 2 ^ 24)) (b.zeroExtend 64)
      else s.toBarrier t.gang b (.ev (.barrierArrival t.gang b none j.id))
    | _, _, _ => s
  let s := if err && arrive && j.cwe.isNone then s.copyError j.task (j.slot.getD 0) else s
  let s := match j.follow with
    | some w => if err then s.dropFollow x w fcode else s.startFollow x w (j.slot.getD 0)
    | none => s
  s.modCtx x fun c => c.done j.id

/-- Finish(J), or the end of a cancelled job (10 R209, R210): the completion word is a write performed at home, so L1 copies of
its line go first. A word whose page is away waits for it; one that no die of the partition reaches is reported refused
(20 R350). -/
def State.finishJob (s : State) (id : Nat) (again : Act) : State :=
  match s.job? id with
  | none => s
  | some j =>
    let gone := j.st == .cancelled
    let s := s.modJob id fun j => { j with st := if gone then .cancelled else .finishing }
    let done (s : State) (cw : Option Nat) : State :=
      (s.creditJob j cw (j.err || gone) (if gone then 6 else 8) (!gone)).leaveJob id
    match s.cwNow j with
    | (s, .error .retry) | (s, .error .dropped) => s.at_ (s.dc + 1) again
    | (s, .error _) => done (s.taskFailure j.task j.x.die true) none
    | (s, .ok none) => done s none
    | (s, .ok (some pa)) =>
      if (s.memFor j.x.die pa).isNone then done (s.taskFailure j.task (homeDie pa) true) none
      else
        match s.clearLines true again (linesOf pa 8) with
        | some s => s
        | none => done s (some pa)

/-- The waiting jobs that a cancellation reaches: those with the tag, and all that depend on one of them. -/
def cancelSet (jobs : List Job) (k : Nat) (tag : BitVec 8) : List Nat :=
  let waiting := jobs.filter fun j => j.task == k && j.st == .waiting && j.slot.isSome
  let start := (waiting.filter fun j => tag == 0xFF || j.tag == tag).map (·.id)
  (List.range 24).foldl (fun acc _ =>
    acc ++ ((waiting.filter fun j => !acc.contains j.id && j.preds.any acc.contains).map (·.id))) start
/-- JCAN at commit (10 R210). -/
def State.cancelJobs (s : State) (x : CtxId) (tag : BitVec 8) : State :=
  (cancelSet s.jobs ((s.ctx x).task.getD 0) tag).foldl (fun s id =>
    (s.modJob id fun j => { j with st := .cancelled, todo := [] }).finishJob id (.ev (.copyBlockLand x id 0))) s

/-! ### A block is read (20 R353, 10 R206) -/

/-- The scratchpad bytes of a stretch, through the engine port. -/
def State.spPeek (s : State) (core : BitVec 8) (pos n : Nat) : List Byte := cellsReadN (s.core core).sp pos n

/-- What reading memory for an engine gives: bytes with the lowest poisoned block and whether it is late; or the act must
wait for acknowledgements; or an address is out of reach. -/
inductive EngRead where
  | got (bs : List Byte) (poison : Option Nat) (late : Bool)
  | wait
  | refused
  deriving DecidableEq, Repr
/-- Bytes at physical addresses read at home (11 R240). -/
def State.engRead (s : State) (x : CtxId) (again : Act) (pas : List Nat) : State × EngRead :=
  if pas.any fun a => (s.memFor x.die a).isNone || (homeDie a != x.die && (s.route x.die (homeDie a)).isNone) then (s, .refused)
  else if pas.any (s.linkWaits x.die) then (s.at_ (s.dc + 1) again, .wait)
  else
    match s.clearLines false again (pas.map (· / 128)).eraseDups with
    | some s => (s, .wait)
    | none =>
      let blocks := (pas.map (· / 512)).eraseDups
      let (po, late, s) := blocks.foldl (fun (acc : Option Nat × Bool × State) b =>
        let (_, p, l, s) := acc.2.2.homeRead (b * 512) 512
        (minBlock acc.1 p, acc.2.1 || l, s)) (none, false, s)
      (s, .got (pas.map fun a => if s.isDead a then 0 else cellsRead s.mem.cells a) po late)

/-- Whether the bytes must wait for the context's own earlier writes: committed lines older than the job, and posted
atomics (10 R206). -/
def State.srcWaits (s : State) (j : Job) (pas : List Nat) : Bool :=
  let c := s.ctx (s.jobCtx j)
  pas.any fun a => (c.sb.any fun l => l.committed && decide (l.id < j.id) && l.line == a / 128)
    || c.posted.any fun p => decide (p.1 < j.id) && rangesMeet a 1 p.2.1 p.2.2

/-- The physical addresses of n bytes at an offset of a part of a tensor that begins at `va`, with missing pages looked up afresh. -/
def State.addrsIn (s : State) (j : Job) (tensor : BitVec 24) (segs : List PSeg) (write : Bool) (va off n : Nat) :
    State × Except PageNow (List Nat) :=
  match segsAt segs off n with
  | some l => (s, .ok l)
  | none =>
    (pagesOf [(va + off, n)]).foldl (fun (acc : State × Except PageNow (List Nat)) p =>
      match acc with
      | (s, .error e) => (s, .error e)
      | (s, .ok l) =>
        let lo := max (va + off) (p * 4096)
        let hi := min (va + off + n) (p * 4096 + 4096)
        match segsAt segs (lo - va) (hi - lo) with
        | some m => (s, .ok (l ++ m))
        | none =>
          match s.pageNow j tensor lo (lo - va) write with
          | (s, .seg g) => (s, .ok (l ++ (List.range (hi - lo)).map (g.pa + ·)))
          | (s, r) => (s, .error r)) (s, .ok [])
def JSide.tensor (j : JSide) : BitVec 24 :=
  match j with
  | .mem id _ _ => id
  | .sp _ => 0
/-- The same for a memory side of a job. -/
def State.addrsNow (s : State) (j : Job) (dst : Bool) (va off n : Nat) : State × Except PageNow (List Nat) :=
  let side := if dst then j.dst else j.src
  s.addrsIn j side.tensor side.segs dst va off n

/-- An error ends a job: no later block is written (10 R205). -/
def State.failJob (s : State) (id : Nat) (again : Act) : State :=
  let s := s.modJob id fun j => { j with err := true, todo := [], due := [], buf := [] }
  match s.job? id with
  | some j => if j.isFill then s.next [again] else s.finishJob id again
  | none => s

/-! ### The rows of a gather (10 R203, R205) -/

/-- The rows of a gather that block b holds bytes of: first and count. -/
def Job.gatherSpan (j : Job) (b : Nat) : Nat × Nat :=
  let (lo, n) := blockSpan j.len b
  if j.rb = 0 then (0, 0) else (lo / j.rb, (lo + n - 1) / j.rb + 1 - lo / j.rb)
/-- The banks of the index words that block b of a gather reads. -/
def Job.idxBanks (j : Job) (b : Nat) : List Nat :=
  if j.kind = .gather then banksOf (j.idx + 4 * (j.gatherSpan b).1) (4 * (j.gatherSpan b).2) else []
/-- The index of row i: word i of the list at a linear scratchpad position. -/
def State.gatherIdx (s : State) (j : Job) (i : Nat) : Nat := bytesToNat (s.spPeek j.x.core (j.idx + 4 * i) 4)
/-- The addresses of n bytes from byte `o` of row i: checks 2 to 7 as the job reads it. -/
def State.gatherRow (s : State) (j : Job) (i o n : Nat) : State × Except PageNow (List Nat) :=
  match j.src with
  | .sp _ => (s, .error .bad)
  | .mem tensor off0 _ =>
    let x := s.jobCtx j
    match s.extent? x tensor with
    | none => (s, .error .bad)
    | some e =>
      let off : Int := off0 + (s.gatherIdx j i : Int) * j.sstr
      if off < 0 ∨ (e.size : Int) < off + j.rb then (s, .error .bad)
      else
        match s.checkPages x tensor 0 [(e.base + off.toNat, j.rb)] ⟨false, false, false⟩ with
        | (s, .fault 0x0107 _ _) => (s, .error .lost)
        | (s, .fault _ _ _) => (s, .error .bad)
        | (s, .miss _) => (s, .error .retry)
        | (s, .block _) => (s, .error .retry)
        | (s, .ok ps) =>
          let away (p : Nat × TlbEntry) : Bool :=
            decide (4 ≤ leafTier p.2.leaf) && !(leafTier p.2.leaf == 5 && s.recomputing (some j.task) tensor)
          if ps.any fun p => away p && leafTier p.2.leaf == 5 then (s, .error .dropped)
          else if ps.any away then (s, .error .retry)
          else (s, .ok ((List.range n).map fun q => pagePa ps (e.base + off.toNat + o + q)))
/-- The addresses of the bytes of block b of a gather. -/
def State.gatherAddrs (s : State) (j : Job) (b : Nat) : State × Except PageNow (List Nat) :=
  let (lo, n) := blockSpan j.len b
  let (r0, nr) := j.gatherSpan b
  let rows := (List.range nr).map (r0 + ·)
  rows.foldl (fun (acc : State × Except PageNow (List Nat)) i =>
    match acc with
    | (s, .error e) => (s, .error e)
    | (s, .ok l) =>
      let a := max lo (i * j.rb)
      let z := min (lo + n) (i * j.rb + j.rb)
      match s.gatherRow j i (a - i * j.rb) (z - a) with
      | (s, .ok m) => (s, .ok (l ++ m))
      | (s, .error e) => (s, .error e)) (s, .ok [])

/-! ### Conversion (10 R203) -/

/-- The bits of element i of consecutive stored bytes. -/
def eltOfBytes (w : Nat) (bs : List Byte) (i : Nat) : Nat :=
  if w = 4 then
    let b := (bs.getD (i / 2) 0).toNat
    if i % 2 = 0 then b % 16 else b / 16
  else bytesToNat ((List.range (eltBytes w)).map fun k => bs.getD (i * eltBytes w + k) 0) % 2 ^ w
/-- Codes laid out as stored bytes (04 R68). -/
def bytesOfElts (w : Nat) (codes : List Nat) : List Byte :=
  if w = 4 then
    (List.range ((codes.length + 1) / 2)).map fun k => BitVec.ofNat 8 (codes.getD (2 * k) 0 % 16 + 16 * (codes.getD (2 * k + 1) 0 % 16))
  else codes.flatMap fun c => natToBytes (c % 2 ^ w) (eltBytes w)
/-- n elements converted once (04 R76), each with the shift of its source and of its target. -/
def convertElts (sf df : FmtSlot) (bs : List Byte) (n : Nat) (ss ds : Nat → Int) : List Byte :=
  bytesOfElts df.width ((List.range n).map fun i => roundTo ((sf.num.decode (eltOfBytes sf.width bs i)).scale (ss i - ds i)) df.num .ne)

/-! ### COPY_BLOCK_ISSUE and COPY_BLOCK_LAND (20 R353, 10 R206) -/

/-- What block b reads of memory: its own bytes, then the plane bytes of its source and of its target. -/
def State.blockAddrs (s : State) (j : Job) (b : Nat) : State × Except PageNow (List Nat × Nat × Nat) :=
  let own : State × Except PageNow (List Nat) :=
    match j.src with
    | .sp _ => (s, .ok [])
    | .mem _ va _ =>
      if j.kind = .gather then s.gatherAddrs j b
      else if j.dataBlocks ≤ b then
        let (o, n) := j.scaleSpan b
        (s, ((segsAt j.sshift o n).map Except.ok).getD (.error .bad))
      else s.addrsNow j false va (blockSpan j.len b).1 (blockSpan j.len b).2
  match own with
  | (s, .error e) => (s, .error e)
  | (s, .ok l) =>
    if j.kind = .convert then
      let (e, n) := j.eltSpan b
      let a := planeSpan j.sfmt.geom.toNat (j.selt + e) n
      let c := planeSpan j.dfmt.geom.toNat (j.delt + e) n
      match s.addrsIn j j.src.tensor j.sshift false j.splane a.1 a.2 with
      | (s, .error e) => (s, .error e)
      | (s, .ok pa) =>
        match s.addrsIn j j.dst.tensor j.dshift false j.dplane c.1 c.2 with
        | (s, .error e) => (s, .error e)
        | (s, .ok pc) => (s, .ok (l ++ pa ++ pc, l.length, l.length + pa.length))
    else (s, .ok (l, l.length, l.length))

/-- The bytes of block b for its target, from what was read (10 R203). -/
def State.blockBytes (s : State) (j : Job) (b : Nat) (bs : List Byte) (n1 n2 : Nat) : List Byte :=
  let own := match j.src with
    | .sp pos => s.spPeek j.x.core (pos + (blockSpan j.len b).1) (blockSpan j.len b).2
    | .mem _ _ _ => bs.take n1
  if j.kind = .convert then
    let (e, n) := j.eltSpan b
    let sh (f : FmtSlot) (first : Nat) (pl : List Byte) (i : Nat) : Int :=
      if f.geom = 0 then 0
      else byteInt (pl.getD (blockOf f.geom.toNat (first + e + i) - (planeSpan f.geom.toNat (first + e) n).1) 0)
    convertElts j.sfmt j.dfmt own n (sh j.sfmt j.selt ((bs.drop n1).take (n2 - n1))) (sh j.dfmt j.delt (bs.drop n2))
  else own

/-- Block b has been read: its bytes are kept for the target, and its landing stands at a dc. -/
def State.blockRead (s : State) (j : Job) (b land : Nat) (out : List Byte) (po : Option Nat) : State :=
  let base := if j.dataBlocks ≤ b then 2 ^ 20 + (j.scaleSpan b).1 - (planeSpan j.sfmt.geom.toNat j.selt j.nelt).1 else (j.dstSpan b).1
  s.modJob j.id fun q => { q with
    todo := q.todo.filter (· != b), due := q.due ++ [(b, land)], buf := q.buf ++ bytesAt base out, poison := q.poison <|> po }

/-- The banks that the array, or a drain row, has taken at the engine port of a core in this dc (08 R161). -/
def State.banksUsed (s : State) (core : BitVec 8) : BitVec 64 :=
  let k := s.core core
  (if k.stepDc = some s.dc ∨ k.engDc = some s.dc then k.arrayBanks else 0) ||| (if k.drainDc = some s.dc then k.drainBanks else 0)
/-- The drain rows of a core that are still to be written in this dc: their drains, with their banks. -/
def State.drainsDue (s : State) (core : BitVec 8) : List (Nat × List Nat) :=
  s.agenda.filterMap fun p =>
    match p.2 with
    | .ev (.scratchpadDrainRow y id _) =>
      if decide (p.1 ≤ s.dc) && y.core == core then
        ((s.ctx y).drains.find? fun d => d.id == id).bind fun d =>
          match d.tgt with
          | .sp bank _ => some (id, bankSet bank ((colBytes d.fmt.width + 63) / 64))
          | .mem .. => none
      else none
    | _ => none
/-- A copy yields its banks to the array and to drain rows, and waits one dc (08 R161, R172). -/
def State.copyYields (s : State) (core : BitVec 8) (banks : List Nat) : Bool :=
  banks.any fun b => (s.banksUsed core).getLsbD b || (s.drainsDue core).any fun d => d.2.contains b

/-- The addresses in memory that block b writes, where they are mapped now. -/
def State.dstAddrs (s : State) (j : Job) (b : Nat) : List Nat :=
  match j.dst with
  | .sp _ => []
  | .mem _ va _ =>
    (match (s.addrsNow j true va (j.dstSpan b).1 (j.dstSpan b).2).2 with
    | .ok l => l
    | .error _ => [])
/-- The latency of block b now that its addresses are known: `pas` are those of its source (20 R353). -/
def State.latencyNow (s : State) (j : Job) (b : Nat) (pas : List Nat) : Option Nat :=
  let src := match j.src with
    | .sp _ => some 0
    | .mem .. => figuresOf j.x.die pas
  let dst := match j.dst with
    | .sp _ => some 0
    | .mem _ va _ =>
      (match (s.addrsNow j true va (j.dstSpan b).1 (j.dstSpan b).2).2 with
      | .ok l => figuresOf j.x.die l
      | .error _ => none)
  match src, dst with
  | some a, some c => some (if a + c = 0 then 1 else a + c)
  | _, _ => none

/-- Block b of a job stands to land at a dc that 20 R353 fixes. -/
def State.nominate (s : State) (j : Job) (b due : Nat) : State :=
  (s.modJob j.id fun q => { q with nominal := q.nominal ++ [(b, due)], held := q.held.filter (· != b) }).at_ due (.ev (.copyBlockLand j.x j.id b))

/-- COPY_BLOCK_ISSUE: the block of a running job issues in its lane's slot, or through the fabric's headroom; a block that
must wait tries again and lands late (20 R353-R355). One held for a dropped page takes a lane once the page is resident. -/
def State.copyBlockIssue (s : State) (x : CtxId) (id b : Nat) : State :=
  let me : Act := .ev (.copyBlockIssue x id b)
  let land : Act := .ev (.copyBlockLand x id b)
  match s.job? id with
  | none => s
  | some j =>
    if !j.todo.contains b then s
    else
      let named := j.nominal.any (·.1 == b)
      let (s, r) := s.blockAddrs j b
      let rows := match r with
        | .ok (pas, n1, _) => pas.take n1
        | .error _ => []
      let placed := j.kind != .gather || !rows.isEmpty
      let s := match j.latency b rows with
        | some n => if placed && !named then s.nominate j b (s.dc + n) else s
        | none => s
      let slotted := named || (placed && (j.latency b rows).isSome)
      let retry (s : State) : State := s.at_ (s.dc + 1) me
      match r with
      | .error .lost | .error .bad | .error (.seg _) => s.failJob id land
      | .error .retry => retry s
      | .error .dropped => retry (s.modJob id fun q => { q with held := if slotted || q.held.contains b then q.held else q.held ++ [b] })
      | .ok (pas, n1, n2) =>
        match j.held.contains b, s.latencyNow j b rows with
        | true, some n =>
          let (d, s) := s.takeLane j.x.core
          (s.nominate j b (d + n)).at_ d me
        | _, lat =>
          let banks := match j.src with
            | .sp pos => banksOf (pos + (blockSpan j.len b).1) (blockSpan j.len b).2
            | .mem .. => j.idxBanks b
          if s.srcWaits j pas || s.copyYields j.x.core banks then retry s
          else
            match s.engRead x me pas with
            | (s, .wait) => s
            | (s, .refused) =>
              let s := (s.modJob id fun q => { q with todo := q.todo.filter (· != b), landed := q.landed ++ [b] }).taskFailure
                j.task (homeDie (pas.headD 0)) true
              s.next [land]
            | (s, .got bs po late) =>
              match po, j.isFill with
              | some p, false => (s.logPoison x (p) true).failJob id land
              | _, _ =>
                let out := s.blockBytes j b bs n1 n2
                let from_ := rows.find? fun a => homeDie a != j.x.die
                let s := if from_.isSome then s.modJob id fun q => { q with far := q.far ++ [(b, from_.getD 0)] } else s
                -- over two hops the figures do not hold (21 R385)
                let (hops, s) := if (rows ++ s.dstAddrs j b).any (s.detours j.x.die) then
                    let (k, s) := s.draw .latency
                    (k + 1, s)
                  else (0, s)
                match slotted, lat with
                | true, some n => s.blockRead j b (s.dc + n + s.poolDelay j b rows + hops + (if late then 64 else 0)) out (po.map (· * 512))
                | _, _ => (s.blockRead j b s.dc out (po.map (· * 512))).later land

/-- A block that is on its way lands later than its slot would have it: a hot channel, a lane recovery, a link replay
(20 R354). -/
def State.slowBlock (s : State) (id b n : Nat) : State :=
  s.modJob id fun j => { j with due := updWhere (fun p => p.1 == b) (fun p => (p.1, p.2 + n)) j.due }

/-- Whether a side of a job lies at the CXL port. -/
def JSide.cxl (j : JSide) : Bool := j.segs.any fun g => ((memAt g.pa).map (·.1)) == some .cxl
/-- A read or a write of a block fails at the CXL port (21 R392): the job ends with ERR, and FENCE reports a failed write as
refused. -/
def State.cxlFailed (s : State) (id b : Nat) (write : Bool) : State :=
  match s.job? id with
  | none => s
  | some j =>
    let land : Act := .ev (.copyBlockLand j.x id b)
    if j.landed.contains b || !(if write then j.dst else j.src).cxl || !(j.due.any (·.1 == b) || !write && j.todo.contains b) then s
    else (if write then s.taskFailure j.task 0 true else s).failJob id land

/-- The last block of a fill or a job has landed. -/
def State.allLanded (s : State) (id : Nat) (again : Act) : State :=
  match s.job? id with
  | none => s
  | some j =>
    if j.todo.isEmpty && j.due.isEmpty then
      match j.kind with
      | .fill ws => s.next [.ev (.mldwFillLand j.x ws id)]
      | _ => s.finishJob id again
    else s

/-- The job of a context with a slotted block that was due by now and has not landed: its context is frozen (01 R19, 20 R354). A
landing in scratchpad follows the cores in a dc: one that yields at the engine port freezes its context from the dc after the
one in which it was due (DEDUCED, log 126). -/
def State.lateJob (s : State) (x : CtxId) : Option Nat :=
  (s.jobs.find? fun j => some j.task == (s.ctx x).task && j.nominal.any fun p =>
    decide (p.2 ≤ s.dc) && !j.landed.contains p.1 && !(match j.dst with
      | .sp _ => decide (p.2 = s.dc) && j.due.any fun q => q.1 == p.1 && decide (q.2 ≤ s.dc)
      | .mem .. => false)).map (·.id)

/-- Whether an earlier write of the context to one of these byte ranges is still to be performed: a committed line, a posted
atomic, a memory drain or a job (09 R192, 11 R229). -/
def State.olderOwn (s : State) (x : CtxId) (id : Nat) (ranges : List (Nat × Nat)) : Bool :=
  ranges.any fun r => ((s.ctx x).sb.any fun l => l.committed && (List.range 128).any fun i =>
      unitBits l.mask i != 0 && decide (l.ordAt i ≤ id) && rangesMeet (l.line * 128 + i) 1 r.1 r.2)
    || (s.writers x r.1 r.2).any fun w => decide (w < id)
/-- The cells that a block writes to memory; an odd last 4-bit element keeps the other half of its byte (04 R68). -/
def Job.memCells (j : Job) (b : Nat) (old : Nat → Byte) (pas : List Nat) (bs : List Byte) : List Host.Cell :=
  let half := j.kind == .convert && j.dfmt.width == 4 && (j.eltSpan b).2 % 2 == 1
  let l := pas.zip bs
  match half, l.getLast? with
  | true, some (a, v) => l.dropLast ++ [(a, (old a &&& 0xF0) ||| (v &&& 0x0F))]
  | _, _ => l


/-- COPY_BLOCK_LAND: the block is written, or lands late (20 R353, R354, 10 R206). -/
def State.copyBlockLand (s : State) (x : CtxId) (id b : Nat) : State :=
  let me : Act := .ev (.copyBlockLand x id b)
  match s.job? id with
  | none => s
  | some j =>
    if j.st = .finishing ∨ j.st = .cancelled then s.finishJob id me
    else if j.landed.contains b then s.allLanded id me
    else
      match j.due.find? fun p => p.1 == b with
      | none => if j.err then s.allLanded id me else s.at_ (s.dc + 1) me
      | some (_, due) =>
        let done (s : State) : State :=
          let s := s.modJob id fun q => { q with due := q.due.filter fun p => p.1 != b, landed := q.landed ++ [b] }
          s.allLanded id me
        if s.dc < due then s.at_ due me
        else if j.far.any fun p => p.1 == b && s.linkWaits j.x.die p.2 then s.at_ (s.dc + 1) me
        else if j.isFill then done s
        else
          let (o, n) := j.dstSpan b
          let mine := j.buf.filter fun p => decide (o ≤ p.1 ∧ p.1 < o + n)
          let drop (s : State) : State := s.modJob id fun q => { q with buf := q.buf.filter fun p => !decide (o ≤ p.1 ∧ p.1 < o + n) }
          match j.dst with
          | .sp pos =>
            let k := s.core j.x.core
            if s.copyYields j.x.core (mine.map fun p => posBank (pos + p.1)).eraseDups then s.at_ (s.dc + 1) me
            else
              let half := j.kind == .convert && j.dfmt.width == 4 && (j.eltSpan b).2 % 2 == 1
              let last := o + n - 1
              let cells := mine.map fun p =>
                (pos + p.1, if half && p.1 == last then (cellsRead k.sp (pos + p.1) &&& 0xF0) ||| (p.2 &&& 0x0F) else p.2)
              done ((drop s).modCore j.x.core fun k => { k with sp := cellsWriteAll k.sp cells })
          | .mem _ va _ =>
            match s.addrsNow j true va o n with
            | (s, .error .lost) | (s, .error .bad) | (s, .error (.seg _)) => s.failJob id me
            | (s, .error .retry) => s.at_ (s.dc + 1) me
            | (s, .error .dropped) =>
              (s.modJob id fun q => { q with held := if q.nominal.any (·.1 == b) || q.held.contains b then q.held else q.held ++ [b] }).at_ (s.dc + 1) me
            | (s, .ok pas) =>
              let owner := s.jobCtx j
              if j.held.contains b then
                -- the dropped target is resident again: the block takes a lane as any block does (20 R355)
                let (d, s) := s.takeLane j.x.core
                match figuresOf j.x.die pas with
                | some n => (s.modJob id fun q => { q with due := updWhere (fun p => p.1 == b) (fun _ => (b, d + n)) q.due }).nominate j b (d + n)
                | none => (s.modJob id fun q => { q with held := q.held.filter (· != b) }).at_ d me
              else
              if pas.any fun a => (s.memFor x.die a).isNone || (homeDie a != x.die && (s.route x.die (homeDie a)).isNone) then
                done ((drop s).taskFailure j.task (homeDie (pas.headD 0)) true)
              else if pas.any (s.linkWaits x.die) then s.at_ (s.dc + 1) me
              else if s.olderOwn owner id (pas.map fun a => (a, 1)) then s.at_ (s.dc + 1) me
              else
                match s.clearLines true me (pas.map (· / 128)).eraseDups with
                | some s => s
                | none =>
                  let (dead, s) := (drop s).homeWrite (j.memCells b (cellsRead s.mem.cells) pas (mine.map (·.2)))
                  let s := s.dropOwn x.core (pas.map (· / 128)).eraseDups
                  let s := if dead then s.taskFailure j.task (homeDie (pas.headD 0)) true else s
                  done s

end Sys2Proof.Machine
end

