-- ==== Sys2Proof/Machine/Matrix.lean ====
section
/-! DEFINITION. M-slot operations: step operations, drains and the issue of macros (08 R157-R179, 04 R78, R79). -/

namespace Sys2Proof.Machine

/-! ### Operands (08 R162, R163) -/

/-- K indices per step, by the wider of two widths (01 R15, 04 R78). -/
def kpcOf (wa wb : Nat) : Nat :=
  let w := max wa wb
  if w ≤ 4 then 8 else if w ≤ 8 then 4 else if w ≤ 16 then 2 else 1
/-- The bits of element i of a byte source. -/
def eltOfFn (w : Nat) (f : Nat → Byte) (i : Nat) : Nat :=
  if w = 4 then
    let b := (f (i / 2)).toNat
    if i % 2 = 0 then b % 16 else b / 16
  else natOfBytes (fun k => f (i * eltBytes w + k)) (eltBytes w) % 2 ^ w
/-- Byte q of a 256-byte operand, read through the engine port. -/
def State.engByte (s : State) (core : BitVec 8) (bank row q : Nat) : Byte := cellsRead (s.core core).sp (opPos bank row q)

/-- MatIn (04 R78): binary32 subnormals are flushed to a zero of their sign. -/
def matIn (f : NumFmt) (bits : Nat) (shift : Int) : XVal :=
  if f = .binary32 ∧ bits / 2 ^ 23 % 256 = 0 then .fin (decide (2 ^ 31 ≤ bits)) 0 0 else (f.decode bits).scale shift

/-! ### B panels (08 R165) -/

/-- The format of a weight slot. -/
def WSlot.num (w : WSlot) : NumFmt := NumFmt.ofCode w.code.toNat w.bias.toInt
def bytesFn (l : List Byte) : Nat → Byte :=
  let a := l.toArray
  fun i => a.getD i 0
/-- The bytes a row of a masked panel takes, its mask included. -/
def maskedRow (w : Nat) (data : Nat → Byte) (at_ : Nat) : Nat :=
  8 + bytesOfN w (onesBelow (natOfBytes (fun i => data (at_ + i)) 8) 64)
/-- Where row k of a masked panel begins. -/
def maskedStart (w : Nat) (data : Nat → Byte) : Nat → Nat
  | 0 => 0
  | k + 1 =>
    let p := maskedStart w data k
    p + maskedRow w data p
/-- The nibble j of the index row of a pair group (08 R165). -/
def pairNibble (w : Nat) (data : Nat → Byte) (g j : Nat) : Nat :=
  eltOfFn 4 (fun i => data (g * (2 * colBytes w + 32) + 2 * colBytes w + i)) j
/-- The shift of element (k, j) of a panel (08 R166). -/
def WSlot.shift (w : WSlot) (k j : Nat) : Int :=
  if w.geom = 0 then 0
  else
    let i := w.elt0 + 64 * k + j
    byteInt (w.scale.getD (blockOf w.geom.toNat i - (planeSpan w.geom.toNat w.elt0 (64 * w.rows.toNat)).1) 0)
/-- Row k of B: 64 values; a position that the mode does not store is +0 (08 R165). -/
def WSlot.rowVals (w : WSlot) (k : Nat) : List XVal :=
  let f := w.num
  let data := bytesFn w.data
  (List.range 64).map fun j =>
    match w.mode.toNat with
    | 0 => matIn f (eltOfFn f.width data (k * 64 + j)) (w.shift k j)
    | 1 =>
      let g := k / 4
      let base := g * (2 * colBytes f.width + 32)
      let nib := pairNibble f.width data g j
      if nib % 4 = k % 4 then matIn f (eltOfFn f.width (fun i => data (base + i)) j) 0
      else if nib / 4 = k % 4 then matIn f (eltOfFn f.width (fun i => data (base + colBytes f.width + i)) j) 0
      else .zero
    | _ =>
      let st := maskedStart f.width data k
      let m := natOfBytes (fun i => data (st + i)) 8
      if m / 2 ^ j % 2 = 1 then matIn f (eltOfFn f.width (fun i => data (st + 8 + i)) (onesBelow m j)) 0 else .zero
/-- Whether a landed panel is well formed (08 R165). -/
def WSlot.panelOk (w : WSlot) : Bool :=
  let data := bytesFn w.data
  match w.mode.toNat with
  | 1 => (List.range (w.rows.toNat / 4)).all fun g => (List.range 64).all fun j =>
      let nib := pairNibble w.num.width data g j
      decide (nib % 4 < nib / 4)
  | 2 => maskedStart w.num.width data w.rows.toNat == w.len.toNat
  | _ => true
/-- Bytes(mode) of a panel of K rows (08 R165). -/
def panelBytes (mode w k len : Nat) : Nat :=
  match mode with
  | 0 => k * colBytes w
  | 1 => k / 4 * (2 * colBytes w + 32)
  | _ => len

/-! ### One kpc group (04 R78, 08 R169) -/

/-- C + the exact sum of the products, rounded once. Where the step has no row below K there is no product, and an accumulator that is
a NaN keeps its own sign (DESIGN CHOICE, log 151). -/
def macSum (c : BitVec 32) (products : List XVal) : BitVec 32 := toF32 (products.foldl XVal.add (f32 c))
/-- The tile after one group: rows k0 to k0 + kpc - 1 of B, A's slice by (row, column). -/
def mmaTile (t : Tile) (w : WSlot) (k0 kpc : Nat) (a : Nat → Nat → XVal) : Tile :=
  let cols := (List.range kpc).filter fun c => decide (k0 + c < w.rows.toNat)
  let b := (cols.map fun c => (c, (w.rowVals (k0 + c)).toArray))
  tileOf fun i j => macSum (Tile.elt t i j) (b.map fun p => (a i p.1).mul (p.2.getD j .zero))
/-- Cursor + kpc, at most 65,536. -/
def curAfter (cur kpc : Nat) : BitVec 17 := BitVec.ofNat 17 (min (cur + kpc) 65536)

/-! ### The gate of the M slot (08 R157, R158, 17 R319) -/

/-- At system level the array must be owned; while engine work of the context runs or pends, the slot faults. -/
def State.matGate (s : State) (k : State → State) : State :=
  let c := s.cur
  if c.sys.pl && !c.sys.mowned then s.raise 0x0008 0
  else if c.work.isSome then s.raise 0x0007 0
  else k s
/-- A step operation takes the array in this dc and reads these banks (08 R157, R161). -/
def State.useArray (s : State) (banks : List Nat) : State :=
  s.modCore s.iss.x.core fun k => { k with
    stepDc := some s.dc, arrayBanks := banks.foldl (fun m b => m ||| BitVec.ofNat 64 (2 ^ (b % 64))) 0 }
/-- A scratchpad operand of the array: checks 2 and 6 (08 R162, R173). -/
def State.arrayOperand (s : State) (p : SpPos) (k : Nat → Nat → State → State) : State :=
  match s.cur.spPos p with
  | none =>
    let off := (match p with
      | .indirect a => addrOff (s.cur.readA a)
      | .direct _ _ => 0).toNat
    s.raise 0x0003 (BitVec.ofNat 64 (off / 64 * 4096 + off % 64 * 64))
  | some (bank, row) =>
    if s.rowBarred s.iss.x row then s.raise 0x0106 (BitVec.ofNat 64 (linPos bank row 0)) else k bank row s
def State.modTile (s : State) (ct : CReg) (t : Tile) : State := s.modRegs s.iss.x fun r => r.setTile ct t

/-- MZERO (08 R168). -/
def execMzero (ct : CReg) (s : State) : Out := .next (s.matGate fun s => (s.useArray []).modTile ct 0)
/-- MBIAS (08 R168). -/
def execMbias (ct : CReg) (bank : BitVec 6) (row : BitVec 11) (s : State) : Out :=
  .next (s.matGate fun s => s.arrayOperand (.direct bank row) fun b r s =>
    let f := s.engByte s.iss.x.core b r
    (s.useArray (bankSet b 4)).modTile ct (tileOf fun _ j => BitVec.ofNat 32 (eltOfFn 32 f j)))
/-- MSCALE (08 R168). -/
def execMscale (ct : CReg) (bank : BitVec 6) (row : BitVec 11) (s : State) : Out :=
  .next (s.matGate fun s => s.arrayOperand (.direct bank row) fun b r s =>
    let f := s.engByte s.iss.x.core b r
    let t := s.cur.readTile ct
    (s.useArray (bankSet b 4)).modTile ct (tileOf fun i j => f32Mul (Tile.elt t i j) (BitVec.ofNat 32 (eltOfFn 32 f j))))

/-- MmaStep at issue (08 R169). -/
def State.mmaStep (s : State) (ct : CReg) (pos : SpPos) (ws : CReg) (fa : BitVec 5) (kr : BitVec 1) (transposed : Bool) : State :=
  s.matGate fun s => s.arrayOperand pos fun b r s =>
    let c := s.cur
    let w := c.wslot ws
    if w.state = 1 then s.blockOn 0
    else if w.state ≠ 2 then s.raise 0x000A (ws.zeroExtend 64)
    else if (c.readFmt fa).geom ≠ 0 then s.raise 0x0005 0
    else
      let f := (c.readFmt fa).num
      let kpc := kpcOf f.width w.num.width
      let cur := if kr = 1 then 0 else (c.regs.cur[ws.toNat]'ws.isLt).toNat
      let bytes := s.engByte s.iss.x.core b r
      let a (i col : Nat) : XVal := matIn f (eltOfFn f.width bytes (if transposed then i * kpc + col else col * 64 + i)) 0
      let s := match w.poison with
        | some p => s.faultPoison p
        | none => s
      ((s.useArray (bankSet b ((kpc * colBytes f.width + 63) / 64))).modTile ct (mmaTile (c.readTile ct) w cur kpc a)).modRegs s.iss.x fun g =>
        g.setCur ws (curAfter cur kpc)
/-- MMA (08 R169). -/
def execMma (ct : CReg) (pos : SpPos) (ws : CReg) (fa : BitVec 5) (kr : BitVec 1) (s : State) : Out :=
  .next (s.mmaStep ct pos ws fa kr false)
/-- MMAT (08 R169). -/
def execMmat (ct : CReg) (pos : SpPos) (ws : CReg) (fa : BitVec 5) (kr : BitVec 1) (s : State) : Out :=
  .next (s.mmaStep ct pos ws fa kr true)

/-! ### Fills (08 R166) -/

/-- A fill as the copy engine holds it. -/
def fillJob (id : Nat) (x : CtxId) (task : Nat) (ws : CReg) (tensor : BitVec 24) (va bytes : Nat) (segs plane : List PSeg)
    (f : FmtSlot) (elt0 nelt : Nat) : Job :=
  let n := planeSpan f.geom.toNat elt0 nelt
  let extra := if n.2 = 0 then 0 else (n.1 + n.2 - 1) / 512 + 1 - n.1 / 512
  let nb := (bytes + 511) / 512 + extra
  { id := id, x := x, task := task, slot := none, tblKind := 0, kind := .fill ws, st := .running, born := true
    src := .mem tensor va segs, dst := .sp 0, len := bytes, nblocks := nb, todo := List.range nb, landed := [], due := []
    preds := [], rd := [], wr := [], tag := 0, cwe := none, bare := none, err := false, sfmt := f, dfmt := f
    sshift := plane, dshift := [], nelt := nelt, selt := elt0, delt := 0, idx := 0, rb := 0, sstr := 0, follow := none
    words := [], buf := [], poison := none }

/-- The plane stretches that elements of a tensor need, numbered from the start of the plane. -/
def planeSegs (ps : Pages) (e : Extent) (geom first n : Nat) : List PSeg :=
  let (lo, cnt) := planeSpan geom first n
  (segsOf ps (e.base + planeOff e.size + lo) cnt).map fun (g : PSeg) => { g with off := g.off + lo }
/-- The byte range of the plane that elements need. -/
def planeRange (e : Extent) (geom first n : Nat) : Nat × Nat :=
  let (lo, cnt) := planeSpan geom first n
  (e.base + planeOff e.size + lo, cnt)

/-- A fill begins: the slot is filling, and its blocks take lanes (08 R166). -/
def State.startFill (s : State) (x : CtxId) (ws : CReg) (j : Job) (w : WSlot) : State :=
  let s := { s with jobs := s.jobs ++ [j] }
  (s.modCtx x fun c => c.setW ws { w with fill := j.id }).launchJob j.id

/-- MLDW (08 R166). -/
def execMldw (ws : CReg) (ad : AReg) (imm : BitVec 32) (gk : GReg) (mode : MldwMode) (s : State) : Out :=
  .next (s.matGate fun s =>
    let x := s.iss.x
    let a := s.cur.readA ad
    let off : Int := (addrOff a).toNat + imm.toInt
    let k := ((s.gval gk).extractLsb' 0 20).toNat
    match s.extent? x (addrId a) with
    | none => s.raise 0x0003 (BitVec.ofInt 64 off)
    | some e =>
      let f := s.slotAt x e off
      let n := panelBytes mode.toNat f.width k ((s.gval gk).extractLsb' 32 20).toNat
      if k = 0 ∨ 65536 < k ∨ (mode = .pair ∧ k % 4 ≠ 0) ∨ 65536 < n ∨ n = 0 then s.raise 0x0009 (BitVec.ofNat 64 k)
      else if off < 0 ∨ (e.size : Int) < off + n then s.raise 0x0003 (BitVec.ofInt 64 (e.base + off))
      else
        let va := e.base + off.toNat
        let tval := BitVec.ofNat 64 va
        let elt0 := eltPos f.width off.toNat
        -- a block-scaled panel is dense and starts a block; only then does it touch its scale bytes
        let odd := f.geom != 0 && (mode != .dense || elt0 % (if f.geom = 4 then 512 else 64) != 0)
        let plane := if odd then [] else [planeRange e f.geom.toNat elt0 (64 * k)]
        match s.checkScaled x (addrId a) tval none f.geom [(va, n)] plane wantLoad with
        | (s, .fault code v im) => if odd ∧ code = 0x0107 then s.raise 0x0005 tval else s.raise code v im
        | (s, .miss items) => if odd then s.raise 0x0005 tval else items.foldl (fun s i => s.missOn i) s
        | (s, .block v) => if odd then s.raise 0x0005 tval else s.blockOn v
        | (s, .ok ps) =>
          if odd then s.raise 0x0005 tval
          else
            s.countNt fun id s =>
              let w : WSlot := {
                src := mkAddr (addrId a) (BitVec.ofInt 40 off), state := 1, mode := BitVec.ofNat 2 mode.toNat, code := f.code
                bias := f.bias, geom := f.geom, rows := BitVec.ofNat 17 k, len := BitVec.ofNat 17 n, elt0 := elt0, born := true }
              let j := fillJob id x ((s.ctx x).task.getD 0) ws (addrId a) va n (segsOf ps va n)
                (planeSegs ps e f.geom.toNat elt0 (64 * k)) f elt0 (64 * k)
              let s := (s.useArray []).startFill x ws j w
              s.modRegs x fun r => r.setCur ws 0)

/-! ### Drains (08 R170-R172, 04 R79) -/

/-- A clamp bound pair: lo in [31:0], hi in [63:32]; a NaN bound is not applied (08 R171). -/
def clampVal (x : XVal) (cl : Option Word) : XVal :=
  match cl with
  | none => x
  | some g =>
    let lo := f32 (g.extractLsb' 0 32)
    let hi := f32 (g.extractLsb' 32 32)
    if x.lt lo then lo else if hi.lt x then hi else x
/-- One element of a drain: c alone, or the exact sum with the target's element; rounded toward zero (04 R79). -/
def drainElt (f : NumFmt) (c : BitVec 32) (old : Nat) (shift : Int) (acc : Bool) (cl : Option Word) : Nat :=
  let x := if acc then clampVal (((f.decode old).scale shift).add (f32 c)) cl else f32 c
  roundTo (x.scale (-shift)) f .tz
/-- The bytes of row i of a drain, over the bytes that stand in the target. -/
def Drain.rowBytes (d : Drain) (i : Nat) (old : List Byte) (shift : Nat → Int) : List Byte :=
  let f := d.fmt.num
  bytesOfElts f.width ((List.range 64).map fun j =>
    drainElt f (Tile.elt d.tile i j) (eltOfBytes f.width old j) (shift j) d.acc d.clamp)

/-- The rows of a memory drain: bounds, alignment, translation (08 R171). -/
inductive RowsAt where
  | fault (code : BitVec 16) (tval : Word) (imm : BitVec 32)
  | miss (items : List Item)
  | block (tval : Word)
  | ok (f : FmtSlot) (rows : List (List (Nat × Nat))) (shifts : List (List Nat)) (coh : Bool)
  deriving DecidableEq, Repr

/-- The target rows from an address value, an offset and a pitch, in the formats `fmt` (08 R171, R174). -/
def State.drainRows (s : State) (x : CtxId) (a : Word) (imm : Int) (pitch : Int) (fmt : BitVec 5 → FmtSlot) (compute : Bool) :
    State × RowsAt :=
  let off : Int := (addrOff a).toNat + imm
  match s.extent? x (addrId a) with
  | none => (s, .fault 0x0003 (BitVec.ofInt 64 off) 0)
  | some e =>
    let tval := BitVec.ofInt 64 (e.base + off)
    let f := match s.pageSlot x e off with
      | some n => fmt n
      | none => {}
    let n := colBytes f.width
    let offs := (List.range 64).map fun (i : Nat) => off + i * pitch
    if offs.any fun o => decide (o < 0 ∨ (e.size : Int) < o + n) then (s, .fault 0x0003 tval 0)
    else if offs.any fun o => decide ((e.base + o) % n ≠ 0) then (s, .fault 0x0004 tval 0)
    else
      let vas := offs.map fun o => e.base + o.toNat
      let planes := offs.map fun o => planeRange e f.geom.toNat (eltPos f.width o.toNat) 64
      match s.checkScaled x (addrId a) tval none f.geom (vas.map fun v => (v, n)) planes ⟨true, compute, false⟩ with
      | (s, .fault code v im) => (s, .fault code v im)
      | (s, .miss items) => (s, .miss items)
      | (s, .block v) => (s, .block v)
      | (s, .ok ps) =>
        let plane (o : Int) (j : Nat) : Nat :=
          pagePa ps (e.base + planeOff e.size + blockOf f.geom.toNat (eltPos f.width o.toNat + j))
        (s, .ok f (vas.map fun v => [(pagePa ps v, n)])
          (if f.geom = 0 then [] else offs.map fun o => (List.range 64).map (plane o))
          (ps.any fun p => leafCoh p.2.leaf))

/-- A drain starts: a snapshot of the tile; a scratchpad drain writes from the next dc, a memory drain is held until its
segment commits (08 R171, R172). -/
def State.startDrain (s : State) (x : CtxId) (d : Drain) : State :=
  let s := s.modCtx x fun c => { c with drains := c.drains ++ [d] }
  match d.tgt with
  | .sp _ _ => s.at_ (s.dc + 1) (.ev (.scratchpadDrainRow x d.id 0))
  | .mem _ _ _ => s.modCtx x fun c => { c with counts := { c.counts with memDrains := c.counts.memDrains ++ [d.id] } }

/-- The rows of a memory drain leave for their home slices (08 R172). -/
def State.sendRows (s : State) (x : CtxId) (d : Drain) : State :=
  match d.tgt with
  | .sp _ _ => s
  | .mem rows _ _ =>
    rows.zipIdx.foldl (fun s p => s.sendHome x.die ((p.1.headD (0, 0)).1) (.ev (.memoryDrainRow x d.id p.2))) s

/-- MDRAIN and MDRAINA at issue (08 R170, R171). -/
def State.drainOp (s : State) (ct : CReg) (tgt : DrainTgt) (acc : Bool) (clamp : Option Word) (zc : BitVec 1) : State :=
  s.matGate fun s =>
    let x := s.iss.x
    let go (t : RowTgt) (f : FmtSlot) (sh : List (List Nat)) (s : State) : State :=
      s.countNt fun id s =>
        let d : Drain := { id := id, tile := s.cur.readTile ct, tgt := t, fmt := f, shifts := sh, acc := acc, clamp := clamp
                           next := 0, done := [], held := (match t with
                             | .sp _ _ => false
                             | .mem _ _ _ => true), born := true, follow := none }
        let s := (s.useArray []).startDrain x d
        if zc = 1 then s.modTile ct 0 else s
    match tgt with
    | .sp bank row fo =>
      let f := s.cur.readFmt fo
      if f.geom ≠ 0 then s.raise 0x0005 0
      else
        match s.firstBarred x row.toNat 64 with
        | some r => s.raise 0x0106 (BitVec.ofNat 64 (linPos bank.toNat r 0))
        | none => go (.sp bank.toNat row.toNat) f [] s
    | .mem ad imm =>
      let a := s.cur.readA ad
      match s.drainRows x a imm.toInt (s.cur.readStride ad).toInt (fun n => s.cur.readFmt n) true with
      | (s, .fault code v im) => s.raise code v im
      | (s, .miss items) => items.foldl (fun s i => s.missOn i) s
      | (s, .block v) => s.blockOn v
      | (s, .ok f rows sh coh) => go (.mem rows coh (addrId a)) f sh s
/-- MDRAIN (08 R171). -/
def execMdrain (ct : CReg) (tgt : DrainTgt) (zc : BitVec 1) (s : State) : Out := .next (s.drainOp ct tgt false none zc)
/-- MDRAINA (08 R171). -/
def execMdraina (ct : CReg) (tgt : DrainTgt) (gc : GReg) (zc cl : BitVec 1) (s : State) : Out :=
  .next (s.drainOp ct tgt true (if cl = 1 then some (s.gval gc) else none) zc)

/-! ### Macros (08 R173, R178) -/

/-- Engine work of a context begins, its format slots read now (03 R61, 08 R173). -/
def State.newWork (s : State) (id : Nat) (kind : WorkKind) (bank row : Nat) (phase : WorkPhase) : State :=
  s.modCur fun c => { c with
    work := some { id := id, kind := kind, bank := bank, row := row, fmts := c.regs.fmt, phase := phase, step := 0, born := true }
    counts := { c.counts with memDrains := match kind with
      | .mattn => c.counts.memDrains
      | _ => c.counts.memDrains ++ [id] } }
/-- MGEMM and MATTN at issue: checks 2 and 6 over the descriptor row. -/
def State.macroOp (s : State) (kind : WorkKind) (bank : BitVec 6) (row : BitVec 11) : State :=
  s.matGate fun s => s.arrayOperand (.direct bank row) fun b r s => s.countNt fun id s => s.newWork id kind b r .ready
/-- MGEMM (08 R173). -/
def execMgemm (bank : BitVec 6) (row : BitVec 11) (s : State) : Out := .next (s.macroOp .mgemm bank row)
/-- MATTN (08 R173). -/
def execMattn (bank : BitVec 6) (row : BitVec 11) (s : State) : Out := .next (s.macroOp .mattn bank row)

/-- At system level MSTEP and MCANCEL need the array too (17 R319). -/
def State.ownGate (s : State) (k : State → State) : State :=
  if s.cur.sys.pl && !s.cur.sys.mowned then s.raise 0x0008 0 else k s
/-- Whether engine work is a macro that runs, and its W0 so far. -/
def Work.status? (w : Work) : Option (Nat × Nat × Word) :=
  match w.kind, w.phase with
  | .drain .., _ | _, .carried => none
  | _, _ => some (w.bank, w.row, statusWord false false w.tmiss 0 w.nmiss w.step)
/-- MSTEP: W0 of the running macro, else of the last one, through the engine port; it counts in NT until it has landed
(08 R160, R178). -/
def execMstep (s : State) : Out :=
  .next (s.ownGate fun s =>
    match (s.cur.work.bind Work.status?) <|> s.cur.lastMacro with
    | some (bank, row, w) => s.countNt fun id s => s.modIss fun i => { i with acts := i.acts ++ [.w0 s.iss.x id bank row w] }
    | none => s)
/-- The status word of the macro of a descriptor row as it stands now, `w` where the context runs another one since. -/
def Ctx.statusNow (c : Ctx) (bank row : Nat) (w : Word) : Word :=
  (((c.work.bind Work.status?).toList ++ c.lastMacro.toList).find? fun p => p.1 == bank && p.2.1 == row).elim w (·.2.2)
/-- The status word lands, as it stands then; it yields to the array and to drain rows (08 R161, R178). -/
def State.landW0 (s : State) (x : CtxId) (id bank row : Nat) (w : Word) : State :=
  if s.copyYields x.core [bank % 64] then s.at_ (s.dc + 1) (.w0 x id bank row w)
  else (s.writeW0 x bank row ((s.ctx x).statusNow bank row w)).modCtx x fun c => c.done id
/-- MCANCEL (08 R178): work at a step boundary ends with CODE 6; a final drain whose rows are formed runs out first. -/
def execMcancel (s : State) : Out :=
  .next (s.ownGate fun s =>
    match s.cur.work with
    | none => s
    | some w =>
      if w.phase = .draining then s.modCur fun c => { c with work := some { w with cancel := true } }
      else
        let s := match w.job with
          | some j => s.modJob j fun j => { j with follow := none }
          | none => s
        s.dropFollow s.iss.x w 6)

end Sys2Proof.Machine
end

