-- ==== Sys2Proof/Machine/Copies.lean ====
section
/-! DEFINITION. C-slot copies, job cards and cancellation at issue (10 R200-R210, 08 R179). -/

namespace Sys2Proof.Machine

/-! ### The sides of a copy (10 R201, R204) -/

/-- Where a side of a copy stands: a linear position, or a tensor address value. -/
inductive SideAt where
  | sp (pos : Nat)
  | mem (a : Word)
  deriving DecidableEq, Repr

/-- One side as the checks of 10 R204 meet it; `plane` counts the elements whose scale bytes the side needs. -/
structure Side where
  place : SideAt
  n : Nat
  write : Bool
  fmt : FmtSlot := {}
  plane : Nat := 0
  deriving DecidableEq, Repr

/-- A place field as the context reads it. -/
def Ctx.placeAt (c : Ctx) (p : Place) : SideAt :=
  match p with
  | .mem a => .mem (c.readA a)
  | .sp b r => .sp (linPos b.toNat r.toNat 0)

def SideAt.off (p : SideAt) : Nat :=
  match p with
  | .sp pos => pos
  | .mem a => (addrOff a).toNat
/-- The address that a fault of a side reports (17 R321). -/
def State.sideTval (s : State) (x : CtxId) (p : SideAt) : Word :=
  match p with
  | .sp pos => BitVec.ofNat 64 pos
  | .mem a => BitVec.ofNat 64 (((s.extent? x (addrId a)).map (·.base)).getD 0 + (addrOff a).toNat)

/-- Check 2 on a side: the value that the bound fault reports. -/
def State.sideBound (s : State) (x : CtxId) (q : Side) : Option Word :=
  match q.place with
  | .sp pos => if 2 ^ 23 < pos + q.n then some (BitVec.ofNat 64 pos) else none
  | .mem a =>
    match s.effAddr x a 0 q.n with
    | .ok _ => none
    | .error v => some v

/-- The byte ranges that a memory side touches: its data, and its scale bytes. -/
def State.sideRanges (s : State) (x : CtxId) (q : Side) : List (Nat × Nat) × List (Nat × Nat) :=
  match q.place with
  | .sp _ => ([], [])
  | .mem a =>
    match s.extent? x (addrId a) with
    | none => ([], [])
    | some e =>
      let off := (addrOff a).toNat
      ([(e.base + off, q.n)],
        if q.fmt.geom = 0 ∨ q.plane = 0 then [] else [planeRange e q.fmt.geom.toNat (eltPos q.fmt.width off) q.plane])

/-- Checks 4 to 7 on a side; copies take no residency miss. -/
def State.checkSide (s : State) (x : CtxId) (q : Side) : State × Chk :=
  match q.place with
  | .sp pos =>
    if q.fmt.geom ≠ 0 then (s, .fault 0x0005 (BitVec.ofNat 64 pos) 0)
    else
      match s.spRangeFault x pos q.n with
      | some (code, v) => (s, .fault code v 0)
      | none => (s, .ok [])
  | .mem a =>
    let (data, planes) := s.sideRanges x q
    if planes.isEmpty then s.checkPages x (addrId a) (s.sideTval x q.place) data ⟨q.write, false, false⟩
    else s.checkScaled x (addrId a) (s.sideTval x q.place) none q.fmt.geom data planes ⟨q.write, false, false⟩

/-- The order of a failed check in 09 R184. -/
def chkRank (code : BitVec 16) : Nat := if code = 0x0107 then 7 else if code = 0x0106 then 6 else if code = 0x0005 then 5 else 4
/-- The first failed check over the sides. -/
def pickFault (l : List Chk) : Option (BitVec 16 × Word × BitVec 32) :=
  [4, 5, 6, 7].findSome? fun r => l.findSome? fun c =>
    match c with
    | .fault code v i => if chkRank code = r then some (code, v, i) else none
    | _ => none
/-- The address of an access that its pages freeze (18 R335). -/
def Chk.blocked (c : Chk) : Option Word :=
  match c with
  | .block v => some v
  | _ => none
def Chk.pages (c : Chk) : Pages :=
  match c with
  | .ok ps => ps
  | _ => []

/-- The checks of 10 R204 over all sides of a copy, in the order of 09 R184, and over what goes with it (`more`: the alignment of
a completion word, the command that a CPYW carries): `k` runs with the translations of each side, where all pass. -/
def State.withSides (s : State) (sides : List Side) (more : State → State × Chk) (k : List Pages → State → State) : State :=
  let x := s.iss.x
  match sides.findSome? (s.sideBound x) with
  | some v => s.raise 0x0003 v
  | none =>
    match more s with
    | (s, .fault 0x0003 v i) => s.raise 0x0003 v i
    | (s, .fault 0x0004 v i) => s.raise 0x0004 v i
    | (s, m) =>
      let (s, l) := sides.foldl (fun (acc : State × List Chk) q =>
        let (s, c) := acc.1.checkSide x q
        (s, acc.2 ++ [c])) (s, [])
      match pickFault (l ++ [m]) with
      | some (code, v, i) => s.raise code v i
      | none =>
        match (l ++ [m]).findSome? Chk.blocked with
        | some v => s.blockOn v
        | none => k (l.map (·.pages)) s

/-- Where the scale plane of a side begins. -/
def State.sidePlane (s : State) (x : CtxId) (q : Side) : Nat :=
  match q.place with
  | .sp _ => 0
  | .mem a => ((s.extent? x (addrId a)).map fun e => e.base + planeOff e.size).getD 0
/-- A side of a job with its translations, its span in the graph, and its plane stretches. -/
def State.jobSide (s : State) (x : CtxId) (q : Side) (ps : Pages) : JSide × List PSeg :=
  match q.place with
  | .sp pos => (.sp pos, [])
  | .mem a =>
    match s.extent? x (addrId a) with
    | none => (.sp 0, [])
    | some e =>
      let va := e.base + (addrOff a).toNat
      (.mem (addrId a) va (segsOf ps va q.n),
        if q.fmt.geom = 0 ∨ q.plane = 0 then [] else planeSegs ps e q.fmt.geom.toNat (eltPos q.fmt.width (addrOff a).toNat) q.plane)
/-- The ranges of a side in the job graph (10 R208): scratchpad or memory, first position, length. -/
def State.sideSpans (s : State) (x : CtxId) (q : Side) : List (Bool × Nat × Nat) :=
  match q.place with
  | .sp pos => [(false, pos, q.n)]
  | .mem _ =>
    let (data, planes) := s.sideRanges x q
    (data ++ planes).map fun r => (true, r.1, r.2)

/-! ### Jobs at issue (10 R204, 03 R57) -/

/-- An operation counted in NC, with its ceilings: 24 for the context, 32 for the core. -/
def State.countNc (s : State) (k : Nat → State → State) : State :=
  if 24 ≤ s.cur.nc ∨ 32 ≤ s.cur.nc + (s.ctx s.iss.x.other).nc then s.blockOn 0
  else
    let (id, s) := s.newId
    k id (s.modCur fun c => c.addNc id)

def Side.isSp (q : Side) : Bool :=
  match q.place with
  | .sp _ => true
  | .mem _ => false

/-- A job enters the graph at issue, or is held with its segment (10 R204). -/
def State.issueJob (s : State) (j : Job) (toMem : Bool) : State :=
  if toMem then ({ s with jobs := s.jobs ++ [{ j with st := .held }] }).endsSeg
  else ({ s with jobs := s.jobs ++ [j] }).enterJob j.id

/-- What a job has beyond its sides. -/
structure JobOpts where
  kind : JKind
  tblKind : BitVec 3
  tag : BitVec 8 := 0
  bare : Option (BitVec 11) := none
  cwa : Option Word := none
  words : List Word := []
  follow : Option Work := none
  nelt : Nat := 0
  idx : Nat := 0
  rb : Nat := 0
  sstr : Int := 0
  deriving DecidableEq, Repr

/-- The sides of the completion word (10 R207): eight bytes, aligned. -/
def JobOpts.cwSide (o : JobOpts) : List Side := o.cwa.toList.map fun a => ⟨.mem a, 8, true, {}, 0⟩
/-- The alignment of the completion word, after every bound (09 R184). -/
def JobOpts.cwCheck (o : JobOpts) (s : State) : State × Chk :=
  match o.cwa with
  | none => (s, .ok [])
  | some a =>
    let v := s.sideTval s.iss.x (.mem a)
    if v.toNat % 8 ≠ 0 then (s, .fault 0x0004 v 0) else (s, .ok [])
/-- The completion word with the translations of its side: its physical address where its page has a frame. -/
def JobOpts.cw (o : JobOpts) (s : State) (ps : Pages) : Option Cw :=
  o.cwa.map fun a =>
    let va := ((s.extent? s.iss.x (addrId a)).map (·.base)).getD 0 + (addrOff a).toNat
    ⟨addrId a, va, if leafTier (pageLeaf ps va) ≤ 3 then some (pagePa ps va) else none⟩

/-- A copy or a conversion whose sides pass their checks becomes a job (10 R203, R204). -/
def State.copyJob (s : State) (src dst : Side) (o : JobOpts) (more : State → State × Chk) : State :=
  let x := s.iss.x
  s.withSides ([src, dst] ++ o.cwSide) more fun ps s =>
    s.countNc fun id s =>
      let (js, sp) := s.jobSide x src (ps.getD 0 [])
      let (jd, dp) := s.jobSide x dst (ps.getD 1 [])
      let cw := o.cw s (ps.getD 2 [])
      let nb := (src.n + 511) / 512
      s.issueJob
        { id := id, x := x, task := (s.ctx x).task.getD 0, slot := none, tblKind := o.tblKind, kind := o.kind, st := .waiting
          born := true, src := js, dst := jd, len := src.n, nblocks := nb, todo := List.range nb, landed := [], due := []
          preds := [], rd := s.sideSpans x src, wr := s.sideSpans x dst, tag := o.tag, cwe := cw, bare := o.bare, err := false
          sfmt := src.fmt, dfmt := dst.fmt, sshift := sp, dshift := dp, splane := s.sidePlane x src, dplane := s.sidePlane x dst, nelt := o.nelt
          selt := eltPos src.fmt.width src.place.off, delt := eltPos dst.fmt.width dst.place.off, idx := 0, rb := 0, sstr := 0
          follow := o.follow, words := o.words, buf := [], poison := none } (!dst.isSp)

/-- LEN at most 2^28 (10 R203). -/
def copyMax : Nat := 2 ^ 28

/-- CPY, or a card of KIND 0. -/
def State.copyOp (s : State) (src dst : SideAt) (len : Nat) (o : JobOpts) : State :=
  if len = 0 then s
  else if copyMax < len then s.raise 0x0003 (s.sideTval s.iss.x src)
  else s.copyJob ⟨src, len, false, {}, 0⟩ ⟨dst, len, true, {}, 0⟩ o o.cwCheck

/-- The format of a side of a conversion: its page's slot, or the named slot for the scratchpad side (10 R203). -/
def State.convFmt (s : State) (p : SideAt) (fs : BitVec 5) : FmtSlot :=
  match p with
  | .sp _ => s.cur.readFmt fs
  | .mem a =>
    match s.extent? s.iss.x (addrId a) with
    | none => {}
    | some e => s.slotAt s.iss.x e (addrOff a).toNat
/-- CPYX, or a card of KIND 1. -/
def State.convOp (s : State) (src dst : SideAt) (len : Nat) (fs : BitVec 5) (o : JobOpts) : State :=
  if len = 0 then s
  else if copyMax < len then s.raise 0x0003 (s.sideTval s.iss.x src)
  else
    let sf := s.convFmt src fs
    let df := s.convFmt dst fs
    s.copyJob ⟨src, bytesOfN sf.width len, false, sf, len⟩ ⟨dst, bytesOfN df.width len, true, df, len⟩ { o with nelt := len } o.cwCheck

/-- CPYG, or a card of KIND 2: the index list and the destination are checked at issue, the source ID only as naming a
tensor in use (10 R204). -/
def State.gatherOp (s : State) (a : Word) (dst : SideAt) (nrow rb idx : Nat) (str : Int) (o : JobOpts) : State :=
  let x := s.iss.x
  let len := nrow * rb
  if len = 0 then s
  else if copyMax < len then s.raise 0x0003 (s.sideTval x (.mem a))
  else
    match s.extent? x (addrId a) with
    | none => s.raise 0x0003 (s.sideTval x (.mem a))
    | some e =>
      let iq : Side := ⟨.sp idx, 4 * nrow, false, {}, 0⟩
      let dq : Side := ⟨dst, len, true, {}, 0⟩
      s.withSides ([iq, dq] ++ o.cwSide) o.cwCheck fun ps s =>
        s.countNc fun id s =>
          let (jd, _) := s.jobSide x dq (ps.getD 1 [])
          let cw := o.cw s (ps.getD 2 [])
          let nb := (len + 511) / 512
          s.issueJob
            { id := id, x := x, task := (s.ctx x).task.getD 0, slot := none, tblKind := o.tblKind, kind := .gather, st := .waiting
              born := true, src := .mem (addrId a) (addrOff a).toNat [], dst := jd, len := len, nblocks := nb
              todo := List.range nb, landed := [], due := [], preds := []
              rd := [(false, idx, 4 * nrow), (true, e.base, e.size)], wr := s.sideSpans x dq, tag := o.tag, cwe := cw
              bare := o.bare, err := false, sfmt := {}, dfmt := {}, sshift := [], dshift := [], nelt := 0, selt := 0, delt := 0
              idx := idx, rb := rb, sstr := str, follow := none, words := o.words, buf := [], poison := none } (!dq.isSp)

/-- CPY (10 R203). -/
def execCpy (pl : Places) (gn : GReg) (s : State) : Out :=
  .next (s.copyOp (s.cur.placeAt pl.src) (s.cur.placeAt pl.dst) ((s.gval gn).extractLsb' 0 32).toNat ⟨.copy, 0, 0, none, none, [], none, 0, 0, 0, 0⟩)
/-- CPYX (10 R203). -/
def execCpyx (pl : Places) (gn : GReg) (fs : BitVec 5) (s : State) : Out :=
  .next (s.convOp (s.cur.placeAt pl.src) (s.cur.placeAt pl.dst) ((s.gval gn).extractLsb' 0 32).toNat fs
    ⟨.convert, 1, 0, none, none, [], none, 0, 0, 0, 0⟩)
/-- CPYG (10 R203). -/
def execCpyg (dst : Place) (ad : AReg) (ibank : BitVec 6) (irow : BitVec 11) (gn : GReg) (s : State) : Out :=
  let n := s.gval gn
  .next (s.gatherOp (s.cur.readA ad) (s.cur.placeAt dst) (n.extractLsb' 32 16).toNat (n.extractLsb' 0 32).toNat
    (linPos ibank.toNat irow.toNat 0) (s.cur.readStride ad).toInt ⟨.gather, 2, 0, none, none, [], none, 0, 0, 0, 0⟩)

/-! ### CPYW (10 R202-R204, 08 R179) -/

/-- The command word of CPYW as an M-slot operation (10 R203); none where it is no encoding of it. -/
def followCmd (fop : FollowOn) (w : Word) : Option Instr :=
  let op := match fop with
    | .mgemm => 7
    | .mattn => 8
    | .mdrain => 5
    | .mdraina => 6
  match decodeSlot .M false (op * 2 ^ 72 + w.toNat) with
  | .ok o => some o.op
  | .error _ => none

/-- The follow-on command as engine work (08 R179): what it is, the position of its descriptor or target, whether it may write
memory, and its checks at the issue of the CPYW (10 R204). -/
def State.followOf (s : State) (cmd : Instr) : WorkKind × Nat × Nat × Bool × (State → State × Chk) :=
  let c := s.cur
  let x := s.iss.x
  let rows (bank row n : Nat) (s : State) : State × Chk :=
    match s.firstBarred x row n with
    | some r => (s, .fault 0x0106 (BitVec.ofNat 64 (linPos bank r 0)) 0)
    | none => (s, .ok [])
  let drain (ct : CReg) (tgt : DrainTgt) (acc : Bool) (cl : Option Word) (zc : BitVec 1) : WorkKind × Nat × Nat × Bool × (State → State × Chk) :=
    match tgt with
    | .sp bank row fo =>
      (.drain ct (some (bank.toNat, row.toNat, fo)) 0 0 0 acc cl (zc == 1), bank.toNat, row.toNat, false, fun s =>
        if (c.readFmt fo).geom ≠ 0 then (s, .fault 0x0005 0 0) else rows bank.toNat row.toNat 64 s)
    | .mem ad imm =>
      let a := c.readA ad
      (.drain ct none a (imm.signExtend 64) (c.readStride ad) acc cl (zc == 1), 0, 0, true, fun s =>
        match s.drainRows x a imm.toInt (c.readStride ad).toInt (fun n => c.readFmt n) false with
        | (s, .fault code v im) => (s, .fault code v im)
        | (s, .miss items) => (s, .miss items)
        | (s, .block v) => (s, .block v)
        | (s, .ok ..) => (s, .ok []))
  match cmd with
  | .mgemm bank row => (.mgemm, bank.toNat, row.toNat, true, rows bank.toNat row.toNat 1)
  | .mattn bank row => (.mattn, bank.toNat, row.toNat, false, rows bank.toNat row.toNat 1)
  | .mdrain ct tgt zc => drain ct tgt false none zc
  | .mdraina ct tgt gc zc cl => drain ct tgt true (if cl = 1 then some (s.gval gc) else none) zc
  | _ => (.mgemm, 0, 0, false, fun s => (s, .fault 0x0001 0 0))

/-- CPYW (10 R203, 08 R179): a length of 0 does nothing, but for the ownership of the array and the encoding of the command word,
which are checked first (DESIGN CHOICE, log 125); else the copy and, behind it, the command; the context is busy from issue (08 R158). -/
def execCpyw (bank : BitVec 6) (row : BitVec 11) (ad : AReg) (gn gm : GReg) (fop : FollowOn) (s : State) : Out :=
  .next
    (let c := s.cur
     let len := ((s.gval gn).extractLsb' 0 32).toNat
     if c.sys.pl && !c.sys.mowned then s.raise 0x0008 0
     else
       match followCmd fop (s.gval gm) with
       | none => s.raise 0x0001 0
       | some cmd =>
         if len = 0 then s
         else if c.work.isSome then s.raise 0x0007 0
         else if copyMax < len then s.raise 0x0003 (s.sideTval s.iss.x (.mem (c.readA ad)))
         else
           let (kind, b, r, mem, more) := s.followOf cmd
           s.countNt fun wid s =>
             let w : Work := { id := wid, kind := kind, bank := b, row := r, fmts := c.regs.fmt, phase := .carried, step := 0, born := true, carried := true }
             let n := s.nextId
             let s := s.copyJob ⟨.mem (c.readA ad), len, false, {}, 0⟩ ⟨.sp (linPos bank.toNat row.toNat 0), len, true, {}, 0⟩
               { kind := .copy, tblKind := 3, follow := some w } more
             if (s.job? n).isNone then s
             else
               s.modCur fun c => { c with
                 work := some { w with job := some n }
                 counts := { c.counts with memDrains := if mem then c.counts.memDrains ++ [wid] else c.counts.memDrains } })

/-! ### Job cards (10 R207) -/

/-- The eight words of a 64-byte card. -/
def cardWords (bs : List Byte) : List Word :=
  (List.range 8).map fun i => BitVec.ofNat 64 (bytesToNat ((bs.drop (8 * i)).take 8))
def cardWord (l : List Word) (i : Nat) : Word := l.getD i 0

/-- The conditions of the job-card fault (10 R207). IDX and SSTR are zero for KIND 0 and 1, and a one there raises it too
(DESIGN CHOICE, log 50). -/
def jobCardBad (l : List Word) (t : BitVec 1) : Bool :=
  let w (i : Nat) : Word := cardWord l i
  let kind := (w 4).extractLsb' 8 3
  let ssp := (w 4).getLsbD 11
  let dsp := (w 4).getLsbD 12
  decide (3 ≤ kind.toNat) || (w 4).extractLsb' 0 8 == 0xFF || (kind == 1 && ssp && dsp) || (kind == 2 && ssp)
    || ((t == 1) == dsp)
    || (ssp && (w 0).extractLsb' 23 41 != 0) || (dsp && (w 1).extractLsb' 23 41 != 0)
    || (if kind = 2 then (w 2).getLsbD 63 else w 2 != 0)
    || (w 3).extractLsb' 53 11 != 0 || (w 4).extractLsb' 26 38 != 0 || w 6 != 0 || w 7 != 0

/-- A 64-byte card read at issue (10 R207, 12 R248): `k` runs with its words and its address. -/
def State.withCard (s : State) (ad : AReg) (imm : Int) (k : List Word → Word → State → State) : State :=
  let a := s.cur.readA ad
  match s.operand a imm 64 64 wantLoad with
  | (s, none) => s
  | (s, some (va, ps)) =>
    match s.readNow s.iss.x ps (s.guardOf a) va 64 (BitVec.ofNat 64 va) with
    | (s, none) => s
    | (s, some bs) => k (cardWords bs) (BitVec.ofNat 64 va) s

/-- JSUB (10 R207). -/
def execJsub (ad : AReg) (t : BitVec 1) (imm : BitVec 43) (s : State) : Out :=
  .next (s.withCard ad imm.toInt fun l va s =>
    if jobCardBad l t then s.raise 0x000B va
    else
      let w (i : Nat) : Word := cardWord l i
      let place (sp : Bool) (v : Word) : SideAt := if sp then .sp (v.extractLsb' 0 23).toNat else .mem v
      let src := place ((w 4).getLsbD 11) (w 0)
      let dst := place ((w 4).getLsbD 12) (w 1)
      let len := ((w 3).extractLsb' 0 32).toNat
      let cwe := (w 4).getLsbD 13
      let o (kind : JKind) : JobOpts :=
        { kind := kind, tblKind := 4, tag := (w 4).extractLsb' 0 8
          bare := if (w 4).getLsbD 14 then some ((w 4).extractLsb' 15 11) else none
          cwa := if cwe then some (w 5) else none, words := l.take 6 }
      if (w 4).extractLsb' 8 3 = 0 then s.copyOp src dst len (o .copy)
      else if (w 4).extractLsb' 8 3 = 1 then s.convOp src dst len ((w 3).extractLsb' 48 5) (o .convert)
      else
        s.gatherOp (w 0) dst ((w 3).extractLsb' 32 16).toNat len ((w 2).extractLsb' 0 23).toNat ((w 2).extractLsb' 23 40).toInt
          (o .gather))

/-- JCAN: held with its segment, takes effect at its commit (10 R210). -/
def execJcan (gs : GReg) (s : State) : Out := .next (s.stage (.cancelJobs ((s.gval gs).extractLsb' 0 8)))

end Sys2Proof.Machine
end

