-- ==== Sys2Proof/Machine/Sync.lean ====
section
/-! DEFINITION. Y-slot operations: holds, barriers, monitors, acquire and release, fences, yield, rendezvous
(10 R212-R225). -/

namespace Sys2Proof.Machine

/-! ### Barriers (10 R215-R219) -/

/-- Whether BARW's or BARAW's wait for a generation is over; a free barrier ends it too (10 R218, R219). -/
def State.barrierPast (s : State) (x : CtxId) (bar : BitVec 11) (gen : BitVec 16) : Bool :=
  match s.barrier? (s.gangIdOf x) bar with
  | some b => b.gen != gen
  | none => true

/-! ### The conditions of holds (10 R213) -/

/-- WAIT's condition over the counters NL, NS, NC and NT (10 R214). -/
def waitMet (z : BitVec 4) (lsel : BitVec 2) (lval : BitVec 6) (c : Nat × Nat × Nat × Nat) : Bool :=
  let (nl, ns, nc, nt) := c
  (!z.getLsbD 3 || nl == 0) && (!z.getLsbD 2 || ns == 0) && (!z.getLsbD 1 || nc == 0) && (!z.getLsbD 0 || nt == 0)
    && decide ((if lsel = 0 then nl else if lsel = 1 then ns else if lsel = 2 then nc else nt) ≤ lval.toNat)

/-- Whether a monitor of a context has a pending event; one that is not armed counts as having one (10 R221). -/
def Ctx.monPending (c : Ctx) (mon : BitVec 12) : Bool :=
  match c.mons.find? fun m => m.num == mon with
  | some m => m.pending
  | none => true

/-- A Failed gang-mate: STATE 7, or ended by a second uncorrectable error (02 R32, 14 R283). -/
def Task.failedMate (t : Task) : Bool := t.state == 7 || (t.state == 6 && t.fcode == 0x0703)
/-- What RDV meets: a failed gang-mate, a rewound one that has not passed the slot, or neither (10 R225). -/
inductive RdvSees where
  | failed | rewound | clear
  deriving DecidableEq, Repr
/-- What RDV number n meets; a failed mate counts before a rewound one (DESIGN CHOICE, log 153). -/
def State.rdvSees (s : State) (x : CtxId) (n : Nat) : RdvSees :=
  let mates := (match s.gangOf x with
    | some g => g.members.filter fun k => some k != (s.ctx x).task
    | none => []).filterMap s.task?
  if mates.any Task.failedMate then .failed
  else if mates.any fun t => t.rewound && !t.rdvPassed.contains n
  then .rewound
  else .clear

/-- Whether the condition of a hold is met (10 R213). -/
def State.holdMet (s : State) (x : CtxId) (h : Hold) : Bool :=
  let c := s.ctx x
  match h with
  | .wait z lsel lval => waitMet z lsel lval (c.nl, c.ns, c.nc, c.nt)
  | .barw bar gen => s.barrierPast x bar gen
  | .monw mon => c.monPending mon
  | .rdv n => s.rdvSees x n.toNat != .rewound
  | .baraw bar gen =>
    match gen with
    | some g => s.barrierPast x bar g
    | none => false
  | .fence _ _ waits => s.allDone x waits

/-! ### The operations -/

/-- WAIT (10 R214): the counters are those of the start of its cc. -/
def execWait (z : BitVec 4) (lsel : BitVec 2) (lval : BitVec 6) (s : State) : Out :=
  .next (if waitMet z lsel lval s.iss.counts then s else s.holdOn (.wait z lsel lval))

/-- An operation of the die that freezes the context from the commit until its reply (12 R247, 10 R216). -/
def State.callHome (s : State) (o : HomeOp) : State :=
  let (id, s) := s.newId
  s.endsSeg.stage (.call id (.op s.iss.x id s.iss.slot s.iss.pc o))

/-- BARI (10 R216). -/
def execBari (pd : PReg) (gs : GReg) (s : State) : Out :=
  let v := s.gval gs
  .next (s.callHome (.bari pd (v.extractLsb' 16 7) (v.extractLsb' 0 11)))

/-- An arrival posted at commit behind what the context has counted (10 R217). -/
def State.arrive (s : State) (bar : BitVec 11) : State :=
  s.endsSeg.countNs fun id s =>
    (s.modFlow s.iss.x fun f => { f with arrival := id }).stage (.after id (.ev (.barrierArrival (s.gangIdOf s.iss.x) bar (some s.iss.x) id)))
/-- BARA (10 R217). -/
def execBara (bar : BitVec 11) (s : State) : Out := .next (s.arrive bar)
/-- BARAW (10 R217): the arrival, and a hold from commit. -/
def execBaraw (bar : BitVec 11) (s : State) : Out :=
  .next ((s.arrive bar).modIss fun i => { i with postHold := some (.baraw bar none) })
/-- BARW (10 R218). -/
def execBarw (bar : BitVec 11) (gs : GReg) (s : State) : Out :=
  let gen := (s.gval gs).extractLsb' 0 16
  .next (if (s.barrier? (s.gangIdOf s.iss.x) bar).isNone then s.raise 0x000E (bar.zeroExtend 64)
    else if s.barrierPast s.iss.x bar gen then s else s.holdOn (.barw bar gen))
/-- BFREE (10 R219). -/
def execBfree (bar : BitVec 11) (s : State) : Out :=
  .next (s.endsSeg.stage (.now (.op s.iss.x 0 .Y s.iss.pc (.bfree bar))))

/-- MONW (10 R221): the event is consumed with its bundle. -/
def execMonw (mon : BitVec 12) (s : State) : Out :=
  .next (if s.cur.monPending mon then
      s.endsSeg.modCur fun c => { c with mons := updWhere (fun m => m.num == mon) (fun m => { m with pending := false }) c.mons }
    else s.holdOn (.monw mon))

/-- Whether the sync word at an address value is mapped to no memory at all: a protection fault (20 R350). One of another
partition raises none (11 R235). -/
def State.syncOffMap (s : State) (a : Word) (write : Bool) : Bool :=
  match s.effAddr s.iss.x a 0 64 with
  | .ok va =>
    (match (s.translateAll s.iss.x ⟨write, false, false⟩ (pagesOf [(va, 64)])).2 with
    | .ok ps => va % 64 == 0 && ps.any fun p => decide (leafTier p.2.leaf ≤ 3) && (memAt (p.2.pa va)).isNone
    | .error _ => false)
  | .error _ => false
/-- The 64-byte sync word of ACQ and REL (10 R222): checks 1 to 7, for a write where it is REL (19 R345, R346); a page that has no
frame, or lies on a CXL expander, which only copies reach (21 R392), is waited for as a miss (DESIGN CHOICE, log 148). -/
def State.syncWord (s : State) (ad : AReg) (write : Bool) (k : Nat → Nat → State → State) : State :=
  let a := s.cur.readA ad
  if s.syncOffMap a write then
    s.raise 0x0102 (match s.effAddr s.iss.x a 0 64 with
      | .ok va => BitVec.ofNat 64 va
      | .error v => v)
  else
  match s.operand a 0 64 64 ⟨write, false, false⟩ with
  | (s, none) => s
  | (s, some (va, ps)) =>
    if ps.any fun p => decide (3 ≤ leafTier p.2.leaf) then
      s.missOn (match ps, addrId a == 0 with
        | p :: _, true => flatItem p
        | _, _ => .tensor (addrId a))
    else k va (pagePa ps va) s
/-- ACQ (10 R222): the read at home leaves at issue, and the context freezes until it has completed. -/
def execAcq (scope : Scope) (ad : AReg) (s : State) : Out :=
  .next (s.syncWord ad false fun va pa s =>
    let (id, s) := s.newId
    (s.pin id pa 64).modIss fun i => { i with calls := i.calls ++ [(id, i.slot, .op i.x id i.slot i.pc (.acq scope va pa))] })
/-- REL (10 R222). -/
def execRel (_scope : Scope) (ad : AReg) (s : State) : Out :=
  .next (s.syncWord ad true fun _ pa s =>
    s.endsSeg.countNs fun id s => (s.pin id pa 8).stage (.after id (.ev (.relPerform s.iss.x id pa))))

/-- FENCE (10 R223): from its commit the context holds until what it had committed has been performed or has failed. -/
def execFence (gd : GReg) (scope : Scope) (s : State) : Out :=
  .next (s.endsSeg.modIss fun i => { i with postHold := some (.fence gd scope []) })

/-- YIELD (10 R224, 02 R40). -/
def execYield (s : State) : Out := .next (s.endsSeg.modIss fun i => { i with yields := true })

/-- RDV (10 R225). -/
def execRdv (pd : PReg) (n : BitVec 11) (s : State) : Out :=
  let pass (b : Bool) (s : State) : State :=
    (s.plog pd b).modOwnTask s.iss.x fun t => { t with rdvPassed := n.toNat :: t.rdvPassed.filter (· != n.toNat) }
  .next (match s.rdvSees s.iss.x n.toNat with
    | .failed => pass false s
    | .rewound => s.holdOn (.rdv n)
    | .clear => pass true s)

/-! ### What FENCE reports (10 R223, R325) -/

/-- The word of gd and FSTAT. -/
def FAcc.word (f : FAcc) (done : Bool) : Word :=
  BitVec.ofNat 64 (f.dmask.toNat * 2 ^ 8 + min f.nfail 15 * 2 ^ 4 + (if f.refused then 4 else 0) + (if f.lost then 2 else 0)
    + (if done then 1 else 0))
/-- Its inverse, from an image. -/
def FAcc.ofWord (w : Word) : FAcc :=
  ⟨w.extractLsb' 8 4, (w.extractLsb' 4 4).toNat, w.getLsbD 2, w.getLsbD 1⟩

end Sys2Proof.Machine
end

