-- ==== Sys2Proof/Machine/Pages.lean ====
section
/-! DEFINITION. Pages that Bassoon and the dispatcher map: virtual ranges, leaves, the system pages of records, and the frames that
items and jobs hold (02 R27, 12 R244, R248, R257, 20 R368, R373). -/

namespace Sys2Proof.Machine

/-! ### Items -/

def Tensor.npages (t : Tensor) : Nat := (t.alloc + 4095) / 4096
/-- The tier of a tensor in one of the states 1 to 4. -/
def Tensor.tier (t : Tensor) : Nat := t.st.toNat - 1
def KvSeq.dim (q : KvSeq) : Nat := if q.dimc = 0 then 16 else if q.dimc = 1 then 32 else if q.dimc = 2 then 64 else 128
def KvSeq.num (q : KvSeq) : NumFmt := NumFmt.ofCode q.code.toNat q.bias.toInt
/-- PAGEB: 32 * HEADS * D elements (12 R256). -/
def KvSeq.pageBytes (q : KvSeq) : Nat := 32 * q.heads * q.dim * q.num.width / 8
/-- The stored bytes of the keys, or values, of one head of a token (04 R68). -/
def KvSeq.headBytes (q : KvSeq) : Nat := if q.num.width = 4 then q.dim / 2 else q.dim * eltBytes q.num.width
/-- The stored bytes of a page: more than PAGEB where elements of 5 to 7 bits take a byte each (04 R68, log 127). -/
def KvSeq.storeBytes (q : KvSeq) : Nat := max q.pageBytes (32 * q.heads * q.headBytes)
def KvSeq.pageFrames (q : KvSeq) : Nat := (q.storeBytes + 4095) / 4096
def KvPage.live (p : KvPage) : Bool := !p.ret
def State.modKvPage (s : State) (id : BitVec 24) (i : Nat) (f : KvPage → KvPage) : State :=
  s.modKv id fun q => { q with pages := q.pages.modify i f }
def KvSeq.page? (q : KvSeq) (i : Nat) : Option KvPage := q.pages[i]?

/-! ### Virtual ranges (12 R248) -/

/-- The virtual ranges in use: tensors, page lists, KV pages and records. -/
def State.rangesUsed (s : State) : List (Nat × Nat) :=
  let rec1 (p : Option RecPlace) : List (Nat × Nat) := (p.bind (·.va)).toList.map fun v => (v, 4096)
  (s.tensors.flatMap fun t => (t.base, t.alloc) :: rec1 t.recAt) ++ (s.work.tasks.flatMap fun t => rec1 t.recAt)
    ++ s.kvs.flatMap fun q => (q.ptp, 16 * q.maxpg) :: rec1 q.recAt ++ q.pages.map fun p => (p.va, q.storeBytes)
def roundUp (n a : Nat) : Nat := (n + a - 1) / a * a
/-- Whether a page has any translation: the walk with no effect. -/
def State.mapped (s : State) (root : Word) (va : Nat) : Bool :=
  let rec go (t : Nat) : Nat → Bool
    | 0 => (BitVec.ofNat 64 (s.peekNat (t * 4096 + 8 * levelIdx va 0) 8)).getLsbD 0
    | L + 1 =>
      let e : Word := BitVec.ofNat 64 (s.peekNat (t * 4096 + 8 * levelIdx va (L + 1)) 8)
      e.getLsbD 0 && (e.getLsbD 1 || go (entFrame e) L)
  go (rootFrame root) 4
/-- Whether a virtual range overlaps nothing in use and nothing mapped. -/
def State.rangeFree (s : State) (root : Word) (base n : Nat) : Bool :=
  decide (base + n ≤ 2 ^ 57) && !(s.rangesUsed.any fun r => rangesMeet base n r.1 (roundUp r.2 4096))
    && (List.range (n / 4096)).all fun i => !s.mapped root (base + 4096 * i)
/-- The first free range of n bytes at a multiple of `al` from `base` on, k multiples tried. -/
def State.rangeFrom (s : State) (root : Word) (n al base : Nat) : Nat → Option Nat
  | 0 => none
  | k + 1 => if s.rangeFree root base n then some base else s.rangeFrom root n al (base + al) k
/-- A virtual range of n bytes with its alignment: a free choice, else one behind a range in use, else the lowest; none where
there is none (12 R248). -/
def State.freeRange (s : State) (root : Word) (n : Nat) : Option Nat × State :=
  let al := if 2 ^ 21 ≤ n then 2 ^ 21 else 4096
  let (v, s) := s.draw .virtBase
  let pick := v % (2 ^ 57 / al) * al
  (((pick :: s.rangesUsed.map fun r => roundUp (r.1 + r.2) al).find? fun b => s.rangeFree root b n)
    <|> s.rangeFrom root n al 0 (2 ^ 57 / al), s)

/-! ### Leaves -/

/-- The leaf of a new page: valid, a leaf, writable, user; its coherent, lockable and execute bits are open. -/
def newLeaf (bits : Nat) (fmt : BitVec 5) (geom : BitVec 3) (tier : Nat) : Word :=
  BitVec.ofNat 64 (0x33 + (if bits % 2 = 1 then 2 ^ 60 else 0) + (if bits / 2 % 2 = 1 then 2 ^ 61 else 0)
    + (if bits / 4 % 2 = 1 then 2 ^ 6 else 0) + tier * 2 ^ 9 + fmt.toNat * 2 ^ 52 + geom.toNat * 2 ^ 57)
/-- The leaf of a system page in HBM: valid, a leaf, writable, closed to user level (02 R27, 12 R244). -/
def systemLeaf : Word := 0x213
/-- n pages mapped, page i to frame i of the frames given; none where a page has no place in the tables. -/
def State.mapPages (s : State) (d : BitVec 2) (root : Word) (va : Nat) (frames : List (Nat × Nat)) (leaf : Word) : Nat → Option State
  | 0 => some s
  | n + 1 => (s.mapPages d root va frames leaf n).bind fun s =>
      s.writeLeaf d root (va + 4096 * n) (leaf ||| BitVec.ofNat 64 (((frameAt frames n).getD 0) * 4096))
/-- Pages unmapped: their leaves cleared, the TLBs told. -/
def State.unmap (s : State) (d : BitVec 2) (root : Word) (va n : Nat) : State :=
  ((List.range n).foldl (fun s i => (s.writeLeaf d root (va + 4096 * i) 0).getD s) s).tlbiPages (rootSpid root) va n

/-! ### Room asked for (20 R368) -/

/-- Whether an action of a tier is under way. -/
def State.acting (s : State) (d : BitVec 2) (tier : Nat) : Bool :=
  (s.tensors.any fun t => t.home == d && (t.moving.map (·.1)) == some (BitVec.ofNat 3 tier))
    || s.kvs.any fun q => q.home == d && q.pages.any fun p => (p.moving.map (·.1)) == some (BitVec.ofNat 3 tier)
/-- Room wanted in a tier: the engine decides in its own time. -/
def State.wantRoom (s : State) (d : BitVec 2) (tier : Nat) : State :=
  let e : Act := .ev (.residencyAction d (BitVec.ofNat 2 tier))
  if s.acting d tier || s.agenda.any (fun p => p.2 == e) then s else s.later e

/-! ### The places of records -/

/-- A place for a record in the HBM of a die, mapped by a system page of a space, so that an access of user level to it meets the
protection fault (02 R27, 12 R244, 19 R345; log 128); room is asked for where there is none (20 R368). -/
def State.placeRecord (s : State) (d : BitVec 2) (root : Word) : RecPlace × State :=
  match s.takeFrames d 1 1 with
  | none => (⟨none, none, root, d, 0⟩, s.wantRoom d 1)
  | some (fs, s) =>
    if !rootEn root then (⟨some (framePa fs 0), none, root, d, 0⟩, s)
    else
      match s.freeRange root 4096 with
      | (none, s) => (⟨some (framePa fs 0), none, root, d, 0⟩, s)
      | (some va, s) =>
        match s.mapPages d root va fs systemLeaf 1 with
        | some s => (⟨some (framePa fs 0), some va, root, d, 0⟩, s)
        | none => (⟨none, none, root, d, 0⟩, (s.freeFrames fs).wantRoom d 1)
/-- L1 lines of frames that change their place leave every L1 of the device. -/
def State.dropFrameLines (s : State) (fs : List (Nat × Nat)) : State :=
  let hit (l : L1Line) : Bool := fs.any fun f => decide (f.1 * 32 ≤ l.line ∧ l.line < (f.1 + f.2) * 32)
  { s with cores := s.cores.map fun k => if k.l1.any hit then { k with l1 := k.l1.filter fun l => !hit l } else k }
/-- Frames handed back, their L1 lines gone. -/
def State.releaseFrames (s : State) (fs : List (Nat × Nat)) : State := (s.dropFrameLines fs).freeFrames fs
/-- The place of a record given back. -/
def State.dropRecord (s : State) (p : Option RecPlace) : State :=
  match p with
  | none => s
  | some p =>
    let s := s.releaseFrames (p.pa.toList.map fun a => (a / 4096, 1))
    match p.va with
    | some va => s.unmap p.die p.root va 1
    | none => s

/-! ### What jobs hold -/

/-- Whether an unfinished job has translated bytes of a virtual range of a space: Bassoon moves no such page (19 R344). -/
def State.jobHolds (s : State) (root : Word) (va n : Nat) : Bool :=
  s.jobs.any fun j => (s.task? j.task).any (fun t => rootSpid t.troot == rootSpid root)
    && (((j.rd ++ j.wr).any fun g => g.1 && rangesMeet g.2.1 g.2.2 va n) || j.cwe.any fun c => rangesMeet c.va 8 va n)
/-- Whether a job still names a tensor by its ID (12 R251). -/
def State.jobNames (s : State) (id : BitVec 24) : Bool :=
  s.jobs.any fun j => ([j.src, j.dst].any fun d =>
    match d with
    | .mem t _ _ => t == id
    | .sp _ => false) || j.cwe.any fun c => c.tensor == id

end Sys2Proof.Machine
end

