-- ==== Sys2Proof/Machine/Work.lean ====
section
/-! DEFINITION. Records of work: launch blocks, tasks and gangs, the counting of ends, misses and recipes (02 R25-R39,
12 R252-R254). -/

namespace Sys2Proof.Machine

/-! ### The launch block (02 R35) -/

/-- A field of a launch block. -/
def blkF (b : BitVec 512) (lo n : Nat) : Nat := (b.extractLsb' lo n).toNat
def blkGx (b : BitVec 512) : Nat := blkF b 399 7
def blkGy (b : BitVec 512) : Nat := blkF b 406 7
def blkSize (b : BitVec 512) : Nat := blkGx b * blkGy b
def blkSps (b : BitVec 512) : Nat := blkF b 387 12
def blkWcnt (b : BitVec 512) : Nat := blkF b 344 16
def blkGcnt (b : BitVec 512) : Nat := blkF b 328 16
def blkAct (b : BitVec 512) : BitVec 9 := b.extractLsb' 431 9
def blkPri (b : BitVec 512) : BitVec 2 := b.extractLsb' 417 2
/-- The progress watchdog's exponent: 0 means 22. -/
def blkWdlog (b : BitVec 512) : Nat := if blkF b 419 5 = 0 then 22 else blkF b 419 5
def blkWseq (b : BitVec 512) : Bool := b.getLsbD 430
def blkEntry (b : BitVec 512) : BAddr := b.extractLsb' 0 51

/-! ### Tasks and gangs -/

/-- The task has ended (02 R30, R32). -/
def Task.ended (t : Task) : Bool := t.state == 5 || t.state == 6 || t.state == 7
/-- The tasks of a gang that have not ended. -/
def State.liveMembers (s : State) (g : Gang) : List Task := (g.members.filterMap s.task?).filter fun t => !t.ended
/-- A gang of one task is a solo task (02 R34). -/
def Gang.solo (g : Gang) : Bool := decide (g.members.length ≤ 1)
def State.soloTask (s : State) (k : Nat) : Bool :=
  match (s.task? k).bind fun t => s.gang? t.gang with
  | some g => g.solo
  | none => true

/-- A carve-out of open choice within the rows that the claim leaves (03 R64). -/
def State.pickSpb (s : State) (b : BitVec 512) : Nat × State :=
  let (n, s) := s.draw .loaderSpb
  let sps := blkSps b
  let (cb, cn) := claimOf b
  let ok := (List.range (2049 - sps)).filter fun r => !rangesMeet r sps cb cn
  (ok.getD (n % max 1 ok.length) 0, s)

/-- A record created from a launch block (02 R27). -/
def State.makeTask (s : State) (l : Launch) (g : GangId) (d : BitVec 2) (member : Nat) : Nat × State :=
  let k := s.work.nextTask
  let (spb, s) := s.pickSpb l.block
  let (cb, s) := s.draw .loaderCtxb
  let (place, s) := s.placeRecord d l.root
  let idx := (g.wave.toNat * blkGcnt l.block + g.gang.toNat) * blkSize l.block + member
  let t : Task := {
    key := k, lbp := l.lba, loopw := 0, spovf := BitVec.ofNat 57 (blkF l.block 448 57 + idx * blkSps l.block * 4096)
    spb := BitVec.ofNat 11 spb, sps := BitVec.ofNat 12 (blkSps l.block), pri := blkPri l.block, state := 1, img := false
    fcode := 0, wdc := 0, gang := g, member := BitVec.ofNat 6 member, die := d, ctxb := BitVec.ofNat 57 (cb % 2 ^ 45 * 4096)
    entry := blkEntry l.block, tidx := idx, dbg := l.dbg, troot := l.root, since := s.dc, effPri := blkPri l.block
    recipe := none, waits := [], lost := none, mons := [], facc := {}, cperr := 0, recAt := some place }
  (k, { s with work := { s.work with nextTask := k + 1, tasks := s.work.tasks ++ [t] } })

/-! ### Counting ends (02 R38) -/

/-- A gang counts one task as ended; at zero it begins to complete and its record leaves its contexts. -/
def State.countTask (s : State) (g : GangId) (fault : Bool) : State :=
  let s := s.modGang g fun q => { q with left := q.left - 1, nfault := q.nfault + (if fault then 1 else 0) }
  match s.gang? g with
  | none => s
  | some q =>
    if q.left ≠ 0 then s
    else if (s.launch? g.lid).isSome then
      { s with work := { s.work with completing := s.work.completing ++ [⟨.gang g, 0⟩] } }
    else { s with work := { s.work with gangs := s.work.gangs.filter fun z => z.id != g } }

/-! ### Parked tasks become ready (12 R252) -/

/-- A gang that holds no contexts returns for admission once all its live members are ready (02 R34). -/
def State.returnGang (s : State) (g : GangId) : State :=
  match s.gang? g with
  | none => s
  | some q =>
    let live := s.liveMembers q
    if q.solo || q.placed || live.isEmpty || s.work.returning.any (fun r => r.1 == g) then s
    else if live.all fun m => m.state == 1 || m.state == 4 then
      { s with work := { s.work with returning := s.work.returning ++ [(g, s.dc, none)] } }
    else s

/-- Bassoon moves a task to Ready: a gang member goes on in its context, a record waits for pickup, and a gang that gave
up its contexts returns for admission once all its members are ready (02 R28, R34). -/
def State.readyTask (s : State) (k : Nat) : State :=
  match s.task? k with
  | none => s
  | some t =>
    let record (s : State) : State :=
      if t.state ≠ 3 then s
      else (s.modTask k fun t => { t with state := 1, since := s.dc, effPri := t.pri }).returnGang t.gang
    match s.ctxOfTask k with
    | some x =>
      match (s.ctx x).flow.phase with
      | .parked => (s.modTask k fun t => { t with state := 2 }).modFlow x fun f => { f with phase := .run }
      | .idle => record s
      | _ => s
    | none => record s

/-- A task waits for nothing more: WCNT of every tensor that it waited for falls (12 R244, R252). -/
def State.unpark (s : State) (k : Nat) : State :=
  ((s.task? k).map (·.waits)).getD [] |>.foldl (fun s it =>
    match it with
    | .tensor id => s.modTensor id fun t => { t with wcnt := t.wcnt - 1 }
    | _ => s) (s.modTask k fun t => { t with waits := [] })
/-- One item that tasks wait for is back, or gone: those that wait for nothing else become ready. -/
def State.wakeItem (s : State) (it : Item) (lost : Option (BitVec 24)) : State :=
  let who := s.work.tasks.filter fun t => t.waits.contains it
  let s := match it with
    | .tensor id => s.modTensor id fun t => { t with wcnt := t.wcnt - who.length }
    | _ => s
  who.foldl (fun s t =>
    let s := s.modTask t.key fun t => { t with waits := t.waits.filter (· != it), lost := t.lost <|> lost }
    if (t.waits.filter (· != it)).isEmpty || lost.isSome then
      (s.unpark t.key).readyTask t.key
    else s) s

/-! ### Recipes (12 R252-R254) -/

/-- The recipe level that a task carries: 0 for an ordinary task. -/
def Task.level (t : Task) : Nat := (t.recipe.map (·.level)).getD 0
/-- The recipe of a dropped tensor enqueued on its home die: a solo task with the pickup values of 12 R253. -/
def State.enqueueRecipe (s : State) (t : Tensor) (req : Task) (level : Nat) (rdmax : BitVec 3) : State :=
  let k := s.work.nextTask
  let g : GangId := ⟨2 ^ 24 + s.work.recipeCount, 0, 0⟩
  let (cb, s) := s.draw .loaderCtxb
  let (place, s) := s.placeRecord t.home req.troot
  let r : Task := {
    key := k, lbp := 0, loopw := 0, spovf := 0, spb := 0, sps := 0, pri := req.pri, state := 1, img := false, fcode := 0, wdc := 0
    gang := g, member := 0, die := t.home, ctxb := BitVec.ofNat 57 (cb % 2 ^ 45 * 4096), entry := t.rcp, tidx := 0, dbg := false
    troot := req.troot, since := s.dc, effPri := req.pri, recipe := some ⟨t.id, level, rdmax, req.key, t.rarg⟩, waits := [], lost := none
    mons := [], facc := {}, cperr := 0, recAt := some place }
  let q : Gang := ⟨g, t.home, 0, 1, 0, true, false, [], [k], false⟩
  { s with work := { s.work with
    nextTask := k + 1, recipeCount := s.work.recipeCount + 1, tasks := s.work.tasks ++ [r], gangs := s.work.gangs ++ [q] } }

/-- An item that needs frames, or its bytes back, is served by the engine of its home die in its own time (12 R252). -/
def State.wantItem (s : State) (it : Item) : State :=
  if s.agenda.any fun p => p.2 == .ev (.refillComplete it) then s else s.later (.ev (.refillComplete it))
/-- A tensor asked into a tier; an earlier request for a higher tier stands. -/
def State.wantTensor (s : State) (id : BitVec 24) (tier : BitVec 3) : State :=
  (s.modTensor id fun t => { t with refill := match t.refill with
    | some r => some (if r.ult tier then r else tier)
    | none => some tier }).wantItem (.tensor id)

/-- The recipe tasks that a too-deep reference ends, from the referencing task upward, with the requester at the top. -/
def State.recipeChain (s : State) (k : Nat) : Nat → List Task × Option Task
  | 0 => ([], none)
  | n + 1 =>
    match s.task? k with
    | none => ([], none)
    | some t =>
      match t.recipe with
      | none => ([], some t)
      | some r =>
        let (l, top) := s.recipeChain r.requester n
        (t :: l, top)

/-- Engine work, refetches and running copies that wait for one of these tensors meet the depth outcome too (12 R254). -/
def Ctx.markDeep (c : Ctx) (ids : List (BitVec 24)) : Ctx :=
  { c with
    work := c.work.map fun (w : Work) =>
      match w.phase with
      | .waiting items => if items.any fun i => ids.any fun t => i == .tensor t then { w with deep := true } else w
      | _ => w
    w := c.w.map fun (w : WSlot) => if w.pend && ids.contains (addrId w.src) then { w with deep := true } else w }
/-- The tensors that a job touches in memory. -/
def Job.tensors (j : Job) : List (BitVec 24) :=
  ([j.src, j.dst].filterMap fun d =>
    match d with
    | .mem t _ _ => some t
    | .sp _ => none) ++ j.cwe.toList.map (·.tensor)
def State.markDeep (s : State) (ids : List (BitVec 24)) : State :=
  let hit (j : Job) : Bool := !j.isFill && (j.st == .running || j.st == .finishing) && j.tensors.any fun t => ids.contains t
  let s := { s with jobs := updWhere hit (fun j => { j with deep := true }) s.jobs }
  s.occ.foldl (fun s c => s.modCore c fun k => { k with ctx0 := k.ctx0.markDeep ids, ctx1 := k.ctx1.markDeep ids }) s

/-- DEPTH_OUTCOME (12 R254): the chain goes back to Dropped, its recipe tasks end, the tasks parked on it take the
lost-tensor fault, and the requester's launch is marked. -/
def State.depthOutcome (s : State) (id : BitVec 24) (k : Nat) : State :=
  let (chain, top) := s.recipeChain k (s.work.tasks.length + 1)
  let ids := chain.filterMap fun t => t.recipe.map (·.tensor)
  let s := ids.foldl (fun s c => s.modTensor c fun t => { t with st := if t.st = 8 then 6 else t.st, refill := none, ended := false }) s
  let s := chain.foldl (fun s t =>
    let s := (s.unpark t.key).modTask t.key fun t => { t with state := 6, fcode := 0x0707 }
    let s := match s.ctxOfTask t.key with
      | some x => s.modCtx x fun c => { c with flow := { c.flow with phase := .ending 6 } }
      | none => s.countTask t.gang true
    s) s
  let s := ids.foldl (fun s c => s.wakeItem (.tensor c) (some c)) (s.markDeep ids)
  match top with
  | none => s
  | some t =>
    let s := s.modLaunch t.gang.lid fun l => { l with errMark := true }
    s.bbDie t.die 0x31 (BitVec.ofNat 64 (t.gang.lid % 2 ^ 24)) (id.zeroExtend 64)

/-- ReferenceDropped (12 R252): the recipe of a dropped tensor is enqueued, unless the bound is passed. It answers whether
the reference may wait. -/
def State.referenceDropped (s : State) (t : Tensor) (req : Task) (rdmax : BitVec 3) : Bool × State :=
  let level := req.level + 1
  if rdmax.toNat < level then (false, s)
  else
    let s := s.modTensor t.id fun t => { t with st := 8 }
    (true, (s.enqueueRecipe t req level rdmax).wantTensor t.id 1)

/-- A tensor that work under way needs: a refill is asked for or a recipe re-issued, with no task parked; a code where the
recipe is too deep (4) or the tensor is lost (3) (08 R174, 10 R205). -/
def State.needTensor (s : State) (k : Nat) (rdmax : BitVec 3) (id : BitVec 24) : Option Nat × State :=
  match s.tensor? id, s.task? k with
  | some t, some req =>
    match t.st.toNat with
    | 6 =>
      match s.referenceDropped t req rdmax with
      | (true, s) => (none, s)
      | (false, s) => (some 4, s.depthOutcome id k)
    | 7 => (some 3, s)
    | 0 => if 0 < t.csize then (none, s.wantTensor id 1) else (if t.frames.isEmpty then some 3 else none, s)
    | 8 => (none, s)
    | _ => (none, s.wantTensor id 1)
  | _, _ => (some 3, s)
/-- The compressed pages of the flat window that a job has still to reach. -/
def State.flatNeeds (s : State) (j : Job) : List Item :=
  let away (va n : Nat) : List Item :=
    match s.task? j.task with
    | none => []
    | some t => (pagesOf [(va, n)]).filterMap fun p =>
        match (s.walk j.x.die t.troot (p * 4096) false).2 with
        | .ok e => if leafTier e.leaf = 4 then some (flatItem (p, e)) else none
        | .error _ => none
  let side (d : JSide) (n : Nat) : List Item :=
    match d with
    | .mem 0 va segs => if n ≤ segs.foldl (fun m g => m + g.n) 0 then [] else away va n
    | _ => []
  let rows := match j.kind, j.src with
    | .gather, .mem 0 off0 _ =>
      (match s.extent? (s.jobCtx j) 0 with
      | none => []
      | some e => (List.range (if j.rb = 0 then 0 else j.len / j.rb)).flatMap fun i =>
          let off : Int := off0 + (s.gatherIdx j i : Int) * j.sstr
          if off < 0 then [] else away (e.base + off.toNat) j.rb)
    | .gather, _ => []
    | _, d => side d j.len
  rows ++ side j.dst (j.sideLen true) ++ (match j.cwe with
    | some ⟨0, va, none⟩ => away va 8
    | _ => [])
/-- A running copy asks for its dropped and compressed pages; a recipe too deep, or a lost tensor, ends it (10 R205). -/
def State.jobNeeds (s : State) (id : Nat) (again : Act) : State :=
  match s.job? id with
  | none => s
  | some j =>
    if j.isFill || (j.todo.isEmpty && j.due.isEmpty && !(j.cwe.any fun c => c.pa.isNone)) then s
    else
      let ids := j.tensors.filter fun t => (s.tensor? t).any fun z => z.st == 5 || z.st == 6 || z.st == 0
      let (bad, s) := ids.foldl (fun (acc : Bool × State) t =>
        let (c, s) := acc.2.needTensor j.task (s.ctx (s.jobCtx j)).regs.rdmax t
        (acc.1 || c.isSome, s)) (j.deep, s)
      if bad then s.failJob id again else (s.flatNeeds j).foldl (fun s it => s.wantItem it) s

/-- What the end of its recipe makes of a tensor: resident and dirty, or lost (12 R253). -/
def State.recomputed (s : State) (z : Tensor) (fault : Bool) : State :=
  let n := (z.alloc + 4095) / 4096
  let st : BitVec 4 := if fault then 7 else 2
  let s := (s.modTensor z.id fun z => { z with st := st, dirty := true, refill := none, ended := false }).setLeaves z.home z.root z.base
    (if fault then 6 else 1) [] n
  (s.tlbiPages (rootSpid z.root) z.base n).wakeItem (.tensor z.id) (if fault then some z.id else none)
/-- RECIPE_END (12 R253): after TEND the tensor is resident and dirty, after a fault it is lost. A recipe that ends before its
tensor has frames leaves it in state 8 until Bassoon has given it some. -/
def State.recipeEnd (s : State) (t : Task) (fault : Bool) : State :=
  match t.recipe.bind fun r => s.tensor? r.tensor with
  | none => s
  | some z =>
    if z.st ≠ 8 then s
    else if !fault && z.frames.isEmpty then s.modTensor z.id fun z => { z with ended := true }
    else s.recomputed z fault

/-! ### A task ends (02 R30, R32, R34, R38) -/

/-- Every member that has not ended is parked: the gang leaves (02 R34). -/
def State.gangParked (s : State) (g : GangId) : State :=
  match s.gang? g with
  | none => s
  | some q =>
    if (s.liveMembers q).isEmpty || !(s.liveMembers q).all fun t => t.state == 3 then s
    else
      let s := s.modGang g fun q => { q with leaving := true }
      (s.liveMembers q).foldl (fun s t =>
        match s.ctxOfTask t.key with
        | some x => if (s.ctx x).flow.phase = .idle then s else s.leave x .parkedGang
        | none => s) s

/-- A task's record ends in state 5, 6 or 7, and counts; the rest of its gang may now be parked whole (02 R34). -/
def State.taskEnded (s : State) (k : Nat) (st : BitVec 4) : State :=
  match s.task? k with
  | none => s
  | some t =>
    let s := (s.unpark k).modTask k fun t => { t with state := st }
    let s := (s.recipeEnd t (st != 5)).countTask t.gang (st != 5)
    if s.soloTask k then s else s.gangParked t.gang

/-! ### Residency misses (12 R252) -/

/-- One item that a task missed on is asked for; it answers whether the task must wait for it. -/
def State.requestItem (s : State) (k : Nat) (rdmax : BitVec 3) (it : Item) : Bool × State :=
  match it with
  | .tensor id =>
    match s.tensor? id, s.task? k with
    | some t, some req =>
      match t.st.toNat with
      | 3 | 4 | 5 => (true, s.wantTensor id 1)
      | 8 => (true, s)
      | 6 =>
        match s.referenceDropped t req rdmax with
        | (true, s) => (true, s)
        | (false, s) =>
          let s := s.depthOutcome id k
          (false, s.modTask k fun t => { t with lost := t.lost <|> some id })
      | 7 => (false, s.modTask k fun t => { t with lost := t.lost <|> some id })
      | _ => (false, s)
    | _, _ => (false, s)
  | .flat _ _ => (true, s.wantItem it)
  | .kv _ _ => (true, s.wantItem it)

/-- A residency miss (12 R252): the segment aborts and the task parks; a solo task leaves its context, a gang member
keeps it (02 R34). -/
def State.park (s : State) (x : CtxId) (items : List Item) : State :=
  let entry := (s.ctx x).entryPc
  let s := (s.abort x).modOwnTask x fun t => { t with entry := entry }
  match (s.ctx x).task with
  | none => s
  | some k =>
    let rdmax := (s.ctx x).regs.rdmax
    let (w, s) := items.eraseDups.foldl (fun (acc : List Item × State) it =>
      let (wait, s) := acc.2.requestItem k rdmax it
      (if wait then acc.1 ++ [it] else acc.1, s)) ([], s)
    let dead := (s.task? k).any fun t => t.ended || t.lost.isSome
    if dead then s
    else if w.isEmpty then s
    else
      let s := s.modTask k fun t => { t with waits := w, missRd := rdmax }
      let s := w.foldl (fun s it =>
        match it with
        | .tensor id => s.modTensor id fun t => { t with wcnt := t.wcnt + 1 }
        | _ => s) s
      if s.soloTask k then s.leave x .miss
      else
        let s := (s.modTask k fun t => { t with state := 3 }).modFlow x fun f => { f with phase := .parked }
        match s.task? k with
        | some t => s.gangParked t.gang
        | none => s

end Sys2Proof.Machine
end

