-- ==== Sys2Proof/Machine/Residency.lean ====
section
/-! DEFINITION. The residency engine: refills and expansions, victims, actions (12 R245, R252, 20 R368-R373). -/

namespace Sys2Proof.Machine

/-! ### Frames and bytes -/

/-- The bytes of frames moved to other frames, zeros among them; poison marks go with their blocks, and what the target held
goes. -/
def State.moveFrames (s : State) (src dst : List (Nat × Nat)) : State :=
  let goes (a : Nat) : Option Nat := ((frameIdx src (a / 4096)).bind (frameAt dst)).map fun f => f * 4096 + a % 4096
  let there (b : Nat) : Bool := frameHas dst (b / 8)
  (src.foldl (fun s f => s.eccRange (f.1 * 4096) (f.2 * 4096)) s).modMem fun m => { m with
    cells := cellsWriteAll (m.cells.filter fun c => !there (c.1 / 512)) (m.cells.filterMap fun c => (goes c.1).map fun a => (a, c.2))
    poison := (m.poison.filter fun b => !there b) ++ m.poison.filterMap fun b => (goes (b * 512)).map (· / 512)
    flips := m.flips.filter fun p => !there p.1
    cache := m.cache.filter fun p => !there p.1 }
/-- The bytes of an item put into frames, with the blocks among them that are poisoned. -/
def State.fillFrames (s : State) (fs : List (Nat × Nat)) (bs : List Byte) (po : List Nat) : State :=
  s.modMem fun m => { m with
    cells := cellsWriteAll m.cells ((bytesAt 0 bs).map fun c => (framePa fs c.1, c.2))
    poison := (po.map fun b => framePa fs (512 * b) / 512) ++ m.poison.filter fun q => !frameHas fs (q / 8)
    flips := m.flips.filter fun p => !frameHas fs (p.1 / 8)
    cache := m.cache.filter fun p => !frameHas fs (p.1 / 8) }
/-- The blocks of frames that are poisoned, counted from their first. -/
def State.framesPoison (s : State) (fs : List (Nat × Nat)) : List Nat :=
  s.mem.poison.filterMap fun b => (frameIdx fs (b / 8)).map fun i => 8 * i + b % 8
/-- The bytes of runs of frames, and the state once their bit errors are found. -/
def State.framesBytes (s : State) (fs : List (Nat × Nat)) : List Byte × State :=
  let s := fs.foldl (fun s f => s.eccRange (f.1 * 4096) (f.2 * 4096)) s
  (fs.flatMap fun f => s.peek (f.1 * 4096) (f.2 * 4096), s)
/-- Lines of frames that an L1 owns: their data comes home before the bytes move. -/
def State.ownedLines (s : State) (fs : List (Nat × Nat)) : List Nat :=
  fs.flatMap fun f => ((s.die (homeDie (f.1 * 4096))).dir.filter fun e =>
    e.st != .s && decide (f.1 * 32 ≤ e.line ∧ e.line < (f.1 + f.2) * 32)).map (·.line)

/-- Whether a stopped MATTN has read a page in these frames at its first array dc (12 R260). -/
def MacroWord.sees (m : MacroWord) (hit : Nat → Nat → Bool) : Bool :=
  m.run && m.seen.any fun r => r.pages.any fun p => p.2.1 && hit p.2.2.1 4096
/-- Whether something in flight has translated bytes of these frames (09 R191, 12 R251, 20 R369): a job with its completion
word, a fill, a load that waits for a line, a buffered or draining line, an act on its way to its home, a drain, or a macro
that read the page. -/
def State.framesBusy (s : State) (fs : List (Nat × Nat)) : Bool :=
  let hit (pa n : Nat) : Bool := fs.any fun f => rangesMeet pa n (f.1 * 4096) (f.2 * 4096)
  (s.jobs.any fun j => ((j.src.segs ++ j.dst.segs ++ j.sshift ++ j.dshift).any fun g => hit g.pa g.n)
    || (j.cwe.bind (·.pa)).any fun p => hit p 8)
  || s.occ.any fun c => [false, true].any fun b =>
      let x := s.ctx ⟨c, b⟩
      (x.sb.any fun l => hit (l.line * 128) 128) || ((x.posted ++ x.pins).any fun p => hit p.2.1 p.2.2)
        || x.loadWaits (fun l => hit (l * 128) 128)
        || (x.drains.any fun d => d.left.any fun r => hit r.1 r.2)
        || (match x.work with
            | some w => w.pages.any fun p => p.2.1 && hit p.2.2.1 4096
            | none => false)
        || x.macw.sees hit
  || s.work.tasks.any fun t => t.mac.any fun m => m.2.sees hit

/-- The leaves of a tensor rewritten, and the TLBs of every die told (20 R373). -/
def State.tensorLeaves (s : State) (t : Tensor) (tier : Nat) (frames : List (Nat × Nat)) : State :=
  (s.setLeaves t.home t.root t.base tier frames t.npages).tlbiPages (rootSpid t.root) t.base t.npages
def State.kvLeaves (s : State) (q : KvSeq) (p : KvPage) (tier : Nat) (frames : List (Nat × Nat)) : State :=
  (s.setLeaves q.home q.root p.va tier frames q.pageFrames).tlbiPages (rootSpid q.root) p.va q.pageFrames

/-! ### Room (20 R368-R370) -/

/-- A candidate for eviction: item, distance, size, ID, page, frames, and whether it is compressed. -/
structure Candidate where
  item : Item
  dist : Nat
  size : Nat
  ident : Nat
  page : Nat
  frames : List (Nat × Nat)
  zipped : Bool := false
  deriving DecidableEq, Repr

/-- The candidates of a tier of a die (20 R369); a compressed item lies in the tier of its CTIER (log 45). -/
def State.candidates (s : State) (d : BitVec 2) (tier : Nat) : List Candidate :=
  let ts := s.tensors.filterMap fun t =>
    if t.home = d ∧ (t.st.toNat = tier + 1 ∧ t.st.toNat ≤ 4 ∨ t.st = 5 ∧ t.ctier.toNat = tier) ∧ t.pin = 0 ∧ t.lock = 0 ∧ t.moving = none
        ∧ !s.framesBusy t.frames ∧ !s.jobHolds t.root t.base t.alloc then
      let dist := if t.hint = 1 then 0 else if t.hint = 2 then 0xFFFFFFFF else t.nud.toNat
      some ⟨.tensor t.id, dist, t.size, t.id.toNat, 0, t.frames, t.st == 5⟩
    else none
  let ks := s.kvs.flatMap fun q => q.pages.zipIdx.filterMap fun p =>
    if q.home = d ∧ q.inUse ∧ p.1.live ∧ (p.1.tier.toNat = tier ∧ tier ≤ 3 ∨ p.1.tier = 4 ∧ p.1.ctier.toNat = tier) ∧ p.1.moving = none
        ∧ !s.framesBusy p.1.frames ∧ !s.jobHolds q.root p.1.va q.storeBytes then
      some ⟨.kv q.id (BitVec.ofNat 16 p.2), min 0xFFFFFFFF ((s.die d).costs.kvdist.toNat * (q.pages.length - p.2)), q.pageBytes
            , q.id.toNat, p.2, p.1.frames, p.1.tier == 4⟩
    else none
  ts ++ ks

/-- Whether candidate a comes before b: the larger product, then the lower ID, then the lower page. -/
def Candidate.before (a b : Candidate) : Bool :=
  if a.dist * a.size = b.dist * b.size then decide (a.ident < b.ident ∨ (a.ident = b.ident ∧ a.page < b.page))
  else decide (b.dist * b.size < a.dist * a.size)
def insertCand (c : Candidate) : List Candidate → List Candidate
  | [] => [c]
  | d :: t => if c.before d then c :: d :: t else d :: insertCand c t
def sortCands (l : List Candidate) : List Candidate := l.foldl (fun acc c => insertCand c acc) []

/-- Field Tn of a cost register. -/
def costT (w : Word) (tier : Nat) : Nat := (w.extractLsb' (16 * tier) 16).toNat
/-- The actions of 20 R370. -/
inductive Action where
  | spill | compress | drop
  deriving DecidableEq, Repr

/-- The allowed actions of a candidate with their costs, in 2^-16 pJ, in the order that equal costs take. -/
def State.actions (s : State) (d : BitVec 2) (tier : Nat) (spillOk : Bool) (csize : Nat) (c : Candidate) : List (Nat × Action) :=
  let k := (s.die d).costs
  let t? := match c.item with
    | .tensor id => s.tensor? id
    | _ => none
  let hint : BitVec 3 := (t?.map (·.hint)).getD 0
  let clean := match t? with
    | some t => !t.dirty && !t.lower.isEmpty
    | none => tier == 0
  let comp := if !c.zipped ∧ hint ≠ 3 ∧ 5 * csize ≤ 4 * c.size then [(c.size * costT k.kzip tier * 256, Action.compress)] else []
  let sp := if spillOk then
      [((if clean then c.size * costT k.krefill (tier + 1) else c.size * (costT k.kspill (tier + 1) + costT k.krefill (tier + 1))) * 256
        , Action.spill)] else []
  let dr := match t? with
    | some t =>
      if t.rcp ≠ 0 ∧ hint ≠ 4 ∧ !(t.rin.any fun i => ((s.tensor? i).map (·.st)) == some 7) ∧ s.dropDepth t < t.rmax.toNat then
        [(t.rcost.toNat * k.krecomp.toNat, Action.drop)]
      else []
    | none => []
  comp ++ sp ++ dr
/-- The least cost; the first of equal ones. -/
def leastAct : List (Nat × Action) → Option Action
  | [] => none
  | a :: t => some (t.foldl (fun b c => if c.1 < b.1 then c else b) a).2

/-- What the trial of an item has come to since it was last written. -/
def State.tried (s : State) (it : Item) : Option Nat :=
  match it with
  | .tensor id => (s.tensor? id).bind (·.tried)
  | .kv id i => ((s.kv? id).bind fun q => q.page? i.toNat).bind (·.tried)
  | .flat _ _ => none
/-- The trial size of the compressor (20 R372): a free value, at most the size; it is made again only after a write. -/
def State.trial (s : State) (c : Candidate) : Nat × State :=
  if c.zipped then (c.size, s)
  else
  match s.tried c.item with
  | some v => (v, s)
  | none =>
    let (n, s) := s.draw .csize
    let v := n % c.size + 1
    match c.item with
    | .tensor id => (v, s.modTensor id fun t => { t with tried := some v })
    | .kv id i => (v, s.modKvPage id i.toNat fun p => { p with tried := some v })
    | .flat _ _ => (v, s)

/-- What Bassoon's decisions about one candidate come to (20 R370): the frames of its tier that they free, and those that they ask of
the tier below. A compression leaves the rest to a later decision. -/
def Candidate.yields (c : Candidate) (tier csize : Nat) (acts : List (Nat × Action)) : Nat × Nat :=
  let all := frameCount c.frames
  let small := (csize + 4095) / 4096
  match leastAct (acts.filter fun a => a.2 != .compress) with
  | some .spill => (all, if tier = 0 then 0 else if leastAct acts = some .compress then min all small else all)
  | some _ => (all, 0)
  | none => if acts.isEmpty then (0, 0) else (all - small, 0)
/-- Whether a tier has room for n frames or can make it by its own decisions (20 R368, R370): `room` says so of the tier below; CXL
serves only die 0's partition (21 R387). -/
def State.makes (s : State) (d : BitVec 2) (tier n : Nat) (room : State → Nat → Bool × State) :
    List Candidate → Nat → Nat → Bool × State
  | [], got, _ => (decide (n ≤ got), s)
  | c :: rest, got, below =>
    if n ≤ got then (true, s)
    else
      let (cs, s) := s.trial c
      let (ok, s) := if tier = 0 then (true, s) else room s (below + frameCount c.frames)
      let (free, ask) := c.yields tier cs (s.actions d tier ok cs c)
      s.makes d tier n room rest (got + free) (below + ask)
def State.canTake (s : State) (d : BitVec 2) (tier n : Nat) : Nat → Bool × State
  | 0 => (false, s)
  | fuel + 1 =>
    if 3 < tier || (tier == 3 && !samePart s.power.mode d 0) then (false, s)
    else if s.tierFits d tier n then (true, s)
    else
      s.makes d tier n (fun s m => s.canTake d (tier + 1) m fuel) (sortCands (s.candidates d tier)) (s.tierFree d tier n) 0

/-- Whether the tier below can take a candidate: the frames of a copy under the pool stay reserved (20 R371). -/
def State.spills (s : State) (d : BitVec 2) (tier n : Nat) (fuel : Nat) : Bool × State :=
  if tier = 0 then (true, s) else s.canTake d (tier + 1) n fuel
/-- The victim of a tier and its action (20 R369, R370): candidates in order, one with no allowed action skipped. -/
def State.victim (s : State) (d : BitVec 2) (tier : Nat) : List Candidate → State × Option (Candidate × Action)
  | [] => (s, none)
  | c :: rest =>
    let (cs, s) := s.trial c
    let (ok, s) := s.spills d tier (frameCount c.frames) 4
    match leastAct (s.actions d tier ok cs c) with
    | some a => (s, some (c, a))
    | none => s.victim d tier rest

/-- The code of an action in a record that is moving, and in the black-box record (22 R407). -/
def Action.code (a : Action) : BitVec 3 :=
  match a with
  | .spill => 1
  | .compress => 2
  | .drop => 3
/-- RESIDENCY_ACTION (20 R373 step 1): a victim is chosen, its leaves read TIER 7, every die forgets its translations. -/
def State.residencyAction (s : State) (d : BitVec 2) (tier : Nat) : State :=
  if s.acting d tier then s
  else
    match s.victim d tier (sortCands (s.candidates d tier)) with
    | (s, none) => s
    | (s, some (c, a)) =>
      let mv := some (BitVec.ofNat 3 tier, a.code)
      let s := match c.item with
        | .tensor id =>
          (match s.tensor? id with
          | some t => (s.modTensor id fun t => { t with moving := mv }).tensorLeaves t 7 []
          | none => s)
        | .kv id p =>
          (match s.kv? id, (s.kv? id).bind fun q => q.page? p.toNat with
          | some q, some z => (s.modKvPage id p.toNat fun z => { z with moving := mv }).kvLeaves q z 7 []
          | _, _ => s)
        | .flat _ _ => s
      s.later (.ev (.residencyActionFinish c.item))

/-! ### Carrying an action out (20 R371-R373) -/

/-- The record of an action in the black box (22 R407). -/
def State.logAction (s : State) (d : BitVec 2) (id : BitVec 24) (a : BitVec 3) (old new : Nat) : State :=
  s.bbDie d 0x30 (id.zeroExtend 64) (BitVec.ofNat 64 (a.toNat + old * 256 + new * 65536))

/-- An item's spill: where its bytes stand after it, and the tier of its leaves. -/
structure Spilled where
  frames : List (Nat × Nat)
  freed : List (Nat × Nat)
  tier : Nat
  /-- It stays compressed, one tier lower. -/
  zipped : Bool := false
/-- A spill (20 R370, R371, R373): out of the pool onto the HBM copy, whose frames have stayed reserved and which takes the bytes
where it differs; else into frames of the next tier. A compressed item moves as it is, but out of the pool, where its HBM copy takes
its place (log 45). None where the tier below has no room. -/
def State.spill (s : State) (d : BitVec 2) (tier : Nat) (frames lower : List (Nat × Nat)) (zip : Option (List Byte × List Nat)) (dirty : Bool) :
    Option (Spilled × State) :=
  if tier = 0 then
    let s := if !dirty then s
      else match zip with
        | some (bs, po) => s.fillFrames lower bs po
        | none => s.moveFrames frames lower
    some (⟨lower, frames, 1, false⟩, s)
  else
    (s.takeFrames d (tier + 1) (frameCount frames)).map fun (fs, s) =>
      match zip with
      | some _ => (⟨fs, frames, tier + 1, true⟩, s)
      | none => (⟨fs, frames, tier + 1, false⟩, s.moveFrames frames fs)

/-- A tensor that moves: its action carried out once nothing in flight has translated it. -/
def State.finishTensor (s : State) (t : Tensor) (tier act : BitVec 3) : State :=
  let it : Item := .tensor t.id
  let again : Act := .ev (.residencyActionFinish it)
  if s.framesBusy t.frames then s.later again
  else
    match s.clearLines true again (s.ownedLines t.frames) with
    | some s => s
    | none =>
      let old := t.frames
      match act.toNat with
      | 1 =>
        match s.spill t.home tier.toNat old t.lower (if t.st = 5 then some (t.cdata, t.cpois) else none) t.dirty with
        | none => (s.wantRoom t.home (tier.toNat + 1)).later again
        | some (p, s) =>
          let s := s.modTensor t.id fun t =>
            if p.zipped then { t with ctier := BitVec.ofNat 3 p.tier, frames := p.frames, dirty := false, moving := none }
            else { t with
              st := BitVec.ofNat 4 (p.tier + 1), dirty := false, frames := p.frames, lower := [], cdata := [], cpois := [], csize := 0
              ctier := 0, moving := none }
          let s := ((s.tensorLeaves t (if p.zipped then 4 else p.tier) p.frames).releaseFrames p.freed).logAction t.home t.id 1 tier.toNat p.tier
          if p.tier = 1 then s.wakeItem it none else s
      | 2 =>
        let (bytes, s) := s.framesBytes old
        let size := t.tried.getD t.size
        let m := (size + 4095) / 4096
        let s := s.modTensor t.id fun t => { t with
          st := 5, csize := size, ctier := tier, cdata := bytes.take t.alloc, cpois := s.framesPoison old, frames := frameTake old m, moving := none }
        ((s.tensorLeaves t 4 []).releaseFrames (frameDrop old m)).logAction t.home t.id 2 tier.toNat tier.toNat
      | _ =>
        let s := s.modTensor t.id fun z => { z with
          st := 6, rdep := s.dropDepth t, frames := [], lower := [], cdata := [], cpois := [], csize := 0, ctier := 0, moving := none, dirty := false }
        ((s.tensorLeaves t 5 []).releaseFrames (old ++ t.lower)).logAction t.home t.id 3 tier.toNat 5

/-- A KV page that moves: spilled or compressed; never dropped (12 R257). Its HBM copy equals it while it is in the pool (20 R371). -/
def State.finishKvPage (s : State) (q : KvSeq) (i : Nat) (p : KvPage) (tier act : BitVec 3) : State :=
  let it : Item := .kv q.id (BitVec.ofNat 16 i)
  let again : Act := .ev (.residencyActionFinish it)
  let old := p.frames
  if s.framesBusy old then s.later again
  else
    match s.clearLines true again (s.ownedLines old) with
    | some s => s
    | none =>
      if act = 1 then
        match s.spill q.home tier.toNat old p.lower (if p.tier = 4 then some (p.cdata, p.cpois) else none) false with
        | none => (s.wantRoom q.home (tier.toNat + 1)).later again
        | some (z, s) =>
          let s := s.modKvPage q.id i fun p =>
            if z.zipped then { p with ctier := BitVec.ofNat 3 z.tier, frames := z.frames, moving := none }
            else { p with
              tier := BitVec.ofNat 4 z.tier, frames := z.frames, lower := [], cdata := [], cpois := [], ctier := 0, moving := none }
          ((s.kvLeaves q p (if z.zipped then 4 else z.tier) z.frames).releaseFrames z.freed).logAction q.home q.id 1 tier.toNat z.tier
      else
        let m := (p.tried.getD q.pageBytes + 4095) / 4096
        let (bytes, s) := s.framesBytes old
        let s := s.modKvPage q.id i fun p => { p with
          tier := 4, ctier := tier, cdata := bytes.take q.storeBytes, cpois := s.framesPoison old, frames := frameTake old m, moving := none }
        ((s.kvLeaves q p 4 []).releaseFrames (frameDrop old m)).logAction q.home q.id 2 tier.toNat tier.toNat

/-- A KV sequence goes with its page list and its record (12 R251, R257). -/
def State.dropKv (s : State) (q : KvSeq) : State :=
  let s := (s.releaseFrames q.listAt).unmap q.home q.root q.ptp (frameCount q.listAt)
  { s.dropRecord q.recAt with kvs := s.kvs.filter fun z => z.id != q.id }
/-- The record of a freed tensor goes, and its frames return, once nothing in flight uses them (12 R251). -/
def State.reclaim (s : State) (t : Tensor) : State :=
  let again : Act := .ev (.residencyActionFinish (.tensor t.id))
  if s.framesBusy (t.frames ++ t.lower) || s.jobNames t.id then s.later again
  else
    match s.clearLines true again (s.ownedLines t.frames) with
    | some s => s
    | none =>
      let s := ((s.releaseFrames (t.frames ++ t.lower)).unmap t.home t.root t.base t.npages).dropRecord t.recAt
      { s with tensors := s.tensors.filter fun z => z.id != t.id }
/-- A retired page's frames return once no MATTN reads it as live (12 R259, R260). -/
def State.reclaimKv (s : State) (q : KvSeq) (i : Nat) (p : KvPage) : State :=
  let again : Act := .ev (.residencyActionFinish (.kv q.id (BitVec.ofNat 16 i)))
  if s.framesBusy (p.frames ++ p.lower) then s.later again
  else
    match s.clearLines true again (s.ownedLines p.frames) with
    | some s => s
    | none =>
      let s := ((s.releaseFrames (p.frames ++ p.lower)).unmap q.home q.root p.va q.pageFrames).modKvPage q.id i fun p =>
        { p with frames := [], lower := [], cdata := [], moving := none, tier := 1 }
      match s.kv? q.id with
      | some q => if !q.inUse ∧ q.pages.all (·.frames.isEmpty) then s.dropKv q else s
      | none => s

/-- RESIDENCY_ACTION_FINISH (20 R373); the same act gives back what is freed or retired. -/
def State.residencyFinish (s : State) (it : Item) : State :=
  match it with
  | .tensor id =>
    match s.tensor? id with
    | none => s
    | some t =>
      if t.st = 0 then s.reclaim t
      else
        match t.moving with
        | some (tier, act) => s.finishTensor t tier act
        | none => s
  | .kv id i =>
    match s.kv? id with
    | none => s
    | some q =>
      match q.page? i.toNat with
      | none => s
      | some p =>
        if p.ret then s.reclaimKv q i.toNat p
        else
          match p.moving with
          | some (tier, act) => s.finishKvPage q i.toNat p tier act
          | none => s
  | .flat _ _ => s

/-! ### Refills (12 R252, 20 R371, R372) -/

/-- Frames of a tier, or room asked for and the refill tried again. -/
def State.withFrames (s : State) (d : BitVec 2) (tier n : Nat) (it : Item) (k : List (Nat × Nat) → State → State) : State :=
  match s.takeFrames d tier n with
  | some (f, s) => k f s
  | none => (s.wantRoom d tier).later (.ev (.refillComplete it))

/-- The tier that a refill of a tensor goes to: the pool where it was asked for and has room, or where the tensor was
compressed; HBM else (12 R250, R252, 20 R372). -/
def State.refillTier (s : State) (t : Tensor) : Nat :=
  if 0 < t.csize then (if t.ctier = 0 then 0 else 1)
  else if t.refill = some 0 ∧ s.tierFits t.home 0 t.npages then 0 else 1
/-- A tensor was dropped after a task had asked for it: its recipe is issued for the first of the tasks parked on it (12 R252). -/
def State.refillDropped (s : State) (t : Tensor) : State :=
  let it : Item := .tensor t.id
  match s.work.tasks.find? fun k => k.waits.contains it with
  | none => s.modTensor t.id fun t => { t with refill := none }
  | some req =>
    match s.referenceDropped t req req.missRd with
    | (true, s) => s
    | (false, s) => (s.depthOutcome t.id req.key).wakeItem it (some t.id)

/-- One tensor's refill. A tensor in HBM goes into the pool where it was asked for, has room, and nothing holds it where it is: no
lock, no access under way, no job (19 R344, R348); one that is in the pool stays there, whatever is asked (DESIGN CHOICE, log 142). A
freed tensor is expanded for the jobs that still name it (12 R251). -/
def State.refillTensor (s : State) (t : Tensor) : State :=
  let it : Item := .tensor t.id
  let again : Act := .ev (.refillComplete it)
  let n := t.npages
  let settle (s : State) : State := (s.modTensor t.id fun t => { t with refill := none }).wakeItem it none
  let finish (s : State) (tier : Nat) (fs lower : List (Nat × Nat)) : State :=
    let s := s.modTensor t.id fun z => { z with
      st := if t.st = 0 then 0 else BitVec.ofNat 4 (tier + 1), frames := fs, lower := lower, cdata := [], cpois := [], ctier := 0, csize := 0
      refill := none, moving := none }
    ((s.tensorLeaves t tier fs).releaseFrames (t.frames.filter fun f => !lower.contains f)).wakeItem it none
  let expand : State :=
    if s.framesBusy t.frames then s.later again
    else
      let tier := s.refillTier t
      s.withFrames t.home tier n it fun fs s => finish (s.fillFrames fs t.cdata t.cpois) tier fs (if tier = 0 then t.lower else [])
  if t.moving.isSome then s.later again
  else
    match t.st.toNat with
    | 8 =>
      -- frames that a poisoned tensor kept serve its recipe where they are whole and in HBM (14 R283)
      if !t.frames.isEmpty && t.lower.isEmpty && t.csize == 0 && t.frames.all fun f => decide (f.1 * 4096 < 2 ^ 39) then s
      else if s.framesBusy t.frames then s.later again
      else
        s.withFrames t.home 1 n it fun f s =>
          let s := (s.modTensor t.id fun t => { t with
            frames := f, lower := [], cdata := [], cpois := [], csize := 0, ctier := 0, refill := none }).tensorLeaves t 5 f
          let s := s.releaseFrames (t.frames ++ t.lower)
          if t.ended then s.recomputed t false else s
    | 2 =>
      if t.refill ≠ some 0 ∨ t.lock ≠ 0 ∨ !s.tierFits t.home 0 n then settle s
      else if s.framesBusy t.frames || s.jobHolds t.root t.base t.alloc then s.later again
      else
        match s.clearLines true again (s.ownedLines t.frames) with
        | some s => s
        | none =>
          s.withFrames t.home 0 n it fun fs s =>
            finish ((s.moveFrames t.frames fs).modTensor t.id fun t => { t with dirty := false }) 0 fs t.frames
    | 3 | 4 =>
      if s.framesBusy t.frames then s.later again
      else if s.refillTier t = 0 then
        -- a pool copy has an HBM copy below it, and equals it
        s.withFrames t.home 1 n it fun h s =>
          match s.takeFrames t.home 0 n with
          | none => ((s.freeFrames h).wantRoom t.home 0).later again
          | some (fs, s) =>
            finish (((s.moveFrames t.frames fs).moveFrames t.frames h).modTensor t.id fun t => { t with dirty := false }) 0 fs h
      else
        s.withFrames t.home 1 n it fun fs s => finish (s.moveFrames t.frames fs) 1 fs []
    | 5 => expand
    | 0 => if t.csize = 0 then s else expand
    | 6 => s.refillDropped t
    | _ => settle s

/-- The page-landed messages of a page that is in HBM (08 R176). -/
def State.sendLanded (s : State) (q : KvSeq) (i : Nat) : State :=
  match q.page? i with
  | none => s
  | some p =>
    p.want.foldl (fun s w => s.send q.home (coreDie w.1) 0 (.ev (.pageLanded w.1 w.2.1 w.2.2 (BitVec.ofNat 16 i))))
      (s.modKvPage q.id i fun p => { p with want := [] })
/-- A page of a KV sequence brought into HBM, or expanded in the pool where it was compressed there (20 R372); a retired one is
asked for no more. -/
def State.refillKv (s : State) (q : KvSeq) (i : Nat) (p : KvPage) : State :=
  let it : Item := .kv q.id (BitVec.ofNat 16 i)
  let again : Act := .ev (.refillComplete it)
  if p.ret then (s.modKvPage q.id i fun p => { p with refill := false, want := [] }).wakeItem it none
  else if p.moving.isSome then s.later again
  else if p.tier.toNat ≤ 1 then ((s.modKvPage q.id i fun p => { p with refill := false }).sendLanded q i).wakeItem it none
  else if s.framesBusy p.frames then s.later again
  else
    let tier := if p.tier = 4 ∧ p.ctier = 0 then 0 else 1
    s.withFrames q.home tier q.pageFrames it fun fs s =>
      let s := if p.tier = 4 then s.fillFrames fs p.cdata p.cpois else s.moveFrames p.frames fs
      let s := s.modKvPage q.id i fun p => { p with
        tier := BitVec.ofNat 4 tier, frames := fs, cdata := [], cpois := [], ctier := 0, refill := false }
      (((s.kvLeaves q p tier fs).releaseFrames p.frames).sendLanded q i).wakeItem it none

/-- A free run of n HBM frames at a multiple of n, as a page of n frames needs it (19 R343). -/
def State.takeAligned (s : State) (d : BitVec 2) (n : Nat) : Option (List (Nat × Nat) × State) :=
  if n ≤ 1 then s.takeFrames d 1 n
  else
    let (f0, cnt) := tierFrames d 1
    (((List.range (cnt / n)).map fun i => roundUp f0 n + n * i).find? fun f => decide (f + n ≤ f0 + cnt) && s.framesFree d f n).map fun f =>
      ([(f, n)], s.handOut [(f, n)])
/-- A page of the flat window brought back into HBM (12 R245): its leaf names the new frame. -/
def State.refillFlat (s : State) (leafPa size : Nat) : State :=
  let it : Item := .flat leafPa size
  let (s, e) := s.readEntry leafPa
  if !leafFarFlat e then s.wakeItem it none
  else
    let n := size / 4096
    let old := entFrame e
    let d := homeDie (old * 4096)
    if s.framesBusy [(old, n)] then s.later (.ev (.refillComplete it))
    else
      match s.takeAligned d n with
      | none => (s.wantRoom d 1).later (.ev (.refillComplete it))
      | some (f, s) =>
        let s := (s.moveFrames [(old, n)] f).writeEntry leafPa (setTier e 1 (frameAt f 0))
        let s := [0#2, 1#2, 2#2, 3#2].foldl (fun s d => s.tlbiDie d (fun t => t.leafPa / 4096 == leafPa / 4096) false) s
        (s.releaseFrames [(old, n)]).wakeItem it none
where
  /-- Whether a leaf of the flat window still lies below HBM. -/
  leafFarFlat (e : Word) : Bool := e.getLsbD 0 && decide (2 ≤ leafTier e ∧ leafTier e ≤ 4)

/-- REFILL_COMPLETE (12 R252). -/
def State.refillComplete (s : State) (it : Item) : State :=
  match it with
  | .tensor id =>
    match s.tensor? id with
    | some t => s.refillTensor t
    | none => s.wakeItem it none
  | .kv id i =>
    match s.kv? id with
    | some q =>
      match q.page? i.toNat with
      | some p => s.refillKv q i.toNat p
      | none => s.wakeItem it none
    | none => s.wakeItem it none
  | .flat pa size => s.refillFlat pa size

/-- TFETCH at home (12 R250): the tensor is asked into a tier; a dropped one has its recipe issued, with no task parked. -/
def State.fetchTensor (s : State) (x : CtxId) (id : BitVec 24) (pool : Bool) (rdmax : BitVec 3) : State :=
  match s.tensor? id with
  | none => s
  | some t =>
    match t.st.toNat with
    | 6 =>
      match s.taskOf x with
      | none => s
      | some req =>
        match s.referenceDropped t req rdmax with
        | (true, s) => s
        | (false, s) => s.bbDie t.home 0x31 (BitVec.ofNat 64 (req.gang.lid % 2 ^ 24)) (id.zeroExtend 64)
    | 1 | 2 | 3 | 4 | 5 => s.wantTensor id (if pool then 0 else 1)
    | _ => s

end Sys2Proof.Machine
end

