-- ==== Sys2Proof/Machine/SysMem.lean ====
section
/-! DEFINITION. Reads and writes that hardware makes at system level through a root: use lists, context images, carve-out
copies, launch blocks, queues (02 R65, 12 R249, 17 R317, 18 R327). -/

namespace Sys2Proof.Machine

/-- What a read of the hardware gives; `wait` where the act has been handed on to the directory. -/
inductive SysRead where
  | got (bs : List Byte)
  | wait
  | bad
  | poison
  deriving DecidableEq, Repr

/-- The physical stretches of n bytes at a virtual address, page by page, or why there are none: a page has no reachable frame, or
its table or its frame lies behind a link that carries nothing now (21 R383). -/
def State.sysSegs (s : State) (d : BitVec 2) (root : Word) (va : Nat) (write : Bool) : List Nat → State × Except SysRead (List (Nat × Nat))
  | [] => (s, .ok [])
  | p :: t =>
    match s.walk d root (p * 4096) write with
    | (s, .error _) => (s, .error .bad)
    | (s, .ok e) =>
      if e.linkWait then (s, .error .wait)
      else if 4 ≤ leafTier e.leaf ∨ (s.memFor d (e.pa (p * 4096))).isNone then (s, .error .bad)
      else if s.linkWaits d (e.pa (p * 4096)) then (s, .error .wait)
      else
        match s.sysSegs d root va write t with
        | (s, .error r) => (s, .error r)
        | (s, .ok l) => (s, .ok ((p, e.pa (p * 4096)) :: l))
/-- An act that waits for a link is tried again in the next dc. -/
def State.sysAgain (s : State) (r : SysRead) (again : Act) : State := if r = .wait then s.at_ (s.dc + 1) again else s

/-- n bytes at a virtual address read at their homes (11 R240); a consumption of poison is recorded, with the lowest block of the
access (20 R358, 22 R407). -/
def State.sysRead (s : State) (d : BitVec 2) (root : Word) (va n : Nat) (again : Act) : State × SysRead :=
  match s.sysSegs d root va false (pagesOf [(va, n)]) with
  | (s, .error r) => (s.sysAgain r again, r)
  | (s, .ok segs) =>
    let runs := segs.map fun p =>
      let lo := max va (p.1 * 4096)
      (p.2 + lo % 4096, min (va + n) (p.1 * 4096 + 4096) - lo)
    match s.clearLines false again (runs.flatMap fun r => linesOf r.1 r.2) with
    | some s => (s, .wait)
    | none =>
      let (l, po, s) := runs.foldl (fun (acc : List Byte × Option Nat × State) r =>
        let (bs, p, _, s) := acc.2.2.homeRead r.1 r.2
        (acc.1 ++ bs, minBlock acc.2.1 p, s)) ([], none, s)
      if po.isSome then (s.logEngine po, .poison) else (s, .got l)

/-- What a write of the hardware did. -/
inductive SysWrote where
  | done | wait | bad
  deriving DecidableEq, Repr
/-- Bytes written at their homes, L1 copies gone first. -/
def State.sysWrite (s : State) (d : BitVec 2) (root : Word) (va : Nat) (bs : List Byte) (again : Act) : State × SysWrote :=
  let n := bs.length
  match s.sysSegs d root va true (pagesOf [(va, n)]) with
  | (s, .error r) => (s.sysAgain r again, if r = .wait then .wait else .bad)
  | (s, .ok segs) =>
    let runs := segs.map fun p =>
      let lo := max va (p.1 * 4096)
      (p.2 + lo % 4096, lo - va, min (va + n) (p.1 * 4096 + 4096) - lo)
    match s.clearLines true again (runs.flatMap fun r => linesOf r.1 r.2.2) with
    | some s => (s, .wait)
    | none => (runs.foldl (fun s r => (s.homeWriteAt r.1 ((bs.drop r.2.1).take r.2.2)).2) s, .done)

/-- Whether n bytes can be written at home now; else the L1 copies of their lines are being recalled, or a link is waited for. -/
def State.sysClear (s : State) (d : BitVec 2) (root : Word) (va n : Nat) (again : Act) : State × Bool :=
  match s.sysSegs d root va true (pagesOf [(va, n)]) with
  | (s, .error r) => (s.sysAgain r again, r != .wait)
  | (s, .ok segs) =>
    match s.clearLines true again (segs.flatMap fun p =>
        let lo := max va (p.1 * 4096)
        linesOf (p.2 + lo % 4096) (min (va + n) (p.1 * 4096 + 4096) - lo)) with
    | some s => (s, false)
    | none => (s, true)

end Sys2Proof.Machine
end

