-- ==== Sys2Proof/Machine/Tensors.lean ====
section
/-! DEFINITION. The C-slot tensor and KV operations at issue, and what each does at its home (12 R246-R261, 10 R216, R219,
R222). -/

namespace Sys2Proof.Machine

/-! ### Cards (12 R248, R256) -/

/-- Whether a word has a one beyond its low n bits. -/
def beyond (w : Word) (n : Nat) : Bool := decide (2 ^ n ≤ w.toNat)
/-- The elements of a tensor of SIZE bytes. -/
def nelOf (size w : Nat) : Nat := size * 8 / w
/-- The conditions of the tensor-card fault of TNEW (12 R248). -/
def tensorCardBad (l : List Word) (f : FmtSlot) (fmt0 : FmtSlot) : Bool :=
  let w (i : Nat) : Word := cardWord l i
  let size := ((w 0).extractLsb' 0 40).toNat
  let nel := nelOf size f.width
  let unit := if f.geom = 1 then 16 else if f.geom = 2 then 32 else if f.geom = 3 then 64 else 512
  let rins := (w 7).extractLsb' 0 48 != 0 || (w 3).extractLsb' 16 48 != 0
  beyond (w 0) 52 || beyond (w 1) 57 || beyond (w 2) 57 || beyond (w 4) 51 || beyond (w 5) 57 || beyond (w 6) 32 || beyond (w 7) 48
    || size == 0 || ((w 0).extractLsb' 40 5 == 0 && fmt0.geom != 0)
    || decide (size * 8 % f.width ≠ 0) || (f.geom != 0 && decide (nel % unit ≠ 0))
    || decide (5 ≤ ((w 0).extractLsb' 48 3).toNat) || decide ((w 1).toNat % 64 ≠ 0)
    || (decide ((w 2).toNat % 4 ≠ 0) && (w 3).extractLsb' 0 16 != 0)
    || (!(w 0).getLsbD 51 && (w 4 != 0 || w 5 != 0 || w 6 != 0 || rins))
    || ((w 0).getLsbD 51 && (w 4 == 0 || decide ((w 5).toNat % 64 ≠ 0)))
/-- The conditions of the tensor-card fault of KVNEW (12 R256). -/
def kvCardBad (l : List Word) (f : FmtSlot) : Bool :=
  let w (i : Nat) : Word := cardWord l i
  let heads := ((w 0).extractLsb' 0 7).toNat
  heads == 0 || decide (64 < heads) || (w 0).extractLsb' 17 16 == 0 || f.geom != 0 || beyond (w 0) 33 || beyond (w 1) 57
    || (l.drop 2).any (· != 0)

/-- The ID that a register names. -/
def regId (w : Word) : BitVec 24 := w.extractLsb' 0 24

/-- TNEW (12 R248). -/
def execTnew (gd : GReg) (ad : AReg) (imm : BitVec 38) (s : State) : Out :=
  .next (s.withCard ad imm.toInt fun l va s =>
    let c := s.cur
    let f := c.readFmt ((cardWord l 0).extractLsb' 40 5)
    if tensorCardBad l f (c.readFmt 0) then s.raise 0x000C va
    else s.callHome (.tnew gd l f c.regs.rdmax c.sys.troot))
/-- KVNEW (12 R256). -/
def execKvnew (gd : GReg) (ad : AReg) (imm : BitVec 38) (s : State) : Out :=
  .next (s.withCard ad imm.toInt fun l va s =>
    let c := s.cur
    let f := c.readFmt ((cardWord l 0).extractLsb' 9 5)
    if kvCardBad l f then s.raise 0x000C va else s.callHome (.kvnew gd l f c.sys.troot))
/-- TFREE (12 R251). -/
def execTfree (gs : GReg) (s : State) : Out := .next (s.callHome (.tfree (regId (s.gval gs))))
/-- TPIN (12 R250). -/
def execTpin (gs : GReg) (s : State) : Out := .next (s.callHome (.tpin (regId (s.gval gs))))
/-- TUNPIN (12 R250). -/
def execTunpin (gs : GReg) (s : State) : Out := .next (s.callHome (.tunpin (regId (s.gval gs))))

/-- An act posted at commit and counted in NS until it is performed at home (12 R247). -/
def State.postHome (s : State) (o : HomeOp) : State :=
  s.countNs fun id s => s.stage (.act id (.op s.iss.x id s.iss.slot s.iss.pc o))
/-- TUSE (12 R249). -/
def execTuse (gs1 gs2 : GReg) (s : State) : Out :=
  .next (s.postHome (.tuse (regId (s.gval gs1)) ((s.gval gs2).extractLsb' 0 32)))
def Hint.code (h : Hint) : BitVec 3 :=
  match h with
  | .none => 0
  | .soon => 1
  | .done => 2
  | .nozip => 3
  | .nodrop => 4
/-- THINT (12 R250). -/
def execThint (gs : GReg) (hint : Hint) (s : State) : Out := .next (s.postHome (.thint (regId (s.gval gs)) (Hint.code hint)))
/-- TFETCH (12 R250). -/
def execTfetch (gs : GReg) (tier : BitVec 1) (s : State) : Out :=
  .next (s.postHome (.tfetch (regId (s.gval gs)) (tier == 0) s.cur.regs.rdmax))

/-! ### Locks (12 R255, 19 R348) -/

/-- The translations of a region, each once. -/
def lockEntries (ps : Pages) : List TlbEntry := (ps.map (·.2)).eraseDups
/-- TLOCK (12 R255): the checks of 09 R184 over the whole region at issue; a length of 0 locks nothing and is not checked. -/
def execTlock (ad : AReg) (imm : BitVec 32) (gs : GReg) (s : State) : Out :=
  let n := ((s.gval gs).extractLsb' 0 40).toNat
  .next (if n = 0 then s.endsSeg else match s.operand (s.cur.readA ad) imm.toInt n 1 ⟨false, true, true⟩ with
    | (s, none) => s
    | (s, some (va, ps)) =>
      let used := (s.cur.locks.map fun l => l.entries.length).foldl (· + ·) 0
      if 8 < used + (lockEntries ps).length then s.raise 0x000F (BitVec.ofNat 64 va)
      else s.callHome (.tlock va n))
/-- TUNLOCK (12 R255). -/
def execTunlock (ad : AReg) (imm : BitVec 32) (s : State) : Out :=
  .next (match s.effAddr s.iss.x (s.cur.readA ad) imm.toInt 0 with
    | .error v => s.raise 0x0003 v
    | .ok va => s.callHome (.tunlock va))

/-! ### Queries (12 R261) -/

/-- A query leaves at issue and freezes its context until the reply (12 R247). -/
def State.askHome (s : State) (o : HomeOp) : State :=
  let (id, s) := s.newId
  s.modIss fun i => { i with calls := i.calls ++ [(id, i.slot, .op i.x id i.slot i.pc o)] }
/-- TINFO (12 R261). -/
def execTinfo (gd gs : GReg) (sel : TinfoSel) (s : State) : Out := .next (s.askHome (.tinfo gd (regId (s.gval gs)) sel))
/-- The checks of a KV operation at issue (12 R246): the ID of an ordinary tensor; an ID not in use where `must`. -/
def State.kvGate (s : State) (id : BitVec 24) (must : Bool) (tval : Word) (k : State → State) : State :=
  let d := s.iss.x.die
  if (s.tensorFor d id).isSome then s.raise 0x000D (id.zeroExtend 64)
  else if must && (s.kvFor d id).isNone then s.raise 0x0003 tval
  else k s
/-- KVPOS (12 R261). -/
def execKvpos (gd gs1 gs2 : GReg) (sel : KvposSel) (s : State) : Out :=
  let id := regId (s.gval gs1)
  .next (s.kvGate id false 0 fun s => s.askHome (.kvpos gd id ((s.gval gs2).extractLsb' 0 32) sel))
/-- KVINFO (12 R261). -/
def execKvinfo (gd gs : GReg) (sel : KvinfoSel) (s : State) : Out :=
  let id := regId (s.gval gs)
  .next (s.kvGate id false 0 fun s => s.askHome (.kvinfo gd id sel))
/-- The bytes of one token: 2 * HEADS * D elements (12 R258, 04 R68). -/
def KvSeq.tokenBytes (q : KvSeq) : Nat := 2 * q.heads * q.headBytes
/-- Where the elements of one head of a token begin in a page, in bytes (12 R257). -/
def KvSeq.eltAt (q : KvSeq) (value : Bool) (h slot : Nat) : Nat := ((2 * h + (if value then 1 else 0)) * 16 + slot) * q.headBytes
/-- The slot that the next token of a tag takes in the open page, as byte ranges; none where a page must be opened. -/
def KvSeq.nextSlot (q : KvSeq) (tag : BitVec 3) : List (Nat × Nat) :=
  match q.pages.getLast? with
  | some p =>
    if p.closed || p.tag != tag then []
    else [false, true].flatMap fun v => (List.range q.heads).map fun h => (p.va + q.eltAt v h p.nocc, q.headBytes)
  | none => []
/-- Whether a mask and a limit retire a page (12 R259). -/
def KvPage.retires (mask : BitVec 8) (limit : BitVec 32) (p : KvPage) : Bool :=
  p.live && mask.getLsbD p.tag.toNat && decide (p.firstpos < limit.toNat)
/-- Check 4 of 09 R184 for the slot writes of KVAPP and KVRET (19 R345, R346): translations for a write, in any tier. -/
def State.kvSlots (s : State) (ranges : List (Nat × Nat)) (k : State → State) : State :=
  let tval := BitVec.ofNat 64 (ranges.headD (0, 0)).1
  match s.translateAll s.iss.x ⟨true, false, false⟩ (pagesOf ranges) with
  | (s, .error f) => s.raise f.1 tval f.2
  | (s, .ok ps) => if ps.any fun p => leafTier p.2.leaf == 7 then s.blockOn tval else k s
/-- KVAPP (12 R258). -/
def execKvapp (gs : GReg) (bank : BitVec 6) (row : BitVec 11) (tag : BitVec 3) (s : State) : Out :=
  let id := regId (s.gval gs)
  let pos := linPos bank.toNat row.toNat 0
  .next (s.kvGate id true (BitVec.ofNat 64 pos) fun s =>
    let n := ((s.kv? id).map KvSeq.tokenBytes).getD 0
    match s.spRangeFault s.iss.x pos n with
    | some (code, v) => s.raise code v
    | none => s.kvSlots (((s.kv? id).map fun q => q.nextSlot tag).getD []) fun s => (s.postHome (.kvappRead id tag pos n)).endsSeg)
/-- KVRET (12 R259). -/
def execKvret (gs1 gs2 : GReg) (mask : BitVec 8) (s : State) : Out :=
  let id := regId (s.gval gs1)
  let limit := (s.gval gs2).extractLsb' 0 32
  let out (q : KvSeq) : List (Nat × Nat) := (q.pages.filter (KvPage.retires mask limit)).map fun p => (p.va, q.storeBytes)
  .next (s.kvGate id true 0 fun s => s.kvSlots (((s.kv? id).map out).getD []) fun s => (s.postHome (.kvret id mask limit)).endsSeg)

/-! ### Creation at home (12 R248, R256) -/

/-- The tensor or sequence that an operation names. -/
def HomeOp.ident : HomeOp → Option (BitVec 24)
  | .tfree id | .tpin id | .tunpin id | .tuse id _ | .thint id _ | .tfetch id _ _ | .kvappRead id _ _ _ | .kvapp id _ _
  | .kvret id _ _ | .tinfo _ id _ | .kvpos _ id _ _ | .kvinfo _ id _ => some id
  | _ => none
def Act.ident : Act → Option (BitVec 24)
  | .op _ _ _ _ o => o.ident
  | _ => none
/-- The IDs that operations which have passed their checks at issue still name: on their way, staged in a segment, or waiting in a
context. None of them is given out again (12 R248, R251). -/
def State.opIds (s : State) : List (BitVec 24) :=
  let ofCtx (c : Ctx) : List (BitVec 24) :=
    (c.seg.staged.filterMap fun a =>
      match a with
      | .act _ i | .after _ i | .call _ i | .now i => i.ident
      | .cancelJobs _ => none) ++ c.counts.waiting.filterMap fun w => w.2.1.ident
  s.acts.filterMap Act.ident ++ s.occ.flatMap fun c => ofCtx (s.ctx ⟨c, false⟩) ++ ofCtx (s.ctx ⟨c, true⟩)
/-- An ID not in use, from a free choice on; none where all are taken. -/
def State.freeIdFrom (s : State) (gone : List (BitVec 24)) (n : Nat) : Nat → Option (BitVec 24)
  | 0 => none
  | k + 1 =>
    let id := BitVec.ofNat 24 (n % (2 ^ 24 - 1) + 1)
    if (s.tensor? id).isSome || (s.kv? id).isSome || gone.contains id then s.freeIdFrom gone (n + 1) k else some id
def State.freeId (s : State) : Option (BitVec 24) × State :=
  let (n, s) := s.draw .tensorId
  let gone := s.opIds
  (s.freeIdFrom gone n (min (2 ^ 24 - 1) (s.tensors.length + s.kvs.length + gone.length + 1)), s)

/-- Where an operation of a context is performed (12 R247). -/
def State.opDie (s : State) (x : CtxId) (o : HomeOp) : BitVec 2 :=
  let card (l : List Word) (lo lc : Nat) : BitVec 2 :=
    let h := (cardWord l 0).extractLsb' lo 2
    if (cardWord l 0).getLsbD lc || !samePart s.power.mode x.die h then x.die else h
  let ident (id : BitVec 24) : BitVec 2 :=
    match s.tensorFor x.die id, s.kvFor x.die id with
    | some t, _ => t.home
    | none, some q => q.home
    | none, none => x.die
  let region (a : Nat) : BitVec 2 :=
    ((s.tensors.find? fun t => t.st != 0 && samePart s.power.mode x.die t.home && decide (t.base ≤ a ∧ a < t.base + t.alloc)).map
      (·.home)).getD x.die
  match o with
  | .tnew _ l _ _ _ => card l 45 47
  | .kvnew _ l _ _ => card l 14 16
  | .tfree id | .tpin id | .tunpin id | .tuse id _ | .thint id _ | .tfetch id _ _ | .kvapp id _ _ | .kvret id _ _
  | .tinfo _ id _ | .kvpos _ id _ _ | .kvinfo _ id _ => ident id
  | .kvappRead .. => x.die
  | .tlock base _ | .tunlock base => region base
  | .bari .. | .bfree .. => coreDie (((s.gangOf x).map (·.home)).getD x.core)
  | .acq _ _ pa => homeDie pa
/-- The module an operation travels on. -/
def HomeOp.module (o : HomeOp) : BitVec 3 :=
  match o with
  | .acq _ _ pa => moduleOf pa
  | _ => 0
/-- An operation of a context on its way to its home; those of one context keep their order (12 R247). -/
def State.sendOp (s : State) (x : CtxId) (o : HomeOp) (i : Act) : State :=
  let d := s.opDie x o
  if d = x.die then
    s.laterAfter (fun j =>
      match j with
      | .op y _ _ _ _ => y == x
      | _ => false) i
  else s.send x.die d o.module i
/-- A reply to a context from a die. -/
def State.reply (s : State) (from_ : BitVec 2) (x : CtxId) (id : Nat) (r : Reply) : State :=
  s.send from_ x.die 0 (.ev (.replyArrival x id r))

/-- The error word of TNEW and KVNEW. -/
def newError (code : Nat) : Word := BitVec.ofNat 64 (code * 2 ^ 56)
/-- The home that a card asks for is outside the partition: code 3. -/
def State.homeOutside (s : State) (x : CtxId) (l : List Word) (lo lc : Nat) : Bool :=
  !(cardWord l 0).getLsbD lc && !samePart s.power.mode x.die ((cardWord l 0).extractLsb' lo 2)

/-- Four bytes of a page that no access is served from: a compressed one keeps its bytes in another form, a moving one still has
its frame; a dropped page holds none (12 R245, 20 R372, R373). -/
def State.farBytes (s : State) (d : BitVec 2) (root : Word) (va : Nat) : State × Option (List Byte) :=
  match s.tensors.find? fun t => t.st != 0 && rootSpid t.root == rootSpid root && decide (t.base ≤ va ∧ va < t.base + t.alloc) with
  | some t =>
    if t.st = 5 then (s, some ((t.cdata.drop (va - t.base)).take 4))
    else (s, if t.frames.isEmpty then none else some (s.peek (framePa t.frames (va - t.base)) 4))
  | none =>
    match s.walk d root va false with
    | (s, .ok e) => (s, if leafTier e.leaf = 4 ∨ leafTier e.leaf = 7 then some (s.peek (e.pa va) 4) else none)
    | (s, .error _) => (s, none)
/-- An entry of a use list (12 R249), read where its page lies; a free value where no byte of it is left. -/
def State.useAt (s : State) (d : BitVec 2) (root : Word) (ulp i : Nat) (again : Act) : State × Option Nat :=
  match s.sysRead d root (ulp + 4 * i) 4 again with
  | (s, .got bs) => (s, some (bytesToNat bs))
  | (s, .wait) => (s, none)
  | (s, .bad) =>
    (match s.farBytes d root (ulp + 4 * i) with
    | (s, some bs) => (s, some (bytesToNat bs))
    | (s, none) =>
      let (n, s) := s.draw .useEntry
      (s, some (n % 2 ^ 32)))
  | (s, .poison) =>
    let (n, s) := s.draw .useEntry
    (s, some (n % 2 ^ 32))

/-- TNEW at home (12 R248). -/
def State.tnewAt (s : State) (again : Act) (x : CtxId) (id : Nat) (gd : GReg) (l : List Word) (f : FmtSlot) (rmax : BitVec 3)
    (root : Word) : State :=
  let w (i : Nat) : Word := cardWord l i
  let d := if (w 0).getLsbD 47 then x.die else (w 0).extractLsb' 45 2
  let fail (s : State) (code : Nat) : State := s.reply x.die x id (.g gd (newError code))
  if s.homeOutside x l 45 47 then fail s 3
  else
    let size := ((w 0).extractLsb' 0 40).toNat
    let alloc := roundUp (planeOff size + blockCount f.geom.toNat (nelOf size f.width)) 4096
    let n := alloc / 4096
    let ulp := (w 2).toNat
    let ulen := ((w 3).extractLsb' 0 16).toNat
    let first : State × Option Nat := if ulen = 0 then (s, some 0xFFFFFFFF) else s.useAt d root ulp 0 again
    match first with
    | (s, none) => s
    | (s, some nud) =>
      match s.freeId with
      | (none, s) => fail s 1
      | (some tid, s) =>
        match s.freeRange root alloc with
        | (none, s) => fail s 2
        | (some base, s) =>
          match s.takeFrames d 1 n with
          | none => (s.wantRoom d 1).later again
          | some (fr, s) =>
            let (bits, s) := s.draw .leafBits
            match s.mapPages d root base fr (newLeaf bits ((w 0).extractLsb' 40 5) f.geom 1) n with
            | none => (s.wantRoom d 1 |>.freeFrames fr).later again
            | some s =>
              let (place, s) := s.placeRecord d root
              let t : Tensor := {
                id := tid, home := d, st := 2, dirty := false, size := size, fmt := (w 0).extractLsb' 40 5, geom := f.geom, pin := 0
                lock := 0, base := base, guard := (w 1).extractLsb' 0 57, ulp := (w 2).extractLsb' 0 57, ulen := ulen, cur := 0
                nud := BitVec.ofNat 32 nud, rcp := (w 4).extractLsb' 0 51, rdep := 0, rmax := rmax, hint := (w 0).extractLsb' 48 3
                rcost := (w 6).extractLsb' 0 32, rarg := (w 5).extractLsb' 0 57
                rin := ([(w 7).extractLsb' 0 24, (w 7).extractLsb' 24 24, (w 3).extractLsb' 16 24, (w 3).extractLsb' 40 24] :
                  List (BitVec 24))
                csize := 0, ctier := 0, wcnt := 0, frames := fr, lower := [], cdata := [], alloc := alloc, root := root
                moving := none, refill := none, recAt := some place }
              ({ s with tensors := s.tensors ++ [t] }).reply d x id (.g gd (tid.zeroExtend 64))

/-- KVNEW at home (12 R256). -/
def State.kvnewAt (s : State) (again : Act) (x : CtxId) (id : Nat) (gd : GReg) (l : List Word) (f : FmtSlot) (root : Word) : State :=
  let w (i : Nat) : Word := cardWord l i
  let d := if (w 0).getLsbD 16 then x.die else (w 0).extractLsb' 14 2
  if s.homeOutside x l 14 16 then s.reply x.die x id (.g gd (newError 3))
  else
    match s.freeId with
    | (none, s) => s.reply d x id (.g gd (newError 1))
    | (some tid, s) =>
      -- the page list has its virtual range and its frames (12 R257)
      let maxpg := ((w 0).extractLsb' 17 16).toNat
      let n := (16 * maxpg + 4095) / 4096
      match s.freeRange root (n * 4096) with
      | (none, s) => s.reply d x id (.g gd (newError 2))
      | (some ptp, s) =>
      match s.takeFrames d 1 n with
      | none => (s.wantRoom d 1).later again
      | some (fr, s) =>
      match s.mapPages d root ptp fr systemLeaf n with
      | none => ((s.wantRoom d 1).freeFrames fr).later again
      | some s =>
      let (place, s) := s.placeRecord d root
      let q : KvSeq := {
        id := tid, home := d, heads := ((w 0).extractLsb' 0 7).toNat, dimc := (w 0).extractLsb' 7 2, code := f.code, bias := f.bias
        fmt := (w 0).extractLsb' 9 5, guard := (w 1).extractLsb' 0 57, maxpg := maxpg, nextpos := 0
        ovf := false, ptp := ptp, inUse := true, pages := [], root := root, recAt := some place, listAt := fr }
      ({ s with kvs := s.kvs ++ [q] }).reply d x id (.g gd (tid.zeroExtend 64))

/-! ### Operations on a tensor at home -/

/-- A fault met at home, taken at the entry after the bundle (12 R247). -/
def homeFault (slot : Slot) (bundle : BAddr) (code : BitVec 16) (tval : Word) : Reply := .fault slot code tval bundle
def stateFault (slot : Slot) (bundle : BAddr) (id : BitVec 24) : Reply := homeFault slot bundle 0x000D (id.zeroExtend 64)

/-- TFREE at home (12 R251): the ID stops being usable; the frames follow their last user. -/
def State.tfreeAt (s : State) (d : BitVec 2) (tid : BitVec 24) : Option State :=
  match s.tensorFor d tid, s.kvFor d tid with
  | some t, _ =>
    if t.pin ≠ 0 ∨ t.lock ≠ 0 then none
    else
      -- an action under way is given up: its leaves name the old place again, for what passed its checks before
      let s := if t.moving.isSome then s.tensorLeaves t (if t.st = 5 then 4 else t.tier) t.frames else s
      some (((s.modTensor tid fun t => { t with st := 0, moving := none, refill := none }).wakeItem (.tensor tid) none).later
        (.ev (.residencyActionFinish (.tensor tid))))
  | none, some q =>
    let s := s.modKv tid fun q => { q with inUse := false, pages := q.pages.map fun (p : KvPage) => { p with ret := true, closed := true } }
    if q.pages.isEmpty then some (s.dropKv q)
    else
      some (q.pages.zipIdx.foldl (fun s p =>
        (s.wakeItem (.kv tid (BitVec.ofNat 16 p.2)) none).later (.ev (.residencyActionFinish (.kv tid (BitVec.ofNat 16 p.2))))) s)
  | none, none => none

/-- TuseAtHome (12 R249) from a cursor; none where an entry's line is on its way. -/
def State.tuseGo (s : State) (t : Tensor) (i : Nat) (again : Act) (cur : Nat) : Nat → State × Option (Nat × Nat)
  | 0 => (s, some (cur, 0xFFFFFFFF))
  | k + 1 =>
    match s.useAt t.home t.root t.ulp.toNat cur again with
    | (s, none) => (s, none)
    | (s, some u) => if u ≤ i then s.tuseGo t i again (cur + 1) k else (s, some (cur, u - i))
/-- TUSE at home; none where it has been handed on to the directory. -/
def State.tuseAt (s : State) (t : Tensor) (i : BitVec 32) (again : Act) : State × Bool :=
  match s.tuseGo t i.toNat again t.cur (t.ulen - t.cur) with
  | (s, none) => (s, false)
  | (s, some (cur, nud)) => (s.modTensor t.id fun t => { t with cur := cur, nud := BitVec.ofNat 32 nud }, true)

/-- The tensors of a space that a region touches. -/
def State.lockTensors (s : State) (d : BitVec 2) (root : Word) (base n : Nat) : List (BitVec 24) :=
  (s.tensors.filter fun t => t.st != 0 && samePart s.power.mode d t.home && rootSpid t.root == rootSpid root
    && rangesMeet base n t.base t.alloc).map (·.id)
/-- The locked entries of a region loaded for a context (12 R255, 19 R348): the walks, and one more in LOCK of each tensor. A leaf
that is invalid, lacks LOCK or is in no tier of the compute tiers gets no entry. -/
def State.tlockAt (s : State) (x : CtxId) (base n : Nat) : State :=
  if n = 0 then s
  else
    let root := (s.ctx x).sys.troot
    let (s, es) := (pagesOf [(base, n)]).foldl (fun (acc : State × List TlbEntry) p =>
      match acc.1.walk x.die root (p * 4096) false with
      | (s, .ok e) => (s, if leafLock e.leaf && decide (leafTier e.leaf ≤ 1) then acc.2 ++ [e] else acc.2)
      | (s, .error _) => (s, acc.2)) (s, [])
    let ts := s.lockTensors x.die root base n
    let s := ts.foldl (fun s id => s.modTensor id fun t => { t with lock := t.lock + 1 }) s
    s.modCtx x fun c => { c with locks := c.locks ++ [⟨base, n, es.eraseDups, ts⟩] }
/-- A lock released (12 R255). -/
def State.tunlockAt (s : State) (x : CtxId) (base : Nat) : State :=
  match (s.ctx x).locks.find? fun l => l.base == base with
  | none => s
  | some l =>
    let s := l.tensors.foldl (fun s id => s.modTensor id fun t => { t with lock := t.lock - 1 }) s
    s.modCtx x fun c => { c with locks := c.locks.erase l }

/-! ### KV sequences at home (12 R257-R261) -/

/-- Tokens in pages not retired; the tags of pages not retired. -/
def KvSeq.nlive (q : KvSeq) : Nat := (q.pages.filter KvPage.live).foldl (fun n p => n + p.nocc) 0
def KvSeq.tagmap (q : KvSeq) : Nat := (List.range 8).foldl (fun m n =>
  if q.pages.any fun p => p.live && p.tag.toNat == n then m + 2 ^ n else m) 0
/-- The page that holds a position. -/
def KvSeq.pageOf (q : KvSeq) (x : Nat) : Option (Nat × KvPage) :=
  (q.pages.zipIdx.find? fun p => decide (p.1.firstpos ≤ x ∧ x < p.1.firstpos + p.1.nocc)).map fun p => (p.2, p.1)
/-- KVPOS (12 R261). -/
def KvSeq.posInfo (q : KvSeq) (x : Nat) (sel : KvposSel) : Word :=
  match sel with
  | .at_ =>
    if q.nextpos ≤ x then 2
    else
      match q.pageOf x with
      | some (i, p) => BitVec.ofNat 64 ((if p.ret then 1 else 0) + p.tag.toNat * 4 + (x - p.firstpos) * 2 ^ 5 + i * 2 ^ 16)
      | none => 2
  | .next =>
    let l := (q.pages.filter KvPage.live).filterMap fun p =>
      let y := max x p.firstpos
      if y < p.firstpos + p.nocc then some y else none
    BitVec.ofNat 64 (l.foldl min q.nextpos)
  | .live =>
    BitVec.ofNat 64 ((q.pages.filter KvPage.live).foldl (fun n p => n + min p.nocc (x - p.firstpos)) 0)
/-- KVINFO (12 R261). -/
def KvSeq.info (q : KvSeq) (sel : KvinfoSel) : Word :=
  match sel with
  | .next => BitVec.ofNat 64 q.nextpos
  | .pages => BitVec.ofNat 64 q.pages.length
  | .tags => BitVec.ofNat 64 q.tagmap
  | .live => BitVec.ofNat 64 q.nlive
  | .shape => BitVec.ofNat 64 (q.heads + q.dim * 2 ^ 8 + q.code.toNat * 2 ^ 16 + q.bias.toNat * 2 ^ 24)
  | .state => BitVec.ofNat 64 ((if q.ovf then 1 else 0) + (if q.inUse then 2 else 0))
/-- TINFO (12 R261). -/
def Tensor.info (t : Tensor) (sel : TinfoSel) : Word :=
  match sel with
  | .state => BitVec.ofNat 64 (t.st.toNat + (if t.dirty then 16 else 0) + (if t.lock ≠ 0 then 32 else 0) + t.pin.toNat * 2 ^ 8
      + t.home.toNat * 2 ^ 16 + t.hint.toNat * 2 ^ 18 + t.rdep % 8 * 2 ^ 21)
  | .size => BitVec.ofNat 64 t.size
  | .base => BitVec.ofNat 64 t.base
  | .nud => t.nud.zeroExtend 64
  | .cur => BitVec.ofNat 64 t.cur
/-- TINFO of a KV sequence: the fields that its record has (12 R256). -/
def KvSeq.tinfo (q : KvSeq) (sel : TinfoSel) : Word :=
  match sel with
  | .state => BitVec.ofNat 64 (1 + q.home.toNat * 2 ^ 16)
  | _ => 0

/-- The bytes of a token placed in its slot of a page: offset and byte (12 R258). -/
def KvSeq.slotBytes (q : KvSeq) (slot : Nat) (bs : List Byte) : List (Nat × Byte) :=
  [false, true].flatMap fun value => (List.range q.heads).flatMap fun h =>
    bytesAt (q.eltAt value h slot) ((bs.drop (((if value then q.heads else 0) + h) * q.headBytes)).take q.headBytes)
/-- The physical address of byte o of a page in its frames. -/
def KvPage.pa (p : KvPage) (o : Nat) : Nat := framePa p.frames o
/-- WriteSlot: at the page's frames, or into its compressed bytes; none where an L1 copy must leave first. -/
def State.writeSlot (s : State) (q : KvSeq) (i : Nat) (p : KvPage) (bs : List Byte) (again : Act) : Option State × State :=
  let l := q.slotBytes p.nocc bs
  let s := s.modKvPage q.id i fun p => { p with tried := none }
  if p.tier = 4 then
    let cells := cellsWriteAll (bytesAt 0 p.cdata) l
    let s := if p.lower.isEmpty then s else (s.homeWrite (l.map fun c => (framePa p.lower c.1, c.2))).2
    (some (s.modKvPage q.id i fun p => { p with cdata := cellsReadN cells 0 q.storeBytes }), s)
  else
    match s.clearLines true again ((l.map fun c => p.pa c.1 / 128).eraseDups) with
    | some s => (none, s)
    | none => (some (((l.map fun c => p.pa c.1 / 4096).eraseDups.foldl (fun s f =>
        (s.homeWrite ((l.filter fun c => p.pa c.1 / 4096 == f).map fun c => (p.pa c.1, c.2))).2) s)), s)
/-- What opening a page gives: the page; no frame for it, ever; or room that is being made (20 R368). -/
inductive Opened where
  | page (s : State)
  | full
  | later
/-- A page opened at the end of the list (12 R258), in HBM, or in the pool with its copy in HBM (20 R371). -/
def State.openPage (s : State) (q : KvSeq) (tag : BitVec 3) : State × Opened :=
  let n := q.pageFrames
  let noRoom (s : State) : State × Opened :=
    let (can, s) := s.canTake q.home 1 n 4
    if can || s.acting q.home 1 then (s.wantRoom q.home 1, .later) else (s, .full)
  match s.freeRange q.root (n * 4096) with
  | (none, s) => (s, .full)
  | (some va, s) =>
    match s.takeFrames q.home 1 n with
    | none => noRoom s
    | some (f, s) =>
      let (k, s) := s.draw .kvTier
      let pool : Option (List (Nat × Nat) × State) := if k % 2 = 1 then s.takeFrames q.home 0 n else none
      let (tier, frames, lower, s) : Nat × List (Nat × Nat) × List (Nat × Nat) × State :=
        match pool with
        | some (g, s) => (0, g, f, s)
        | none => (1, f, [], s)
      let (bits, s) := s.draw .leafBits
      match s.mapPages q.home q.root va frames (newLeaf bits q.fmt 0 tier) n with
      | none => noRoom (s.freeFrames (frames ++ lower))
      | some s =>
        let p : KvPage := {
          va := va, ret := false, tag := tag, nocc := 0, closed := false, ctier := 0, firstpos := q.nextpos, tier := BitVec.ofNat 4 tier
          frames := frames, lower := lower, cdata := [], moving := none, refill := false, want := [] }
        (s, .page (s.modKv q.id fun q => { q with pages := q.pages ++ [p] }))
/-- KvappAtHome (12 R258); false where it waits for an L1 copy to leave. -/
def State.kvappAt (s : State) (id : BitVec 24) (tag : BitVec 3) (bs : List Byte) (again : Act) : State × Bool :=
  match s.kv? id with
  | none => (s, true)
  | some q =>
    if !q.inUse then (s, true)
    else
      let last := q.pages.length - 1
      let needs := match q.pages.getLast? with
        | some p => p.closed || p.tag != tag
        | none => true
      let s := if needs then s.modKvPage id last fun p => { p with closed := true } else s
      let opened : State × Opened :=
        if !needs then (s, .page s)
        else if q.pages.length = q.maxpg ∨ q.nextpos = 0xFFFFFFFF then (s, .full)
        else s.openPage q tag
      match opened with
      | (s, .full) => (s.modKv id fun q => { q with ovf := true }, true)
      | (s, .later) => (s.later again, false)
      | (_, .page s) =>
        match s.kv? id with
        | none => (s, true)
        | some q =>
          let i := q.pages.length - 1
          match q.page? i with
          | none => (s, true)
          | some p =>
            match s.writeSlot q i p bs again with
            | (none, s) => (s, false)
            | (some s, _) =>
              ((s.modKvPage id i fun p => { p with nocc := p.nocc + 1, closed := decide (p.nocc + 1 = 16) }).modKv id fun q =>
                { q with nextpos := q.nextpos + 1 }, true)
/-- KVRET at home (12 R259): the frames of a retired page go back in the same dc where nothing in flight uses them. -/
def State.kvretAt (s : State) (id : BitVec 24) (mask : BitVec 8) (limit : BitVec 32) : State :=
  match s.kv? id with
  | none => s
  | some q =>
    let hit := KvPage.retires mask limit
    let out := (q.pages.zipIdx.filter fun p => hit p.1).map (·.2)
    let s := s.modKv id fun q => { q with
      pages := q.pages.map fun (p : KvPage) => if hit p then { p with ret := true, closed := true } else p }
    let s := out.foldl (fun s i => s.wakeItem (.kv id (BitVec.ofNat 16 i)) none) s
    s.next (out.map fun i => .ev (.residencyActionFinish (.kv id (BitVec.ofNat 16 i))))

/-! ### Barriers at home (10 R216, R219) -/

/-- BARI (10 R216). -/
def State.bariAt (s : State) (x : CtxId) (e : BitVec 7) (n : BitVec 11) : Bool × State :=
  let g := s.gangIdOf x
  let ok := e != 0 && (match s.barrier? g n with
    | some b => b.arrivals == 0
    | none => true)
  let spilled := ((s.barrier? g n).map (·.spilled)).getD (decide (2048 ≤ s.barrierEntries (((s.gang? g).map (·.home)).getD 0)))
  if ok then (true, s.modGang g fun q => { q with barriers := ⟨n, e, 0, 0, spilled⟩ :: q.barriers.filter fun b => b.num != n })
  else (false, s)
/-- A hold on a barrier ends with the barrier-state fault: BARW's is taken at its segment's entry, BARAW's at the entry that
it holds before (10 R219, 17 R322). -/
def State.freeHold (s : State) (y : CtxId) (n : BitVec 11) : State :=
  let c := s.ctx y
  match c.flow.hold with
  | some (.barw b _) =>
    if b = n then (s.modFlow y fun f => { f with hold := none, held := 0 }).syncTrap y 0x000E Slot.Y.mask (n.zeroExtend 64) 0 c.flow.pc
    else s
  | some (.baraw b _) =>
    if b = n then (s.modFlow y fun f => { f with hold := none, held := 0 }).trapAtEntry y 0x000E .Y (n.zeroExtend 64) 0 c.flow.last
    else s
  | _ =>
    -- a hold that a trap has set aside ends too; its fault is taken after the return
    match c.flow.savedHold with
    | some (.baraw b _) =>
      if b = n then s.modFlow y fun f => { f with savedHold := none, savedTrap := f.savedTrap <|> some (0x000E, Slot.Y.mask, n.zeroExtend 64, 0, c.sys.tbun) }
      else s
    | _ => s
/-- BFREE (10 R219). -/
def State.bfreeAt (s : State) (x : CtxId) (n : BitVec 11) : State :=
  let g := s.gangIdOf x
  let s := s.modGang g fun q => { q with barriers := q.barriers.filter fun b => b.num != n }
  let s := s.occ.foldl (fun s c => [false, true].foldl (fun s cx =>
    if (s.ctx ⟨c, cx⟩).task.isSome ∧ s.gangIdOf ⟨c, cx⟩ = g then s.freeHold ⟨c, cx⟩ n else s) s) s
  -- a hold that stands in the image of a member without a context ends when the task resumes
  (((s.gang? g).map (·.members)).getD []).foldl (fun s k =>
    let s := { s with jobs := s.jobs.map fun (j : Job) => if j.task = k ∧ j.bare = some n then { j with orphan := true } else j }
    if (s.ctxOfTask k).isNone then s.modTask k fun t => { t with freed := n :: t.freed } else s) s

/-! ### An operation is performed at its home -/

/-- A posted operation has been performed: its count goes (03 R57). -/
def State.opDone (s : State) (x : CtxId) (id : Nat) : State := s.modCtx x fun c => c.done id

/-- PIN raised or lowered (12 R250); none where the tensor-state fault applies. -/
def State.pinAt (s : State) (x : CtxId) (tid : BitVec 24) (up : Bool) : Option State :=
  match s.tensorFor x.die tid with
  | none => none
  | some t =>
    if up then
      (if t.pin = 255 then none
       else some ((s.modTensor tid fun t => { t with pin := t.pin + 1 }).fetchTensor x tid false (s.ctx x).regs.rdmax))
    else if t.pin = 0 then none
    else some (s.modTensor tid fun t => { t with pin := t.pin - 1 })

/-- Whether an earlier operation of the context on the same tensor or sequence is still on its way (12 R247). A query in the segment of
a TUSE, THINT or TFETCH, which leave at its commit, does not wait for them (DESIGN CHOICE, log 143). -/
def State.opBehind (s : State) (x : CtxId) (id : Nat) (o : HomeOp) : Bool :=
  o.ident.isSome && s.acts.any fun a =>
    match a with
    | .op y k _ _ p => y == x && decide (k < id) && p.ident == o.ident
    | _ => false

/-- One operation performed (12 R247-R261, 10 R216, R219, R222), after the context's earlier ones on the same tensor or sequence. A
TFETCH of a KV sequence's ID does nothing (DESIGN CHOICE, log 56). -/
def State.performOp (s : State) (x : CtxId) (id : Nat) (slot : Slot) (bundle : BAddr) (o : HomeOp) : State :=
  let again : Act := .op x id slot bundle o
  if s.opBehind x id o then s.at_ (s.dc + 1) again
  else
  let d := s.opDie x o
  let ans (s : State) (r : Reply) : State := s.reply d x id r
  match o with
  | .tnew gd l f rmax root => s.tnewAt again x id gd l f rmax root
  | .kvnew gd l f root => s.kvnewAt again x id gd l f root
  | .tfree tid =>
    match s.tfreeAt x.die tid with
    | some s => s.reply d x id .done
    | none => ans s (stateFault slot bundle tid)
  | .tpin tid =>
    match s.pinAt x tid true with
    | some s => ans s .done
    | none => ans s (stateFault slot bundle tid)
  | .tunpin tid =>
    match s.pinAt x tid false with
    | some s => ans s .done
    | none => ans s (stateFault slot bundle tid)
  | .tlock base n => ans (s.tlockAt x base n) .done
  | .tunlock base => ans (s.tunlockAt x base) .done
  | .bari pd e n =>
    match s.bariAt x e n with
    | (b, s) => s.toBarrier (s.gangIdOf x) n (.ev (.replyArrival x id (.pred pd b)))
  | .bfree bar => s.bfreeAt x bar
  | .tuse tid i =>
    match s.tensorFor x.die tid with
    | none => s.opDone x id
    | some t =>
      match s.tuseAt t i again with
      | (s, true) => s.opDone x id
      | (s, false) => s
  | .thint tid h =>
    (if (s.tensorFor x.die tid).isSome then s.modTensor tid fun t => { t with hint := h } else s).opDone x id
  | .tfetch tid pool rd => ((if (s.tensorFor x.die tid).isSome then s.fetchTensor x tid pool rd else s)).opDone x id
  | .kvappRead tid tag pos n =>
    s.sendOp x (.kvapp tid tag []) (.op x id slot bundle (.kvapp tid tag (s.spPeek x.core pos n)))
  | .kvapp tid tag bs =>
    if !(s.ctx x).counts.ns.contains id then s
    else match s.kvappAt tid tag bs again with
    | (s, true) => s.opDone x id
    | (s, false) => s
  | .kvret tid mask limit => if (s.ctx x).counts.ns.contains id then (s.kvretAt tid mask limit).opDone x id else s
  | .tinfo gd tid sel =>
    ans s (.g gd (match s.tensorFor x.die tid, s.kvFor x.die tid with
      | some t, _ => t.info sel
      | none, some q => q.tinfo sel
      | none, none => 0))
  | .kvpos gd tid pos sel => ans s (.g gd (((s.kvFor x.die tid).map fun q => q.posInfo pos.toNat sel).getD 0))
  | .kvinfo gd tid sel => ans s (.g gd (((s.kvFor x.die tid).map fun q => q.info sel).getD 0))
  | .acq scope va pa =>
    match s.clearLines false again (linesOf pa 64) with
    | some s => s
    | none => s.send (homeDie pa) x.die (moduleOf pa) (.ev (.replyArrival x id (.acq scope va)))

end Sys2Proof.Machine
end

