-- ==== Sys2Proof/Machine/Debug.lean ====
section
/-! DEFINITION. The core-port bank sets of the instructions, and the hazard detector of debug mode: what an instruction
reads and writes, and the four traps it raises (05 R102, R103, R106, 03 R52, 02 R45, 14 R285, 17 R321). -/

namespace Sys2Proof

open Machine

/-- The general registers of a list that can be written: g0 is a constant. -/
def gLocs (l : List GReg) : List HazardLoc := (l.filter (· != 0)).map .g
/-- A source of an atomic: at 16 bytes a pair, that of g0 reads zeros (09 R196). -/
def pairLocs (r : GReg) (sz : BitVec 3) : List HazardLoc := if sz = 4 ∧ r ≠ 0 then gLocs [r, r + 1] else gLocs [r]
def kLocs (l : List KReg) : List HazardLoc := (l.filter (· != 0)).map .k
def pLocs (l : List PReg) : List HazardLoc := (l.filter (· != 0)).map .p
/-- The generator that a control register holds (03 R62). -/
def genLocs (num : BitVec 8) : List HazardLoc :=
  if 0x40 ≤ num.toNat ∧ num.toNat ≤ 0x4F then [.gen (BitVec.ofNat 4 (num.toNat - 0x40))] else []
def VSrc.locs : VSrc → List HazardLoc
  | .reg v => [.v v]
  | .imm _ => []
def SpPos.locs : SpPos → List HazardLoc
  | .direct _ _ => []
  | .indirect a => [.a a]
def Place.locs : Place → List HazardLoc
  | .mem a => [.a a]
  | .sp _ _ => []
def DrainTgt.locs : DrainTgt → List HazardLoc
  | .sp _ _ _ => []
  | .mem a _ => [.a a]

/-- The registers that an operation reads at its issue, its predicate apart (03 R52). -/
def Instr.readLocs : Instr → List HazardLoc
  | .add _ a b | .sub _ a b | .mul _ a b | .mulh _ a b | .mulhn _ a b | .div _ a b | .divn _ a b | .rem _ a b
  | .remn _ a b | .and _ a b | .or _ a b | .xor _ a b | .andn _ a b | .shl _ a b | .shr _ a b | .sha _ a b | .rot _ a b
  | .min _ a b | .max _ a b | .minn _ a b | .maxn _ a b | .cmp _ a b _ | .brc a b _ _ | .abind _ a b | .tuse a b
  | .kvret a b _ | .kvpos _ a b _ => gLocs [a, b]
  | .clz _ a | .ctz _ a | .popc _ a | .addi _ a _ | .andi _ a _ | .ori _ a _ | .xori _ a _ | .shli _ a _ | .shri _ a _
  | .shai _ a _ | .cmpi _ a _ _ | .movhi a _ | .astr _ a _ | .jmp a | .ret a | .loop _ a _ _ | .spawn a _ | .mtc _ a
  | .mts _ a | .tretEnd a | .ctxsv a | .ctxld a | .tlbiAll _ a | .tlbiVa _ a | .tlbiWalk _ a
  | .sseed _ a _ | .jcan a | .tfree a | .thint a _ | .tpin a | .tunpin a | .tfetch a _ | .tinfo _ a _ | .kvapp a _ _ _
  | .kvinfo _ a _ | .bari _ a | .barw _ a => gLocs [a]
  | .sel _ p a b => pLocs [p] ++ gLocs [a, b]
  | .pand _ p q | .por _ p q | .pxor _ p q | .pandn _ p q | .chkp p q => pLocs [p, q]
  | .pnot _ p | .pmov _ p => pLocs [p]
  | .amov _ a | .aget _ a _ => [.a a]
  | .aadd _ a g _ => .a a :: gLocs [g]
  | .chk x y kind =>
    match kind with
    | .g => gLocs [x, y]
    | .v => [.v x, .v y]
    | .a => [.a (x.extractLsb' 0 4), .a (y.extractLsb' 0 4)]
    | .k => kLocs [x.extractLsb' 0 4, y.extractLsb' 0 4]
  | .vadd _ a b m _ | .vsub _ a b m _ | .vmul _ a b m _ | .vmulh _ a b m _ | .vmin _ a b m _ | .vmax _ a b m _
  | .vminn _ a b m _ | .vmaxn _ a b m _ | .vand _ a b m _ | .vor _ a b m _ | .vxor _ a b m _ | .vandn _ a b m _
  | .vshl _ a b m _ | .vshr _ a b m _ | .vsha _ a b m _ | .vcmp _ a b m _ => .v a :: b.locs ++ kLocs [m]
  | .vabs _ a m _ | .vfabs _ a m | .vfneg _ a m | .vexp2 _ a m | .vlog2 _ a m | .vrcp _ a m | .vrsq _ a m
  | .vcvt _ a m _ _ | .vpopc _ a m | .vclz _ a m | .vcomp _ a m | .vexpd _ a m | .vradd _ a m | .vrmax _ a m
  | .vrmin _ a m | .vrfadd _ a m | .vrfmax _ a m | .vmov _ a m | .vlut _ a _ _ _ m => .v a :: kLocs [m]
  | .vsel _ a b m | .vfadd _ a b m | .vfsub _ a b m | .vfmul _ a b m | .vfmin _ a b m | .vfmax _ a b m
  | .vfcmp _ a b m _ | .vcvts _ a b m _ _ | .vperm _ a b m | .vslide _ a b _ m => .v a :: .v b :: kLocs [m]
  | .vfma _ a b c m | .vfms _ a b c m => .v a :: .v b :: .v c :: kLocs [m]
  | .vbfx _ a p _ _ m => .v a :: (match p with
    | .reg v => [.v v]
    | .imm _ => []) ++ kLocs [m]
  | .vbfi d a p _ m => .v d :: .v a :: (match p with
    | .reg v => [.v v]
    | .imm _ => []) ++ kLocs [m]
  | .vfsh _ a b p m => .v a :: .v b :: (match p with
    | .reg v => [.v v]
    | .imm _ => []) ++ kLocs [m]
  | .vbcast _ src m => (match src with
    | .g r => gLocs [r]
    | .lane v _ => [.v v]) ++ kLocs [m]
  | .vmovi _ _ m => kLocs [m]
  | .vext _ a _ _ => [.v a]
  | .vins d a _ => .v d :: gLocs [a]
  | .mfc _ n => genLocs n
  | .kand _ a b | .kor _ a b | .kxor _ a b => kLocs [a, b]
  | .knot _ a | .kpop _ a => kLocs [a]
  | .kmov form =>
    match form with
    | .kk _ k => kLocs [k]
    | .kg _ g => gLocs [g]
    | .gk _ k => kLocs [k]
  | .sgen _ v gen _ => [.v v, .gen gen]
  | .sand _ a b | .sor _ a b | .smin _ a b | .smax _ a b | .sxnor _ a b => [.s a, .s b]
  | .smux _ a b c => [.s a, .s b, .s c]
  | .scnt _ a _ m => .s a :: kLocs [m]
  | .sregen _ a gen => [.s a, .gen gen]
  | .sdly _ a _ | .scls _ a => [.s a]
  | .mldw _ a _ g _ => .a a :: gLocs [g]
  | .mma _ p _ _ _ | .mmat _ p _ _ _ => p.locs
  | .mdrain _ t _ => t.locs
  | .mdraina _ t g _ _ => t.locs ++ gLocs [g]
  | .ld _ a _ _ _ | .marm _ a _ | .stz a _ | .jsub a _ _ | .tnew _ a _ | .tunlock a _ | .kvnew _ a _ | .acq _ a
  | .rel _ a => [.a a]
  | .ldv _ a m _ => .a a :: kLocs [m]
  | .lds form p _ => p.locs ++ (match form with
    | .vec _ m => kLocs [m]
    | .scalar _ _ _ _ => [])
  | .ldsg _ _ _ v m _ => .v v :: kLocs [m]
  | .ldg _ a v m => .a a :: .v v :: kLocs [m]
  | .atadd _ a g z _ | .atand _ a g z _ | .ator _ a g z _ | .atxor _ a g z _ | .atmin _ a g z _ | .atmax _ a g z _
  | .atminn _ a g z _ | .atmaxn _ a g z _ | .atswp _ a g z _ => .a a :: pairLocs g z
  | .atfadd _ a g _ _ => .a a :: gLocs [g]
  | .atcas _ a g h z _ => .a a :: (pairLocs g z ++ pairLocs h z)
  | .st g a _ _ => .a a :: gLocs [g]
  | .stv v a m _ _ => .v v :: .a a :: kLocs [m]
  | .sts v p m _ => .v v :: p.locs ++ kLocs [m]
  | .stss g p _ _ _ => p.locs ++ gLocs [g]
  | .stg v a i m _ => .v v :: .a a :: .v i :: kLocs [m]
  | .cpy pl g | .cpyx pl g _ => pl.dst.locs ++ pl.src.locs ++ gLocs [g]
  | .cpyg d a _ _ g => .a a :: d.locs ++ gLocs [g]
  | .cpyw _ _ a g h _ => .a a :: gLocs [g, h]
  | .tlock a _ g => .a a :: gLocs [g]
  | _ => []

/-- The bank set of a core-port access (05 R102, 07 R152, 09 R186, R194). -/
def Instr.portBanks (c : Ctx) : Instr → List Nat
  | .lds (.vec _ _) p _ | .sts _ p _ _ => ((c.spPos p).map fun q => bankSet q.1 4).getD []
  | .lds (.scalar _ _ _ _) p _ | .stss _ p _ _ _ => ((c.spPos p).map fun q => [q.1]).getD []
  | .ldsg _ b _ _ _ _ | .vlut _ _ b _ _ _ => bankSet b.toNat 4
  | _ => []

namespace Machine

/-- 64 bytes of a row, as the detector numbers them: the linear position over 64. -/
def rowUnit (bank row : Nat) : HazardLoc := .row (linPos bank row 0 / 64)
def rowUnits (bank row n : Nat) : List HazardLoc := (bankSet bank n).map fun b => rowUnit b row
/-- A field of word i of the descriptor in a row, as it stands at issue (08 R174, R175). -/
def State.descField (s : State) (bank row i lo n : Nat) : Nat :=
  ((BitVec.ofNat 64 (natOfBytes (fun k => s.engByte s.iss.x.core bank row (8 * i + k)) 8)).extractLsb' lo n).toNat
/-- The head dimension of the sequence of a MATTN's descriptor. -/
def State.descDim (s : State) (bank row : Nat) : Nat :=
  match s.kv? (BitVec.ofNat 24 (s.descField bank row 1 40 24)) with
  | some q => q.dim
  | none => 0
/-- The rows of a MATTN's operand of n bytes a head, whose place stands in word 4 from bit `lo` on. -/
def State.headRows (s : State) (bank row lo n : Nat) : List HazardLoc :=
  let f := s.descField bank row
  (List.range (f 2 38 7)).flatMap fun r => rowUnits (f 4 lo 6) (f 4 (lo + 6) 11 + r) ((n + 63) / 64)
/-- The rows that a macro is to read: its descriptor; the A panel of an MGEMM; the query, and the state that it goes on from, of a
MATTN. -/
def State.macroRows (s : State) (gemm : Bool) (bank row : Nat) : List HazardLoc :=
  let f := s.descField bank row
  let c := s.cur
  let fmt (n : Nat) : FmtSlot := c.readFmt (BitVec.ofNat 5 n)
  rowUnits bank row 4 ++
    if gemm then
      let a : Word := BitVec.ofNat 64 (f 1 0 64)
      let fb : FmtSlot := ((s.extent? s.iss.x (addrId a)).map fun e => s.slotAt s.iss.x e (addrOff a).toNat).getD {}
      let fa := fmt (f 2 26 5)
      let kpc := kpcOf fa.width fb.width
      let pos := (f 2 40 6 * 64 + f 2 46 11 * 4096) / 64
      (List.range (((f 2 0 24 + kpc - 1) / kpc * kpc * colBytes fa.width + 63) / 64)).map fun k => .row (pos + k)
    else
      s.headRows bank row 0 (bytesOfN (fmt (f 3 32 5)).width (s.descDim bank row)) ++ (if f 2 45 1 = 1 then s.headRows bank row 17 520 else [])
/-- The rows that a macro is to write: W0, and of a MATTN its MISS words, its state and, at the end, its output (08 R173, R176). -/
def State.macroWrites (s : State) (gemm : Bool) (bank row : Nat) : List HazardLoc :=
  let f := s.descField bank row
  .status (linPos bank row 0 / 64) ::
    if gemm then []
    else
      .status (linPos (bank + 1) row 0 / 64) :: s.headRows bank row 17 520 ++
        (if f 2 46 1 = 1 then s.headRows bank row 34 (bytesOfN (s.cur.readFmt (BitVec.ofNat 5 (f 3 37 5))).width (s.descDim bank row)) else [])
/-- The target rows of a carried drain to scratchpad. -/
def State.carriedRows (s : State) (k : WorkKind) : List HazardLoc :=
  match k with
  | .drain _ (some (b, r, fo)) .. => (List.range 64).flatMap fun i => rowUnits b (r + i) (((s.cur.readFmt fo).width * 8 + 63) / 64)
  | _ => []
/-- What engine work is to read and to write in scratchpad, as its descriptor stands at issue. -/
def State.workReads (s : State) (w : Work) : List HazardLoc :=
  match w.kind with
  | .mgemm => s.macroRows true w.bank w.row
  | .mattn => s.macroRows false w.bank w.row
  | .drain _ _ _ _ _ acc .. => if acc then s.carriedRows w.kind else []
def State.workRowsWritten (s : State) (w : Work) : List HazardLoc :=
  match w.kind with
  | .mgemm => s.macroWrites true w.bank w.row
  | .mattn => s.macroWrites false w.bank w.row
  | .drain .. => s.carriedRows w.kind
/-- The rows that an operation reads at its issue (02 R45): through the core port, by the array and by KVAPP. -/
def State.rowsRead (s : State) (i : Instr) : List HazardLoc :=
  let c := s.cur
  let at4 (p : SpPos) : List HazardLoc := ((c.spPos p).map fun q => rowUnits q.1 q.2 4).getD []
  match i with
  | .lds (.vec _ _) p _ => at4 p
  | .lds (.scalar _ _ _ _) p _ => ((c.spPos p).map fun q => rowUnits q.1 q.2 1).getD []
  | .ldsg _ b r v m _ => (activeLanes (c.readK m)).map fun i =>
      rowUnit ((b.toNat + i / 16) % 64) ((r.toNat + (lane (c.readV v) i).toNat) % 2048)
  | .vlut _ v b r sz m => (activeLanes (c.readK m)).map fun i =>
      let e := (lane (c.readV v) i).toNat % 2 ^ sz.toNat
      rowUnit ((b.toNat + e % 64 / 16) % 64) (r.toNat + e / 64)
  | .mma _ p _ _ _ | .mmat _ p _ _ _ => at4 p
  | .mbias _ b r | .mscale _ b r => rowUnits b.toNat r.toNat 4
  | .kvapp g b r _ =>
    let n := ((s.kv? (regId (s.gval g))).map KvSeq.tokenBytes).getD 0
    (List.range ((n + 63) / 64)).map fun k => .row (linPos b.toNat r.toNat 0 / 64 + k)
  | _ => []

/-- The register that a result in flight is for. -/
def Res.dest : Res → List HazardLoc
  | .g r _ | .loadG r _ _ => gLocs [r]
  | .p r _ => pLocs [r]
  | .k r _ => kLocs [r]
  | .v r _ _ | .loadV r _ => [.v r]
  | .a r _ | .stride r _ => [.a r]
  | .s r _ => [.s r]
  | .gen n _ => [.gen n]
  | .creg n _ => genLocs n
  | .sreg _ _ => []

/-- The target rows of a drain to scratchpad; MDRAINA reads them too (08 R170). -/
def Drain.units (d : Drain) : List HazardLoc :=
  match d.tgt with
  | .sp b r => (List.range 64).flatMap fun i => rowUnits b (r + i) ((d.fmt.width * 8 + 63) / 64)
  | .mem .. => []

/-- Stretches of scratchpad, in the units of the detector. -/
def spanUnits (l : List (Bool × Nat × Nat)) : List HazardLoc :=
  l.flatMap fun r => if r.1 || r.2.2 == 0 then [] else (List.range ((r.2.1 + r.2.2 - 1) / 64 + 1 - r.2.1 / 64)).map fun k => .row (r.2.1 / 64 + k)

/-- What an operation of the bundle has read and will write, seen from the states before and after it (14 R285): its
registers and rows, the copies, drains and engine work it started, its stores to scratchpad and status words. -/
def State.noteHazards (s t : State) (sl : Slot) (o : SlotOp) : State :=
  let x := s.iss.x
  let posted := (t.ctx x).flow.inflight.drop (s.ctx x).flow.inflight.length
  let jobs := t.jobs.filter fun j => s.nextId ≤ j.id
  let drains := (t.ctx x).drains.filter fun d => s.nextId ≤ d.id
  let works := (jobs.flatMap fun j => j.follow.toList) ++ (t.ctx x).work.toList.filter fun w => s.nextId ≤ w.id
  let reads := pLocs [o.pnum] ++ o.op.readLocs ++ s.rowsRead o.op ++ (drains.filter (·.acc)).flatMap Drain.units
    ++ (jobs.flatMap fun j => spanUnits j.rd) ++ works.flatMap s.workReads
  let writes := (posted.flatMap fun r => r.res.dest)
    ++ ((t.iss.spWrites.drop s.iss.spWrites.length).map fun c => HazardLoc.row (c.1 / 64)).eraseDups ++ drains.flatMap Drain.units
    ++ (jobs.flatMap fun j => spanUnits j.wr) ++ works.flatMap s.workRowsWritten
    ++ (t.iss.acts.drop s.iss.acts.length).filterMap fun a =>
      match a with
      | .w0 _ _ bank row _ => some (.status (linPos bank row 0 / 64))
      | _ => none
  t.modIss fun i => { i with
    rd := i.rd ++ reads.map fun l => (sl, l), wr := i.wr ++ writes.map fun l => (sl, l)
    banks := i.banks ++ (o.op.portBanks s.cur).map fun b => (sl, b) }

/-- Whether a location is one that a segment may not write after reading it (02 R45). -/
def HazardLoc.kept : HazardLoc → Bool
  | .v _ | .s _ | .row _ | .status _ => true
  | .g _ | .p _ | .k _ | .a _ | .gen _ => false

/-- A debug trap of a slot, behind the slot's other faults (17 R321). -/
def Iss.debugFault (i : Iss) (sl : Slot) (code : BitVec 16) : Iss :=
  if i.faults.any fun f => f.slot == sl then i else { i with faults := i.faults ++ [⟨sl, code, 0, 0⟩] }

/-- The slots that break a rule of debug mode, and which (14 R285). `before` are the results in flight at the start of the
cc, `now` those at its end. -/
def Iss.hazards (i : Iss) (seg : Seg) (before now : List InFlight) : List (Slot × BitVec 16) :=
  let fly := before.flatMap fun r => r.res.dest
  let new := now.drop before.length
  let rd := seg.rd ++ (i.rd.map (·.2)).filter fun l => !seg.wr.contains l
  let conflict := i.banks.filterMap fun p =>
    if i.banks.any fun q => decide (q.1.idx < p.1.idx) && q.2 == p.2 then some (p.1, 0x0201) else none
  let early := i.rd.filterMap fun p => if fly.contains p.2 then some (p.1, 0x0202) else none
  let collide := new.zipIdx.filterMap fun r =>
    if (before ++ (new.take r.2).filter fun q => q.slot != r.1.slot).any fun q => q.left == r.1.left && q.res.dest.any fun l => r.1.res.dest.contains l then
      some (r.1.slot, 0x0203) else none
  -- a macro that reads its descriptor and writes its own words there breaks nothing; another operation's read does
  let written : List (Slot × BitVec 16) := i.wr.filterMap fun p =>
    match p.2 with
    | .status u =>
      if !seg.wr.contains p.2 && (seg.rd.contains (.row u) || i.rd.any fun q => q.1 != p.1 && q.2 == .row u) then some (p.1, 0x0204) else none
    | l => if l.kept && rd.contains l then some (p.1, 0x0204) else none
  conflict ++ early ++ collide ++ written

/-- The hazard detector at the end of a bundle's issue in debug mode: its traps, and the sets of the segment. -/
def State.detect (s : State) (before : List InFlight) : State :=
  let x := s.iss.x
  let c := s.ctx x
  if !c.sys.dbg then s
  else
    let hz := s.iss.hazards c.seg before c.flow.inflight
    let s := s.modIss fun i => hz.foldl (fun i h => i.debugFault h.1 h.2) i
    s.modCtx x fun c => { c with seg := { c.seg with
      rd := (c.seg.rd ++ ((s.iss.rd.map (·.2)).filter fun l => l.kept && !c.seg.wr.contains l)).eraseDups
      wr := (c.seg.wr ++ (s.iss.wr.map (·.2)).filter (·.kept)).eraseDups } }

end Machine
end Sys2Proof
end

