-- ==== Sys2Proof/Machine/Flits.lean ====
section
/-! DEFINITION. Flits and packets as bytes (21 R377, R378, 00 R3): the header, the CRC, the packing of packets. The bodies of
packets behind their headers have no layout in spec/ (log 134); what a flit carries is an act of the model (`Flit.act`). -/

namespace Sys2Proof.Machine

/-- The types of a flit (21 R377); 6 to 15 are taken as a CRC failure. -/
inductive FlitType where
  | idle | data | ack | nak | linkState | drainMarker
  deriving DecidableEq, Repr

def FlitType.code : FlitType → BitVec 4
  | .idle => 0
  | .data => 1
  | .ack => 2
  | .nak => 3
  | .linkState => 4
  | .drainMarker => 5
def FlitType.ofCode (n : BitVec 4) : Option FlitType :=
  [.idle, .data, .ack, .nak, .linkState, .drainMarker].find? fun t => t.code == n
/-- Whether a flit has a number of its own (21 R377, R379). -/
def FlitType.numbered : FlitType → Bool
  | .data | .linkState | .drainMarker => true
  | .idle | .ack | .nak => false

/-- The header of a flit (21 R377). -/
structure FlitHeader where
  seq : BitVec 12
  ack : BitVec 12
  type : FlitType
  sdie : BitVec 2
  ddie : BitVec 2
  via : Bool
  deriving DecidableEq, Repr

def FlitHeader.toNat (h : FlitHeader) : Nat :=
  h.seq.toNat * 2 ^ 116 + h.ack.toNat * 2 ^ 104 + h.type.code.toNat * 2 ^ 100 + h.sdie.toNat * 2 ^ 98 + h.ddie.toNat * 2 ^ 96
    + (if h.via then 2 ^ 95 else 0)
def FlitHeader.ofNat (n : Nat) : Option FlitHeader :=
  (FlitType.ofCode (BitVec.ofNat 4 (n / 2 ^ 100))).map fun t =>
    ⟨BitVec.ofNat 12 (n / 2 ^ 116), BitVec.ofNat 12 (n / 2 ^ 104), t, BitVec.ofNat 2 (n / 2 ^ 98), BitVec.ofNat 2 (n / 2 ^ 96),
      n / 2 ^ 95 % 2 == 1⟩
/-- The type of the flit that carries an act. -/
def Act.flitType (a : Act) : FlitType :=
  match a with
  | .ev (.linkStateUpdate ..) => .linkState
  | .ev (.drainMarker ..) => .drainMarker
  | _ => .data
/-- The header of a flit of the model on the link from a die to a die: VIA where either end of the path is another die. -/
def Flit.header (f : Flit) (src dst : BitVec 2) : FlitHeader :=
  ⟨f.seq, f.ack, f.act.flitType, f.sdie, f.ddie, f.sdie != src || f.ddie != dst⟩

/-! The CRC (21 R377): ECMA-182, each byte with its highest bit first (DESIGN CHOICE, log 134). -/

def crcBit (r : BitVec 64) (b : Bool) : BitVec 64 := (r <<< 1) ^^^ (if r.msb != b then 0x42F0E1EBA9EA3693#64 else 0)
def crcByte (r : BitVec 64) (b : Byte) : BitVec 64 :=
  [7, 6, 5, 4, 3, 2, 1, 0].foldl (fun r i => crcBit r (b.getLsbD i)) r
def crc64 (l : List Byte) : BitVec 64 := ~~~(l.foldl crcByte (BitVec.allOnes 64))

/-- The 256 bytes of a flit: header, payload padded with zeros, CRC. -/
def flitBytes (h : FlitHeader) (payload : List Byte) : List Byte :=
  let l := natToBytes h.toNat 16 ++ (payload ++ List.replicate (232 - payload.length) 0).take 232
  l ++ natToBytes (crc64 l).toNat 8
/-- A received flit: none for a CRC failure, as which a type above 5 counts. -/
def readFlit (l : List Byte) : Option (FlitHeader × List Byte) :=
  if natToBytes (crc64 (l.take 248)).toNat 8 = (l.drop 248).take 8 then
    (FlitHeader.ofNat (bytesToNat (l.take 16))).map fun h => (h, (l.drop 16).take 232)
  else none

/-! Packets (21 R378). -/

inductive PacketType where
  | read | write | atomic | reply | coherence | syncOp | tensorOp | copyPiece
  deriving DecidableEq, Repr

def PacketType.code : PacketType → BitVec 6
  | .read => 1
  | .write => 2
  | .atomic => 3
  | .reply => 4
  | .coherence => 5
  | .syncOp => 6
  | .tensorOp => 7
  | .copyPiece => 8
/-- A code that no packet is sent with is none: such a packet is discarded and counted. -/
def PacketType.ofCode (n : BitVec 6) : Option PacketType :=
  [.read, .write, .atomic, .reply, .coherence, .syncOp, .tensorOp, .copyPiece].find? fun t => t.code == n

/-- The header of a packet; `addr` holds the target address of a packet whose body begins with one. -/
structure Packet where
  type : PacketType
  tag : BitVec 16
  core : BitVec 8
  addr : Option (BitVec 52)
  data : List Byte
  deriving DecidableEq, Repr

/-- The body: the address word, then the data. -/
def Packet.body (p : Packet) : List Byte := (p.addr.toList.flatMap fun a => natToBytes a.toNat 8) ++ p.data
/-- Its length in units of 8 bytes. -/
def Packet.len8 (p : Packet) : Nat := (p.body.length + 7) / 8
/-- Whether a packet may be sent: an address where its type has one, and a body of at most 28 units. -/
def Packet.lawful (p : Packet) : Bool :=
  decide (p.len8 ≤ 28) &&
  match p.type with
  | .read | .write | .atomic | .coherence | .copyPiece => p.addr.isSome
  | .reply | .tensorOp => p.addr.isNone
  | .syncOp => true
def Packet.bytes (p : Packet) : List Byte :=
  natToBytes (p.type.code.toNat * 2 ^ 58 + p.len8 * 2 ^ 53 + p.tag.toNat * 2 ^ 37 + p.core.toNat * 2 ^ 29
    + (if p.addr.isSome then 2 ^ 28 else 0)) 8 ++ p.body ++ List.replicate (8 * p.len8 - p.body.length) 0
/-- Whole packets packed from byte 16 of a flit upward: those that fit in its payload, and the rest. -/
def packPackets (room : Nat) : List Packet → List Byte × List Packet
  | [] => ([], [])
  | p :: t =>
    let b := p.bytes
    let (more, left) := packPackets (room - b.length) t
    if b.length ≤ room then (b ++ more, left) else ([], p :: t)
/-- The packets of a payload that are known, each with its type, its length in units, and how many are not, which are discarded. The
payload ends at a header of zero. -/
def readPacketsN : Nat → List Byte → List (PacketType × Nat) × Nat
  | 0, _ => ([], 0)
  | n + 1, l =>
    let h := bytesToNat (l.take 8)
    let len := h / 2 ^ 53 % 32
    if h = 0 then ([], 0)
    else
      let (ps, k) := readPacketsN n (l.drop (8 + 8 * len))
      match PacketType.ofCode (BitVec.ofNat 6 (h / 2 ^ 58)) with
      | some t => ((t, len) :: ps, k)
      | none => (ps, k + 1)
def readPackets (payload : List Byte) : List (PacketType × Nat) × Nat := readPacketsN 29 payload
/-- The pieces of a block of a copy: 216 bytes of data to a packet at most. -/
def blockPieces (tag : BitVec 16) (core : BitVec 8) (pa : Nat) (bs : List Byte) : List Packet :=
  (List.range ((bs.length + 215) / 216)).map fun i =>
    ⟨.copyPiece, tag, core, some (BitVec.ofNat 52 (pa + 216 * i)), (bs.drop (216 * i)).take 216⟩

end Sys2Proof.Machine
end

