-- ==== Sys2Proof/Machine/Engine.lean ====
section
/-! DEFINITION. Engine work: weight fills that land, drains row by row, Piccolo's macros, their stop and restart
(08 R157, R166, R172-R181, R414, 12 R260). -/

namespace Sys2Proof.Machine

/-! ### Fills land (08 R166, R414) -/

/-- The bytes of a fill from an offset on, in order: its blocks are contiguous runs. -/
def fillBytes (buf : List (Nat × Byte)) (base nblocks : Nat) : List Byte :=
  (List.range nblocks).flatMap fun b =>
    (buf.filter fun p => decide (base + 512 * b ≤ p.1 ∧ p.1 < base + 512 * b + 512)).map (·.2)
/-- A slot once its bytes are there: STATE 2, or 3 where the decompressor or the fetch found an error. -/
def WSlot.landed (w : WSlot) (j : Job) : WSlot :=
  let w := { w with
    data := fillBytes j.buf 0 (w.len.toNat / 512 + 1), scale := fillBytes j.buf (2 ^ 20) 2048, poison := j.poison }
  { w with state := if !j.err && w.panelOk then 2 else 3 }
/-- MLDW_FILL_LAND: the last block of a fill (08 R166); a fill that a later one replaced only ends. -/
def State.mldwFillLand (s : State) (x : CtxId) (ws : CReg) (fill : Nat) : State :=
  match s.job? fill with
  | none => s
  | some j =>
    let s := { s with jobs := s.jobs.filter fun q => q.id != fill }
    s.modCtx x fun c =>
      let w := c.wslot ws
      let c := c.done fill
      let c := if w.fill = fill ∧ w.state = 1 then c.setW ws (w.landed j) else c
      { c with work := c.work.map fun (v : Work) => if v.phase = .fetching then { v with phase := .running } else v }

/-! ### Drains, row by row (08 R172) -/

/-- A drain of engine work has ended: the macro or the carried drain ends with it, in error where a row read bad data
(14 R282). -/
def State.followDrain (s : State) (x : CtxId) (d : Drain) : State :=
  match (s.ctx x).work with
  | none => s
  | some w =>
    if d.follow ≠ some w.id then s
    else
      match w.kind with
      | .drain .. => (if d.poisoned then s.copyError ((s.ctx x).task.getD 0) w.nextChunk else s).endWork x w.id
      | _ => s.endMacro x { w with step := w.step + 1 } (w.cancel || d.poisoned) (if w.cancel then 6 else if d.poisoned then 3 else 0)
/-- One more row performed; the last one ends the drain. -/
def State.rowDone (s : State) (x : CtxId) (id row : Nat) : State :=
  let s := s.modCtx x fun c => { c with
    drains := updWhere (fun (d : Drain) => d.id == id && !d.done.contains row) (fun d => { d with done := d.done ++ [row] }) c.drains }
  match (s.ctx x).drains.find? fun d => d.id == id with
  | none => s
  | some d =>
    if d.done.length < 64 then s
    else (s.modCtx x fun c => { c.done id with drains := c.drains.filter fun z => z.id != id }).followDrain x d

/-- The banks that n bytes from a bank touch, as a mask. -/
def bankMask (bank n : Nat) : BitVec 64 := (bankSet bank ((n + 63) / 64)).foldl (fun m b => m ||| BitVec.ofNat 64 (2 ^ b)) 0
/-- Whether the array, or a drain row before this one, has taken one of the banks in this dc. -/
def State.banksTaken (s : State) (core : BitVec 8) (m : BitVec 64) : Bool :=
  let k := s.core core
  ((k.stepDc == some s.dc || k.engDc == some s.dc) && k.arrayBanks &&& m != 0) || (k.drainDc == some s.dc && k.drainBanks &&& m != 0)

/-- SCRATCHPAD_DRAIN_ROW (08 R172): of two drains that want a bank in one dc, the one that issued first goes first. -/
def State.scratchpadDrainRow (s : State) (x : CtxId) (id row : Nat) : State :=
  let me : Act := .ev (.scratchpadDrainRow x id row)
  match (s.ctx x).drains.find? fun d => d.id == id with
  | none => s
  | some d =>
    match d.tgt with
    | .mem _ _ _ => s
    | .sp bank row0 =>
      let n := colBytes d.fmt.width
      let m := bankMask bank n
      if (s.drainsDue x.core).any fun q => decide (q.1 < id) && q.2.any fun b => m.getLsbD b then s.at_ s.dc me
      else if s.banksTaken x.core m then s.at_ (s.dc + 1) me
      else
        let old := (List.range n).map fun q => s.engByte x.core bank (row0 + row) q
        let cells := (d.rowBytes row old fun _ => 0).zipIdx.map fun p => (opPos bank (row0 + row) p.2, p.1)
        let s := s.modCore x.core fun k => { k with
          sp := cellsWriteAll k.sp cells, drainDc := some s.dc
          drainBanks := if k.drainDc = some s.dc then k.drainBanks ||| m else m }
        let s := s.rowDone x id row
        if row < 63 then s.at_ (s.dc + 1) (.ev (.scratchpadDrainRow x id (row + 1))) else s

/-- Byte ranges read at home, in order, and the lowest poisoned block among them. -/
def State.homeReads (s : State) (rs : List (Nat × Nat)) : List Byte × Option Nat × State :=
  rs.foldl (fun (acc : List Byte × Option Nat × State) r =>
    let (bs, p, _, s) := acc.2.2.homeRead r.1 r.2
    (acc.1 ++ bs, minBlock acc.2.1 p, s)) ([], none, s)
/-- MEMORY_DRAIN_ROW (08 R172, 04 R79): what the context wrote before to the row, or to its scale bytes, goes first; both are read
at home. -/
def State.memoryDrainRow (s : State) (x : CtxId) (id row : Nat) : State :=
  let me : Act := .ev (.memoryDrainRow x id row)
  match (s.ctx x).drains.find? fun d => d.id == id with
  | none => s
  | some d =>
    match d.tgt with
    | .sp _ _ => s
    | .mem rows _ _ =>
      if d.done.contains row then s.rowDone x id row
      else
        let rs := rows.getD row []
        let sh := d.shifts.getD row []
        let plane := sh.eraseDups.map fun a => (a, 1)
        let pas := rs.flatMap fun r => (List.range r.2).map (r.1 + ·)
        let home := homeDie (pas.headD 0)
        let refuse (s : State) : State := (s.modCtx x fun c => { c with facc := c.facc.add home true }).rowDone x id row
        if s.olderOwn x d.ord (rs ++ plane) then s.at_ (s.dc + 1) me
        else if pas.any fun a => (s.memFor x.die a).isNone then refuse s
        else
          match s.clearLines true me (pas.map (· / 128)).eraseDups <|> s.clearLines false me (sh.map (· / 128)).eraseDups with
          | some s => s
          | none =>
            let (old, po, s) := s.homeReads (if d.acc then rs else [])
            let (ks, pk, s) := s.homeReads plane
            match minBlock po pk with
            | some p =>
              let s := s.logPoison x p true
              if d.follow.isSome then
                (s.modCtx x fun c => { c with
                  drains := updWhere (fun (z : Drain) => z.id == id) (fun z => { z with poisoned := true }) c.drains }).rowDone x id row
              else refuse s
            | none =>
              let shift (j : Nat) : Int :=
                if sh.isEmpty then 0 else byteInt ((((plane.zip ks).find? fun q => q.1.1 == sh.getD j 0).map (·.2)).getD 0)
              let (dead, s) := s.homeWrite (pas.zip (d.rowBytes row old shift))
              let s := s.dropOwn x.core (pas.map (· / 128)).eraseDups
              if dead then refuse s else s.rowDone x id row

/-! ### Descriptors -/

/-- The 32 words of a descriptor row. -/
def State.readDesc (s : State) (core : BitVec 8) (bank row : Nat) : List Word :=
  (List.range 32).map fun i => BitVec.ofNat 64 (natOfBytes (fun k => s.engByte core bank row (8 * i + k)) 8)
/-- What engine work does in place of its context: its own format slots (03 R61), and the level that owns the array. -/
def State.asWork {α : Type} (s : State) (x : CtxId) (w : Work) (f : State → State × α) : State × α :=
  let c := s.ctx x
  let r := f (s.modCtx x fun c => { c with
    regs := { c.regs with fmt := w.fmts }, sys := { c.sys with pl := c.sys.pl && c.sys.mowned } })
  (r.1.modCtx x fun d => { d with regs := { d.regs with fmt := c.regs.fmt }, sys := { d.sys with pl := c.sys.pl } }, r.2)

def State.modWork (s : State) (x : CtxId) (f : Work → Work) : State := s.modCtx x fun c => { c with work := c.work.map f }

/-- The array is taken in this dc, with the banks it reads or writes. -/
def State.engineUses (s : State) (core : BitVec 8) (m : BitVec 64) : State :=
  s.modCore core fun k => { k with engDc := some s.dc, arrayBanks := if k.engDc = some s.dc then k.arrayBanks ||| m else m }

/-! ### Residency requests of the engine (08 R174) -/

/-- The items that engine work waits for are asked for; a code where a recipe is too deep (4) or an item is lost (3). -/
def State.engRequest (s : State) (x : CtxId) (items : List Item) : Option Nat × State :=
  match (s.ctx x).task with
  | none => (some 3, s)
  | some k =>
    items.eraseDups.foldl (fun (acc : Option Nat × State) it =>
      match acc with
      | (some c, s) => (some c, s)
      | (none, s) =>
        match it with
        | .tensor id => s.needTensor k (s.ctx x).regs.rdmax id
        | it => (none, s.wantItem it)) (none, s)
/-- Whether an item is no longer on its way. -/
def State.itemSettled (s : State) (it : Item) : Bool :=
  match it with
  | .tensor id =>
    match s.tensor? id with
    | some t => !(t.st == 3 || t.st == 4 || t.st == 5 || t.st == 8) && t.moving.isNone
    | none => true
  | .kv id i =>
    match (s.kv? id).bind fun q => q.page? i.toNat with
    | some p => p.ret || decide (p.tier.toNat ≤ 1)
    | none => true
  | .flat pa _ =>
    let e : Word := BitVec.ofNat 64 (s.peekNat pa 8)
    !(e.getLsbD 0 && decide (2 ≤ leafTier e ∧ leafTier e ≤ 4 ∨ leafTier e = 7))
/-- Engine work waits for items, or ends with a code. -/
def State.engWait (s : State) (x : CtxId) (w : Work) (items : List Item) : State × Option Nat :=
  match s.engRequest x items with
  | (some c, s) => (s, some c)
  | (none, s) => (s.modWork x fun v => if v.id = w.id then { v with phase := .waiting items } else v, none)

/-! ### MGEMM (08 R174) -/

structure Gemm where
  k : Nat
  mode : Nat
  fa : FmtSlot
  fb : FmtSlot
  kpc : Nat
  steps : Nat
  /-- Rows of a chunk, and the bytes from one chunk to the next. -/
  rows : Nat
  pitch : Nat
  deriving DecidableEq, Repr

/-- The shape of an MGEMM, its B format being that of BSRC's page. Chunks take the most rows that fit 64 KiB, in pair mode an even
number of groups (DESIGN CHOICE, log 129: 08 R174 only bounds a chunk). -/
def State.gemm (s : State) (x : CtxId) (w : Work) (d : List Word) : Gemm :=
  let fb := s.workSlot x w (dw d 1)
  let k := df d 2 0 24
  let mode := df d 2 24 2
  let fa := w.fmt (df d 2 26 5)
  let kpc := kpcOf fa.width fb.width
  let cb := colBytes fb.width
  let rows := if mode = 0 then 65536 / cb else if mode = 1 then 65536 / (2 * cb + 32) / 2 * 8 else k
  ⟨k, mode, fa, fb, kpc, (k + kpc - 1) / kpc, rows, if mode = 0 then rows * cb else rows / 4 * (2 * cb + 32)⟩

/-- The conditions that the first array dc checks with CODE 1. -/
def gemmBad (d : List Word) (g : Gemm) : Bool :=
  let abank := df d 2 40 6
  let arow := df d 2 46 11
  decide (df d 2 31 1 ≠ 0 ∨ df d 2 38 2 ≠ 0 ∨ df d 2 57 7 ≠ 0 ∨ df d 3 32 32 ≠ 0 ∨ df d 5 40 24 ≠ 0)
    || (d.drop 7).any (· != 0) || g.k == 0 || g.mode == 3 || g.fa.geom != 0 || decide (abank % 4 ≠ 0)
    || decide (2 ^ 23 < abank * 64 + arow * 4096 + g.steps * g.kpc * colBytes g.fa.width)
    || (g.mode == 2 && decide (65536 < df d 3 0 32))
/-- The target rows of the final drain. -/
def State.gemmRows (s : State) (x : CtxId) (w : Work) (d : List Word) (compute : Bool) : State × RowsAt :=
  s.asWork x w fun s => s.drainRows x (dw d 4) 0 ((dw d 5).extractLsb' 0 40).toInt w.rdFmt compute
/-- A row address of the final drain that is no multiple of the target's colbytes, or a page of a row whose slot has another
geometry than its leaf (08 R174); a row outside the tensor, or with no translation, is met when the drain begins. -/
def State.gemmRowsBad (s : State) (x : CtxId) (w : Work) (d : List Word) : Bool :=
  match s.extent? x (addrId (dw d 4)) with
  | none => false
  | some e =>
    let n := colBytes (s.workSlot x w (dw d 4)).width
    let pitch := ((dw d 5).extractLsb' 0 40).toInt
    (List.range 64).any fun (i : Nat) =>
      let o : Int := (addrOff (dw d 4)).toNat + i * pitch
      let geomBad (q : Int) : Bool := decide (0 ≤ q ∧ q < e.size) &&
        (match (s.translate x (e.base + q.toNat) false).2 with
        | .ok t => !t.linkWait && (w.rdFmt (leafSlot t.leaf)).geom != leafGeom t.leaf
        | .error _ => false)
      decide (((e.base : Int) + o) % n ≠ 0) || geomBad o || geomBad (o + n - 1)

/-- What the fetch of a chunk met. -/
inductive Fetch where
  | fail (code : Nat)
  | wait (items : List Item)
  | retry
  | begun
  deriving DecidableEq, Repr

/-- The fetch of chunk c into w2 or w3 (08 R174): the checks of an MLDW fill, with their codes. -/
def State.fetchChunk (s : State) (x : CtxId) (w : Work) (d : List Word) (g : Gemm) (c : Nat) : State × Fetch :=
  let a := dw d 1
  let ws : CReg := BitVec.ofNat 2 (2 + c % 2)
  let k := min g.rows (g.k - c * g.rows)
  let n := panelBytes g.mode g.fb.width k (df d 3 0 32)
  let off := (addrOff a).toNat + c * g.pitch
  match s.extent? x (addrId a) with
  | none => (s, .fail 5)
  | some e =>
    let elt0 := eltPos g.fb.width off
    let al := if g.fb.geom = 4 then 512 else 64
    if k = 0 ∨ 65536 < k ∨ (g.mode = 1 ∧ g.k % 4 ≠ 0) ∨ n = 0 ∨ 65536 < n then (s, .fail 2)
    else if e.size < off + n then (s, .fail 5)
    else if g.fb.geom ≠ 0 ∧ (g.mode ≠ 0 ∨ elt0 % al ≠ 0) then (s, .fail 2)
    else
      let va := e.base + off
      let plane := planeRange e g.fb.geom.toNat elt0 (64 * k)
      match s.asWork x w fun s => s.checkScaled x (addrId a) 0 none g.fb.geom [(va, n)] [plane] wantLoad with
      | (s, .fault 0x0005 _ _) => (s, .fail 2)
      | (s, .fault 0x0107 _ _) => (s, .fail 3)
      | (s, .fault _ _ _) => (s, .fail 7)
      | (s, .miss items) => (s, .wait items)
      | (s, .block _) => (s, .retry)
      | (s, .ok ps) =>
        let (id, s) := s.newId
        let j := fillJob id x ((s.ctx x).task.getD 0) ws (addrId a) va n (segsOf ps va n)
          (planeSegs ps e g.fb.geom.toNat elt0 (64 * k)) g.fb elt0 (64 * k)
        let slot : WSlot := {
          src := mkAddr (addrId a) (BitVec.ofNat 40 off), state := 1, mode := BitVec.ofNat 2 g.mode, code := g.fb.code, bias := g.fb.bias
          geom := g.fb.geom, rows := BitVec.ofNat 17 k, len := BitVec.ofNat 17 n, elt0 := elt0, born := w.born }
        (s.startFill x ws { j with born := w.born } slot, .begun)

/-- A tile written by engine work; one that began before the segment is outside an abort's restore (08 R181). -/
def State.engTile (s : State) (x : CtxId) (w : Work) (ct : CReg) (t : Tile) : State :=
  s.modCtx x fun c => { c with
    regs := c.regs.setTile ct t
    seg := if w.born then c.seg else { c.seg with snap := c.seg.snap.setTile ct t } }

/-- A drain of engine work begins: its rows leave as soon as they are formed (08 R174, R179). -/
def State.engDrain (s : State) (x : CtxId) (w : Work) (ct : CReg) (tgt : RowTgt) (f : FmtSlot) (sh : List (List Nat)) (acc : Bool)
    (clamp : Option Word) (zc : Bool) : State :=
  let (id, s) := s.newId
  let d : Drain := { id := id, tile := (s.ctx x).readTile ct, tgt := tgt, fmt := f, shifts := sh, acc := acc, clamp := clamp, next := 0
                     done := [], held := false, born := w.born, follow := some w.id }
  let s := (s.startDrain x d).sendRows x d
  let s := match tgt, w.born with
    | .mem _ _ t, true => s.modCtx x fun c => { c with seg := { c.seg with outs := c.seg.outs ++ [t] } }
    | _, _ => s
  let s := if zc then s.engTile x w ct 0 else s
  s.modWork x fun v => { v with phase := .draining }

/-- The code of a fault met by a final drain. -/
def drainCode (code : BitVec 16) : Nat := if code = 0x0003 then 5 else if code = 0x0107 then 3 else if code = 0x0004 ∨ code = 0x0005 then 1 else 7

/-- The end of an MGEMM's steps: its drain, if it has one. -/
def State.gemmEnd (s : State) (x : CtxId) (w : Work) (d : List Word) : State :=
  if df d 2 32 1 = 0 then s.endMacro x w false 0
  else
    match s.gemmRows x w d true with
    | (s, .fault code _ _) => s.endMacro x w true (drainCode code)
    | (s, .block _) => s
    | (s, .miss items) =>
      match s.engWait x w items with
      | (s, some c) => s.endMacro x w true c
      | (s, none) => s
    | (s, .ok f rows sh coh) =>
      s.engDrain x w (BitVec.ofNat 2 (df d 2 36 2)) (.mem rows coh (addrId (dw d 4))) f sh (df d 2 33 1 == 1)
        (if df d 2 34 1 = 1 then some (dw d 6) else none) (df d 2 35 1 == 1)

/-- One step of an MGEMM on a chunk that has landed. -/
def State.gemmStep (s : State) (x : CtxId) (w : Work) (d : List Word) (g : Gemm) (ws : CReg) : State :=
  let slot := (s.ctx x).wslot ws
  let ct : CReg := BitVec.ofNat 2 (df d 2 36 2)
  let pos := df d 2 40 6 * 64 + df d 2 46 11 * 4096 + w.step * g.kpc * colBytes g.fa.width
  let sp := (s.core x.core).sp
  let bytes (q : Nat) : Byte := cellsRead sp (pos + q)
  let f := g.fa.num
  let a (i col : Nat) : XVal := matIn f (eltOfFn f.width bytes (col * 64 + i)) 0
  let s := s.engineUses x.core (bankMask (posBank pos) (g.kpc * colBytes g.fa.width))
  (s.engTile x w ct (mmaTile ((s.ctx x).readTile ct) slot (w.step * g.kpc % g.rows) g.kpc a)).modWork x fun v =>
    { v with step := v.step + 1 }

/-- The chunk after the one in use is fetched ahead where its checks pass; else it is met at its own boundary. -/
def State.prefetch (s : State) (x : CtxId) (d : List Word) (g : Gemm) (c : Nat) : State :=
  match (s.ctx x).work with
  | none => s
  | some w =>
    if w.nextChunk ≠ c ∨ g.k ≤ c * g.rows then s
    else
      match s.fetchChunk x w d g c with
      | (s, .begun) => s.modWork x fun v => { v with nextChunk := c + 1 }
      | (s, _) => s

/-- One array dc of an MGEMM. -/
def State.gemmDc (s : State) (x : CtxId) (w : Work) : State :=
  if w.desc.isEmpty then
    let d := s.readDesc x.core w.bank w.row
    let s := s.engineUses x.core (bankMask w.bank 256)
    let g := s.gemm x w d
    if gemmBad d g || (df d 2 32 1 == 1 && s.gemmRowsBad x w d) then s.endMacro x w true 1
    else
      let arow := df d 2 46 11
      let last := (df d 2 40 6 * 64 + g.steps * g.kpc * colBytes g.fa.width - 1) / 4096
      if (s.firstBarred x arow (last + 1)).isSome then s.endMacro x w true 7
      else
        -- without DRN it writes no memory, and no release waits for it (10 R222)
        let s := if df d 2 32 1 = 1 then s else
          s.modCtx x fun c => { c with counts := { c.counts with memDrains := c.counts.memDrains.filter (· != w.id) } }
        s.modWork x fun v => { v with desc := d, phase := .running, nextChunk := w.step * g.kpc / g.rows }
  else
    let d := w.desc
    let g := s.gemm x w d
    if g.steps ≤ w.step then s.gemmEnd x w d
    else
      let c := w.step * g.kpc / g.rows
      let ws : CReg := BitVec.ofNat 2 (2 + c % 2)
      if w.nextChunk ≤ c then
        match s.fetchChunk x w d g c with
        | (s, .fail code) => s.endMacro x w true code
        | (s, .retry) => s
        | (s, .wait items) =>
          (match s.engWait x w items with
          | (s, some code) => s.endMacro x w true code
          | (s, none) => s)
        | (s, .begun) => s.modWork x fun v => { v with nextChunk := c + 1, phase := .fetching }
      else
        let slot := (s.ctx x).wslot ws
        match slot.poison with
        | some p => (s.logPoison x (p / 512) true).endMacro x w true 3
        | none =>
          if slot.state = 1 then s.modWork x fun v => { v with phase := .fetching }
          else if slot.state ≠ 2 then s.endMacro x w true 2
          else
            let s := (s.gemmStep x w d g ws).prefetch x d g (c + 1)
            match (s.ctx x).work with
            | some v => if g.steps ≤ v.step ∧ df d 2 32 1 = 0 then s.endMacro x v false 0 else s
            | none => s

/-! ### MATTN (08 R175, R176, 12 R260) -/

structure Attn where
  seq : KvSeq
  count : Nat
  h0 : Nat
  nh : Nat
  cont : Bool
  fin : Bool
  scale : BitVec 32
  qf : FmtSlot
  oF : FmtSlot
  qpos : Nat × Nat
  spos : Nat × Nat
  opos : Nat × Nat
  deriving DecidableEq, Repr

def attnPos (v : Nat) : Nat × Nat := (v % 64, v / 64)
/-- Bytes of a query or an output row. -/
def rowBytes (dim : Nat) (f : FmtSlot) : Nat := bytesOfN f.width dim
/-- The page indices of a macro in processing order. -/
def attnIndices (d : List Word) : List Nat :=
  let first := df d 2 0 16
  (List.range (df d 2 16 16)).map fun i =>
    let n := first + i
    if df d 2 47 1 = 1 then df d (13 + n / 4) (16 * (n % 4)) 16 else n

/-- The descriptor as its first array dc reads it, or the code that ends the macro (08 R175); the sequence is the one that that dc
met (12 R260). With LIST = 1, an index from 76 on has no entry and ends the macro with CODE 1 whatever ARRV says (DESIGN CHOICE,
log 129). -/
def State.attn (s : State) (x : CtxId) (w : Work) (d : List Word) : Except Nat Attn :=
  let count := df d 2 16 16
  let nh := df d 2 38 7
  let qf := w.fmt (df d 3 32 5)
  let oF := w.fmt (df d 3 37 5)
  let id : BitVec 24 := addrId (dw d 1)
  let arrv := df d 12 0 16
  if count = 0 ∨ 256 < count ∨ nh = 0 ∨ 64 < nh ∨ qf.geom ≠ 0 ∨ oF.geom ≠ 0
      ∨ (df d 2 47 1 = 1 ∧ min arrv 76 < df d 2 0 16 + count) then .error 1
  else
    match w.seq <|> s.kvFor x.die id with
    | none => .error 5
    | some q =>
      let a : Attn := ⟨q, count, df d 2 32 6, nh, df d 2 45 1 == 1, df d 2 46 1 == 1, (dw d 3).extractLsb' 0 32, qf, oF
                      , attnPos (df d 4 0 17), attnPos (df d 4 17 17), attnPos (df d 4 34 17)⟩
      let regions := [(a.qpos, rowBytes q.dim qf), (a.spos, 520), (a.opos, rowBytes q.dim oF)]
      if q.heads < a.h0 + nh ∨ (regions.any fun r => decide (4096 < r.1.1 * 64 + r.2 ∨ 2048 < r.1.2 + nh)) = true then .error 1
      else if regions.any fun r => (s.firstBarred x r.1.2 nh).isSome then .error 7
      else .ok a

/-- The pages of a macro as its first array dc reads them, and which of them lie below HBM. -/
def attnPages (q : KvSeq) (idx : List Nat) : List (Nat × Bool × Nat × Nat) × List Nat :=
  let far (i : Nat) : Bool :=
    match q.page? i with
    | some p => p.live && decide (2 ≤ p.tier.toNat)
    | none => false
  (idx.map fun i =>
    match q.page? i with
    | some p => (i, p.live && !far i, p.pa 0, p.nocc)
    | none => (i, false, 0, 0),
   (List.range idx.length).filter fun n => far (idx.getD n 0))

/-- The state row of a head: O, m and l. -/
structure AttnState where
  o : List (BitVec 32)
  m : BitVec 32
  l : BitVec 32
  deriving DecidableEq, Repr
def State.engWord (s : State) (core : BitVec 8) (p : Nat × Nat) (r q : Nat) : BitVec 32 :=
  BitVec.ofNat 32 (natOfBytes (fun k => s.engByte core p.1 (p.2 + r) (q + k)) 4)
def State.attnState (s : State) (core : BitVec 8) (a : Attn) (r : Nat) : AttnState :=
  ⟨(List.range a.seq.dim).map fun i => s.engWord core a.spos r (4 * i), s.engWord core a.spos r 512, s.engWord core a.spos r 516⟩
/-- Bytes of a row written through the engine port. -/
def State.engPut (s : State) (core : BitVec 8) (p : Nat × Nat) (r q : Nat) (bs : List Byte) : State :=
  s.modCore core fun k => { k with sp := cellsWriteAll k.sp (bs.zipIdx.map fun b => (opPos p.1 (p.2 + r) (q + b.2), b.1)) }
def State.putAttn (s : State) (core : BitVec 8) (a : Attn) (r : Nat) (t : AttnState) : State :=
  (s.engPut core a.spos r 0 (t.o.flatMap fun w => natToBytes w.toNat 4)).engPut core a.spos r 512
    (natToBytes t.m.toNat 4 ++ natToBytes t.l.toNat 4)

/-- Dot of 04 R78 from +0: groups of kpc products, each rounded once. -/
def attnDot (kpc : Nat) (q k : Nat → XVal) (dim : Nat) : BitVec 32 :=
  (List.range ((dim + kpc - 1) / kpc)).foldl (fun acc g =>
    macSum acc (((List.range kpc).filter fun i => decide (g * kpc + i < dim)).map fun i => (q (g * kpc + i)).mul (k (g * kpc + i)))) 0
/-- AttnStep (08 R176) over the scores and values of the tokens read. -/
def AttnState.step (t : AttnState) (scores : List (BitVec 32)) (value : Nat → Nat → XVal) : AttnState :=
  if scores.isEmpty then t
  else
    let mn := scores.foldl f32Max t.m
    let c := if mn = negInf32 then 0x3F800000#32 else f32Exp2 (f32Sub t.m mn)
    let l := f32Mul t.l c
    let o := t.o.map fun v => f32Mul v c
    let (l, o) := scores.zipIdx.foldl (fun (acc : BitVec 32 × List (BitVec 32)) p =>
      let e := if mn = negInf32 then 0 else f32Exp2 (f32Sub p.1 mn)
      (f32Add acc.1 e, acc.2.zipIdx.map fun v => toF32 (((f32 e).mul (value p.2 v.2)).add (f32 v.1)))) (l, o)
    ⟨o, mn, l⟩
/-- FinStep (08 R176). -/
def AttnState.finBytes (t : AttnState) (f : FmtSlot) : List Byte :=
  bytesOfElts f.width (t.o.map fun v => roundTo (if (f32 t.l).isZero then .zero else xdiv (f32 v) (f32 t.l)) f.num .ne)

/-- The bytes of one head's tokens of a page: keys, then values. -/
def attnAddrs (q : KvSeq) (h base nocc : Nat) : List Nat :=
  [false, true].flatMap fun v => (List.range (nocc * q.headBytes)).map fun i => base + q.eltAt v h 0 + i

/-- One visit of a page for a head. -/
def State.attnVisit (s : State) (x : CtxId) (w : Work) (a : Attn) (r base nocc : Nat) : State :=
  let q := a.seq
  let advance (s : State) : State := s.modWork x fun v => { v with step := v.step + 1 }
  if nocc = 0 then advance s
  else
    match s.engRead x (.bitErrors 0 []) (attnAddrs q (a.h0 + r) base nocc) with
    | (s, .wait) => s
    | (s, .refused) => s.endMacro x w true 3
    | (s, .got _ (some p) _) => (s.logPoison x p true).endMacro x w true 3
    | (s, .got bs none _) =>
      let f := q.num
      let data := bytesFn bs
      let bits (value : Bool) (t i : Nat) : Nat :=
        eltOfFn f.width (fun k => data ((if value then nocc * q.headBytes else 0) + t * q.headBytes + k)) i
      let qn := a.qf.num
      let query (i : Nat) : XVal := matIn qn (eltOfFn qn.width (fun k => s.engByte x.core a.qpos.1 (a.qpos.2 + r) k) i) 0
      let kpc := kpcOf a.qf.width f.width
      let scores := (List.range nocc).map fun t => toF32 ((f32 (attnDot kpc query (fun i => matIn f (bits false t i) 0) q.dim)).mul (f32 a.scale))
      let st := (s.attnState x.core a r).step scores fun t i => f.decode (bits true t i)
      advance (s.putAttn x.core a r st)

/-- A page below HBM met: its MISS bit, and one page-in request to its home (08 R176). -/
def State.attnMiss (s : State) (x : CtxId) (w : Work) (a : Attn) (n i : Nat) : State :=
  let old := s.engByte x.core w.bank w.row (64 + n / 8)
  let s := s.engPut x.core (w.bank, w.row) 0 (64 + n / 8) [old ||| BitVec.ofNat 8 (2 ^ (n % 8))]
  let s := s.modWork x fun v => { v with nmiss := v.nmiss + 1, tmiss := true }
  (s.modKvPage a.seq.id i fun p => { p with want := p.want ++ [(x.core, w.bank, w.row)] }).wantItem (.kv a.seq.id (BitVec.ofNat 16 i))

/-- Bit n of MISS. -/
def State.missBit (s : State) (x : CtxId) (w : Work) (n : Nat) : Bool :=
  (s.engByte x.core w.bank w.row (64 + n / 8)).getLsbD (n % 8)

/-- The first array dc: the descriptor, the pages and, for a macro that starts, its initial state. A restart keeps the pages that the
first dc of all read, counts the MISS bits of those it has visited, and a page it met below HBM stays so for the rest of its
heads. -/
def State.attnStart (s : State) (x : CtxId) (w : Work) : State :=
  let d := s.readDesc x.core w.bank w.row
  let s := s.engineUses x.core (bankMask w.bank 256)
  match s.attn x w d with
  | .error code => s.endMacro x w true code
  | .ok a =>
    let (pages, miss) := if w.seq.isSome then (w.pages, w.miss) else attnPages a.seq (attnIndices d)
    let s := if w.step = 0 ∧ !a.cont then
        (List.range a.nh).foldl (fun s r => s.putAttn x.core a r ⟨List.replicate a.seq.dim 0, negInf32, 0⟩) (s.engineUses x.core (bankMask a.spos.1 520))
      else s
    let n := w.step / a.nh
    let met := w.step % a.nh ≠ 0 ∧ s.missBit x w n = true
    let nm := onesBelow (natOfBytes (fun k => s.engByte x.core w.bank w.row (64 + k)) 32) ((w.step + a.nh - 1) / a.nh)
    s.modWork x fun v => { v with
      desc := d, phase := .running, seq := some a.seq, pages := pages, miss := if met then n :: miss else miss, nmiss := nm, tmiss := decide (nm ≠ 0) }

/-- One array dc of a MATTN. -/
def State.attnDc (s : State) (x : CtxId) (w : Work) : State :=
  if w.desc.isEmpty then s.attnStart x w
  else
    match s.attn x w w.desc with
    | .error code => s.endMacro x w true code
    | .ok a =>
      let total := a.count * a.nh + (if a.fin then a.nh else 0)
      let n := w.step / a.nh
      let r := w.step % a.nh
      let state := bankMask a.spos.1 520
      let s := s.engineUses x.core (
        if a.count ≤ n then state ||| bankMask a.opos.1 (rowBytes a.seq.dim a.oF)
        else if w.miss.contains n then bankMask (w.bank + 1) 64
        else match w.pages.getD n (0, false, 0, 0) with
          | (_, true, _, nocc) => if nocc = 0 then 0 else state ||| bankMask a.qpos.1 (rowBytes a.seq.dim a.qf)
          | _ => 0)
      let s :=
        if n < a.count then
          (if w.miss.contains n then
            let s := if r = 0 ∨ s.missBit x w n = false then s.attnMiss x w a n ((w.pages.getD n (0, false, 0, 0)).1) else s
            s.modWork x fun v => { v with step := v.step + 1 }
          else
            match w.pages.getD n (0, false, 0, 0) with
            | (_, true, base, nocc) => s.attnVisit x w a r base nocc
            | _ => s.modWork x fun v => { v with step := v.step + 1 })
        else
          (s.engPut x.core a.opos r 0 ((s.attnState x.core a r).finBytes a.oF)).modWork x fun v => { v with step := v.step + 1 }
      match (s.ctx x).work with
      | some v => if v.id = w.id ∧ total ≤ v.step then s.endMacro x v false 0 else s
      | none => s

/-- PAGE_LANDED (08 R176): the index, then the count; it yields to the array and to drain rows (08 R161). -/
def State.pageLanded (s : State) (core : BitVec 8) (bank row : Nat) (page : BitVec 16) : State :=
  let n := natOfBytes (fun k => s.engByte core bank row (96 + k)) 2
  if s.copyYields core ((bank + 1) % 64 :: if n < 76 then [(bank + (104 + 2 * n) / 64) % 64] else []) then
    s.at_ (s.dc + 1) (.ev (.pageLanded core bank row page))
  else
    let s := if n < 76 then s.engPut core (bank, row) 0 (104 + 2 * n) (natToBytes page.toNat 2) else s
    s.engPut core (bank, row) 0 96 (natToBytes (n + 1) 2)

/-! ### Carried drains (08 R179) -/

/-- A carried drain begins, or ends with a copy error. -/
def State.carriedDrain (s : State) (x : CtxId) (w : Work) : State :=
  let fail (s : State) : State := (s.copyError ((s.ctx x).task.getD 0) w.nextChunk).endWork x w.id
  match w.kind with
  | .drain ct (some (bank, row, fo)) _ _ _ acc clamp zc =>
    (s.engineUses x.core 0).engDrain x w ct (.sp bank row) (w.rdFmt fo) [] acc clamp zc
  | .drain ct none tad imm stride acc clamp zc =>
    (match s.asWork x w fun s => s.drainRows x tad imm.toInt stride.toInt w.rdFmt true with
    | (s, .fault _ _ _) => fail s
    | (s, .block _) => s
    | (s, .miss items) =>
      (match s.engWait x w items with
      | (s, some _) => fail s
      | (s, none) => s)
    | (s, .ok f rows sh coh) => (s.engineUses x.core 0).engDrain x w ct (.mem rows coh (addrId tad)) f sh acc clamp zc)
  | _ => s

/-! ### ENGINE_DC (08 R157) -/

/-- Whether the engine work of a context would take an array dc. -/
def Ctx.engineReady (c : Ctx) : Bool := c.work.any fun w => w.phase == .ready || w.phase == .running
/-- One array dc of the work of one context. -/
def State.engineStep (s : State) (x : CtxId) : State :=
  let s := s.modCore x.core fun k => { k with engDc := some s.dc, arrayBanks := 0 }
  match (s.ctx x).work with
  | none => s
  | some w =>
    match w.kind with
    | .mgemm => s.gemmDc x w
    | .mattn => s.attnDc x w
    | .drain .. => s.carriedDrain x w
/-- ENGINE_DC: the array dc that no step operation took; the engine pointer decides between two. -/
def State.engineDc (s : State) (core : BitVec 8) : State :=
  let k := s.core core
  if k.stepDc = some s.dc ∨ k.engDc = some s.dc then s
  else
    match k.ctx0.engineReady, k.ctx1.engineReady with
    | true, true => (s.modCore core fun k => { k with eng := !k.eng }).engineStep ⟨core, k.eng⟩
    | true, false => s.engineStep ⟨core, false⟩
    | false, true => s.engineStep ⟨core, true⟩
    | false, false => s

/-! ### Stop, restart, refetch (08 R177, R414) -/

/-- Work that can stop at a step boundary: a macro that is not draining, and a command whose copy has handed it over. -/
def Work.stoppable (w : Work) : Bool := w.phase != .carried && w.phase != .draining
/-- Whether the engine work of a context can stop now. Work that a release or an arrival still waits for runs on: that wait ends only
with the work's last row (10 R222), and the context leaves only behind it (DESIGN CHOICE, log 147). -/
def Ctx.canStop (c : Ctx) : Bool := c.work.any fun w => w.stoppable && !(c.counts.waiting.any fun v => v.2.2.contains w.id)
/-- Engine work stops at its step boundary: the macro word keeps it, its NT count falls (08 R177); one that writes memory is not
complete (10 R222). A command of a CPYW that has not begun is OP 3; what it is, and the format slots of its issue, stand beside the
word (log 66). -/
def State.stopWork (s : State) (x : CtxId) : State :=
  match (s.ctx x).work with
  | none => s
  | some w =>
    if !(s.ctx x).canStop then s
    else
      let op : BitVec 2 := match w.kind, w.carried && w.desc.isEmpty with
        | .mgemm, false => 1
        | .mattn, false => 2
        | _, _ => 3
      s.modCtx x fun c => { c with
        work := none
        counts := { c.counts with nt := c.counts.nt.filter (· != w.id) }
        macw := { run := true, op := op, bank := BitVec.ofNat 6 w.bank, row := BitVec.ofNat 11 w.row, step := BitVec.ofNat 32 w.step
                  fmts := some w.fmts, carried := if op = 3 then some ⟨w.kind, w.nextChunk⟩ else none, own := w.id
                  seen := w.seq.map fun q => ⟨q, w.pages, w.miss⟩ }
        w := if w.kind = .mgemm then (c.w.set 2 {}).set 3 {} else c.w }
/-- The macro word restarts its work at STEP (08 R177), under its old number where that still counts among the memory-writing
operations. -/
def State.restartWork (s : State) (x : CtxId) : State :=
  let m := (s.ctx x).macw
  let s := s.modCtx x fun c => { c with macw := { c.macw with run := false, fmts := none, carried := none, own := 0, seen := none } }
  let kind := match m.op.toNat, m.carried with
    | 1, _ => some (WorkKind.mgemm, 0)
    | 2, _ => some (WorkKind.mattn, 0)
    | 3, some f => some (f.kind, f.slot)
    | _, _ => none
  match m.run, kind with
  | true, some (kind, slot) =>
    let kept := (s.ctx x).counts.memDrains.contains m.own
    let (id, s) := if kept then (m.own, s) else s.newId
    let w : Work := { id := id, kind := kind, bank := m.bank.toNat, row := m.row.toNat, fmts := m.fmts.getD (s.ctx x).regs.fmt
                      phase := .ready, step := m.step.toNat, born := false, nextChunk := slot, carried := m.op == 3
                      seq := m.seen.map (·.seq), pages := (m.seen.map (·.pages)).getD [], miss := (m.seen.map (·.miss)).getD [] }
    s.modCtx x fun c =>
      let c := { c.addNt id with work := some w }
      let toMem := match kind with
        | .mgemm | .drain _ none .. => !kept
        | _ => false
      if toMem then { c with counts := { c.counts with memDrains := c.counts.memDrains ++ [id] } } else c
  | _, _ => s
/-- Numbers of stopped work that will not restart no longer count among the memory-writing operations (10 R222). -/
def Ctx.dropStopped (c : Ctx) : Ctx :=
  let left := c.counts.memDrains.filter fun id => c.counts.nt.contains id || (c.macw.run && c.macw.own == id)
  { c with counts := { c.counts with memDrains := left } }

/-- The checks of a refetch, its formats being those of the entry. -/
def State.refetchCheck (s : State) (x : CtxId) (id : BitVec 24) (ranges : List (Nat × Nat)) : State × Chk :=
  match s.translateAll x ⟨false, true, false⟩ (pagesOf ranges) with
  | (s, .error f) => (s, .fault f.1 0 f.2)
  | (s, .ok ps) =>
    let tiers := ps.map fun p => leafTier p.2.leaf
    if tiers.contains 6 || (id == 0 && tiers.contains 5) then (s, .fault 0x0107 0 0)
    else if tiers.contains 7 then (s, .block 0)
    else
      let far := ps.filter fun p => decide (2 ≤ leafTier p.2.leaf)
      if far.isEmpty ∨ s.recomputes x id = true then (s, .ok ps) else (s, .miss (if id = 0 then far.map flatItem else [.tensor id]))
/-- REFETCH of a slot (08 R414); one whose pages are away stays filling and is tried again. -/
def State.refetch (s : State) (x : CtxId) (ws : CReg) : State :=
  let w := (s.ctx x).wslot ws
  let a := w.src
  let put (s : State) (f : WSlot → WSlot) : State := s.modCtx x fun c => c.setW ws (f (c.wslot ws))
  let bad (s : State) : State := put s fun w => { w with state := 3, pend := false }
  let n := w.len.toNat
  let k := 64 * w.rows.toNat
  match s.extent? x (addrId a) with
  | none => bad s
  | some e =>
    let off := (addrOff a).toNat
    if e.size < off + n then bad s
    else
      let f : FmtSlot := ⟨w.geom, w.bias, w.code⟩
      let elt0 := eltPos f.width off
      let va := e.base + off
      let plane := if f.geom = 0 then [] else [planeRange e f.geom.toNat elt0 k]
      match s.refetchCheck x (addrId a) ((va, n) :: plane) with
      | (s, .fault _ _ _) => bad s
      | (s, .block _) => put s fun w => { w with state := 1, pend := true }
      | (s, .miss items) =>
        (match s.engRequest x items with
        | (some _, s) => bad s
        | (none, s) => put s fun w => { w with state := 1, pend := true })
      | (s, .ok ps) =>
        let (id, s) := s.newId
        let j := fillJob id x ((s.ctx x).task.getD 0) ws (addrId a) va n (segsOf ps va n) (planeSegs ps e f.geom.toNat elt0 k) f elt0 k
        s.startFill x ws { j with born := false } { w with state := 1, pend := false, elt0 := elt0, born := false, data := [], scale := [], poison := none }
/-- Every slot in STATE 2 refetched. -/
def State.refetchAll (s : State) (x : CtxId) : State :=
  [0#2, 1#2, 2#2, 3#2].foldl (fun s ws => if ((s.ctx x).wslot ws).state = 2 then s.refetch x ws else s) s

/-- Whether Piccolo can go on: the items of waiting work have settled or their recipe is too deep, or a refetch waits for its
pages. -/
def State.piccoloDue (s : State) (x : CtxId) : Bool :=
  ((s.ctx x).work.any fun w =>
    match w.phase with
    | .waiting items => w.deep || items.all s.itemSettled
    | _ => false)
  || (s.ctx x).w.any fun w => w.pend && (w.deep || s.itemSettled (.tensor (addrId w.src)))
/-- PICCOLO_RESIDENCY_RESUME (08 R174, R179, R414): a recipe too deep ends a macro with CODE 4, a carried drain with a copy error,
and a refetch in STATE 3. -/
def State.piccoloResume (s : State) (x : CtxId) : State :=
  let s := match (s.ctx x).work with
    | none => s
    | some w =>
      match w.phase with
      | .waiting items =>
        if w.deep then
          (match w.kind with
          | .drain .. => (s.copyError ((s.ctx x).task.getD 0) w.nextChunk).endWork x w.id
          | _ => s.endMacro x w true 4)
        else if items.all s.itemSettled then s.modWork x fun w => { w with phase := if w.desc.isEmpty then .ready else .running }
        else s
      | _ => s
  [0#2, 1#2, 2#2, 3#2].foldl (fun s ws =>
    let w := (s.ctx x).wslot ws
    if !w.pend then s
    else if w.deep then s.modCtx x fun c => c.setW ws { w with state := 3, pend := false, deep := false }
    else s.refetch x ws) s

end Sys2Proof.Machine
end

