-- ==== Sys2Proof/Machine/System.lean ====
section
/-! DEFINITION. Privileged operations: system registers, returns from a trap, context images, the array's owner, TLB
clearing (17 R311-R326, 08 R164, R177, 19 R338, 20 R366, R367, 21 R386-R388, 22 R398, R401, R405). -/

namespace Sys2Proof.Machine

/-! ### The gate (06 R134, 17 R314) -/

/-- A privileged operation at user level raises the privilege fault. -/
def State.sysGate (s : State) (k : State → State) : State := if s.cur.sys.pl then k s else s.raise 0x0002 0

/-! ### System registers -/

def Ctx.pstat (c : Ctx) : Word :=
  BitVec.ofNat 64 ((if c.sys.dbg then 4 else 0) + (if c.sys.mowned then 2 else 0) + (if c.sys.pl then 1 else 0))
def Ctx.areq (c : Ctx) : Word :=
  BitVec.ofNat 64 (c.sys.cperr.toNat * 2 ^ 8 + (if c.sys.wdog then 4 else 0) + (if c.sys.quar then 2 else 0) + (if c.sys.pre then 1 else 0))
/-- MGN (22 R398). -/
def State.mgnWord (s : State) (core : BitVec 8) : Word :=
  let m := (s.core core).margin
  BitVec.ofNat 64 ((if m.quar then 2 ^ 63 else 0) + (if m.settleUntil.isSome then 2 ^ 62 else 0) + m.esc.toNat * 2 ^ 32
    + m.cduty.toNat * 2 ^ 16 + m.vset.toNat)
/-- LKSTAT of a die for a peer and a module (21 R386). -/
def State.lkstat (s : State) (d p : BitVec 2) (m : BitVec 3) : Word :=
  if d = p then 0
  else
    let o := s.link d p
    let tx := o.mod m
    let rx := (s.link p d).mod m
    BitVec.ofNat 64 ((if o.dead then 2 ^ 63 else 0) + (if tx.narrow then 2 ^ 62 else 0) + (if tx.train then 2 ^ 61 else 0)
      + tx.txseq.toNat * 2 ^ 44 + rx.rxexp.toNat * 2 ^ 32 + rx.crcw % 16 * 2 ^ 28 + tx.flitrp.toNat)
/-- The dies of a die's partition, as a mask. -/
def partMask (mode : BitVec 2) (d : BitVec 2) : Nat :=
  ([0#2, 1#2, 2#2, 3#2].filter (samePart mode d)).foldl (fun n e => n + 2 ^ e.toNat) 0
/-- PCFG, and PINFO of a function (21 R388, R390). -/
def State.pcfg (s : State) (d : BitVec 2) : Word :=
  BitVec.ofNat 64 (partMask s.power.mode d * 16 + partOf s.power.mode d * 4 + s.power.mode.toNat)
/-- DTHM (22 R401). -/
def State.dthmWord (s : State) (d : BitVec 2) : Word :=
  let t := (s.die d).dthm
  BitVec.ofNat 64 (t.tsram.toNat * 2 ^ 56 + t.tcomp.toNat * 2 ^ 48 + t.tpwr.toNat * 2 ^ 40 + t.dduty.toNat * 2 ^ 16 + t.table.toNat * 16
    + (if s.power.loopB then 2 else 0) + (if s.power.loopA then 1 else 0))

/-- What MFS reads; none for a number that no chapter assigns (17 R311). -/
def State.readSreg (s : State) (x : CtxId) (num : BitVec 10) : Option Word :=
  let c := s.ctx x
  let d := x.die
  let z := s.die d
  let n := num.toNat
  if 0x110 ≤ n ∧ n ≤ 0x11F then some (z.qroot.getD (n - 0x110) 0)
  else if 0x160 ≤ n ∧ n ≤ 0x17F then some (s.lkstat d (BitVec.ofNat 2 ((n - 0x160) / 8)) (BitVec.ofNat 3 ((n - 0x160) % 8)))
  else if 0x180 ≤ n ∧ n ≤ 0x183 then some 0
  else if 0x1C0 ≤ n ∧ n ≤ 0x1FF then some (s.mgnWord (d ++ BitVec.ofNat 6 (n - 0x1C0)))
  else if 0x200 ≤ n ∧ n ≤ 0x23F then some ((s.core (d ++ BitVec.ofNat 6 (n - 0x200))).margin.crep.zeroExtend 64)
  else
    match n with
    | 0x000 => some c.pstat
    | 0x001 => some c.sys.tcause
    | 0x002 => some (c.sys.tepc.zeroExtend 64)
    | 0x003 => some (c.sys.tbun.zeroExtend 64)
    | 0x004 => some c.sys.tval
    | 0x005 => some (BitVec.ofNat 64 ((if c.sys.tvecEn then 2 ^ 63 else 0) + c.sys.tvecBase.toNat))
    | 0x006 => some (c.sys.tscr.getD 0 0)
    | 0x007 => some (c.sys.tscr.getD 1 0)
    | 0x008 => some (c.sys.tscr.getD 2 0)
    | 0x009 => some (c.sys.tscr.getD 3 0)
    | 0x00A => some (c.sys.flatb.zeroExtend 64)
    | 0x00B => some (c.sys.flats.zeroExtend 64)
    | 0x00C => some (c.sys.msave.zeroExtend 64)
    | 0x00D => some (c.sys.ctxb.zeroExtend 64)
    | 0x00E => some c.areq
    | 0x100 => some 0
    | 0x101 => some (z.qdbase.zeroExtend 64)
    | 0x102 => some (c.sys.duty.zeroExtend 64)
    | 0x120 => some c.sys.troot
    | 0x140 => some z.costs.kspill
    | 0x141 => some z.costs.kzip
    | 0x142 => some z.costs.krefill
    | 0x143 => some (z.costs.krecomp.zeroExtend 64)
    | 0x144 => some (z.costs.kvdist.zeroExtend 64)
    | 0x148 => some (z.ctr.eccc.zeroExtend 64)
    | 0x149 => some (z.ctr.eccu.zeroExtend 64)
    | 0x14A => some (z.ctr.deadrd.zeroExtend 64)
    | 0x14B => some (z.ctr.deadwr.zeroExtend 64)
    | 0x14C => some (z.ctr.dirovf.zeroExtend 64)
    | 0x188 => some (s.pcfg d)
    | 0x189 => some (z.ctr.hostref.zeroExtend 64)
    | 0x1A0 => some (s.dthmWord d)
    | 0x1A1 => some (BitVec.ofNat 64 (z.bbWraps.toNat * 2 ^ 32 + z.bbNext.toNat))
    | 0x1A2 => some (z.ctr.rplog.zeroExtend 64)
    | _ => none

/-- MFS (17 R315). -/
def execMfs (gd : GReg) (num : BitVec 10) (s : State) : Out :=
  .next (s.sysGate fun s =>
    match s.readSreg s.iss.x num with
    | some v => s.post 1 (.g gd v)
    | none => s.raise 0x0001 0)

/-- A duty field as it is stored: 0 becomes 1, 17 to 31 become 16 (22 R398). -/
def clampDuty (v : BitVec 5) : BitVec 5 := if v = 0 then 1 else if 16 < v.toNat then 16 else v

/-- REGISTER_WRITE: a write to a die-wide register with no event of its own (00 R6). -/
def State.registerWrite (s : State) (x : CtxId) (num : BitVec 10) (v : Word) : State :=
  let d := x.die
  let n := num.toNat
  let lo := v.extractLsb' 0 32
  if 0x110 ≤ n ∧ n ≤ 0x11F then
    let i : BitVec 4 := BitVec.ofNat 4 (n - 0x110)
    s.modDie d fun z => { z with qroot := z.qroot.set i.toNat (v &&& 0xFFFFFFFFFFFFF001) i.isLt }
  else if 0x200 ≤ n ∧ n ≤ 0x23F then
    s.modCore (d ++ BitVec.ofNat 6 (n - 0x200)) fun k => { k with margin := { k.margin with crep := lo } }
  else
    match n with
    | 0x101 => s.modDie d fun z => { z with qdbase := v.extractLsb' 12 45 ++ 0#12 }
    | 0x140 => s.modDie d fun z => { z with costs := { z.costs with kspill := v } }
    | 0x141 => s.modDie d fun z => { z with costs := { z.costs with kzip := v } }
    | 0x142 => s.modDie d fun z => { z with costs := { z.costs with krefill := v } }
    | 0x143 => s.modDie d fun z => { z with costs := { z.costs with krecomp := lo } }
    | 0x144 => s.modDie d fun z => { z with costs := { z.costs with kvdist := lo } }
    | 0x148 => s.count d fun c => { c with eccc := lo }
    | 0x149 => s.count d fun c => { c with eccu := lo }
    | 0x14A => s.count d fun c => { c with deadrd := lo }
    | 0x14B => s.count d fun c => { c with deadwr := lo }
    | 0x14C => s.count d fun c => { c with dirovf := lo }
    | 0x189 => s.count d fun c => { c with hostref := lo }
    | 0x1A0 => s.modDie d fun z => { z with dthm := { z.dthm with dduty := clampDuty (v.extractLsb' 16 5) } }
    | 0x1A2 => s.count d fun c => { c with rplog := lo }
    | _ => s

/-- The act by which an MTS reaches a register of the die; none for a register that is read-only (00 R6). -/
def diePost (x : CtxId) (num : BitVec 10) (v : Word) : Option Event :=
  let n := num.toNat
  if n = 0x100 then some (.schdb x.die (v.extractLsb' 0 4))
  else if 0x180 ≤ n ∧ n ≤ 0x183 then
    (if v.getLsbD 0 ∧ n - 0x180 ≠ x.die.toNat then some (.lkctlUp x.die (BitVec.ofNat 2 (n - 0x180))) else none)
  else if 0x1C0 ≤ n ∧ n ≤ 0x1FF then some (.mgnWrite (x.die ++ BitVec.ofNat 6 (n - 0x1C0)) v)
  else if n = 0x102 ∨ n = 0x120 ∨ (0x160 ≤ n ∧ n ≤ 0x17F) ∨ n = 0x188 ∨ n = 0x1A1 then none
  else some (.registerWrite x num v)

/-- MTS (17 R315). -/
def execMts (num : BitVec 10) (gs : GReg) (s : State) : Out :=
  .next (s.sysGate fun s =>
    let v := s.gval gs
    let x := s.iss.x
    if (s.readSreg x num).isNone then s.raise 0x0001 0
    else if num = 0x005 ∧ (v.extractLsb' 0 51).toNat % 16 ≠ 0 then s.raise 0x0001 0
    else if (num = 0x00A ∨ num = 0x00C) ∧ v.extractLsb' 0 12 ≠ 0 then s.raise 0x0001 0
    else if num.toNat < 0x100 then s.post 1 (.sreg num v)
    else s.modIss fun i => { i with acts := i.acts ++ ((diePost x num v).toList.map Act.ev) })

/-! ### The return from a trap at issue (17 R316) -/

/-- A privileged operation that acts at its commit. -/
def State.sysEnd (s : State) (w : SysWait) : State := s.endsSeg.modIss fun i => { i with ending := .sys w }
/-- TRET (17 R316). -/
def execTret (s : State) : Out := .next (s.sysGate fun s => s.sysEnd .tretResume)
/-- TRET.end (17 R316). -/
def execTretEnd (gs : GReg) (s : State) : Out := .next (s.sysGate fun s => s.sysEnd (.tretEnd ((s.gval gs).extractLsb' 0 16)))
/-- TRET.yield (17 R316). -/
def execTretYield (s : State) : Out := .next (s.sysGate fun s => s.sysEnd .tretYield)

/-- CTXSV (17 R317). -/
def execCtxsv (gs : GReg) (s : State) : Out :=
  .next (s.sysGate fun s =>
    let a := s.gval gs
    if a.extractLsb' 0 12 ≠ 0 then s.raise 0x0004 a else s.sysEnd (.ctxsv a))
/-- CTXLD (17 R317). -/
def execCtxld (gs : GReg) (s : State) : Out :=
  .next (s.sysGate fun s =>
    let a := s.gval gs
    if a.extractLsb' 0 12 ≠ 0 then s.raise 0x0004 a else s.sysEnd (.ctxld a))
/-- TLBI.all (17 R318). -/
def execTlbiAll (sc : BitVec 1) (gs : GReg) (s : State) : Out := .next (s.sysGate fun s => s.sysEnd (.tlbi 0 (sc == 1) (s.gval gs) []))
/-- TLBI.va (17 R318). -/
def execTlbiVa (sc : BitVec 1) (gs : GReg) (s : State) : Out := .next (s.sysGate fun s => s.sysEnd (.tlbi 1 (sc == 1) (s.gval gs) []))
/-- TLBI.walk (17 R318). -/
def execTlbiWalk (sc : BitVec 1) (gs : GReg) (s : State) : Out := .next (s.sysGate fun s => s.sysEnd (.tlbi 2 (sc == 1) (s.gval gs) []))

/-- What a TLBI removes (17 R318). -/
def State.tlbi (s : State) (x : CtxId) (kind : BitVec 2) (sc : Bool) (va : Word) : State :=
  let a := va.toNat % 2 ^ 57
  let hit (e : TlbEntry) : Bool := if kind = 0 then true else e.holds a
  if kind = 2 then s.modDie x.die fun z => { z with walk := [] }
  else if sc then s.tlbiDie x.die hit (kind == 0)
  else s.modCore x.core fun k => { k with tlb := k.tlb.filter fun e => !hit e }

/-! ### The context image (17 R324, R325) -/

/-- The bytes of a value, padded with zeros to n bytes. -/
def padTo (n : Nat) (l : List Byte) : List Byte := l.take n ++ List.replicate (n - l.length) 0
def wslotNat (w : WSlot) (cur : BitVec 17) : Nat :=
  w.src.toNat * 2 ^ 128 + (if w.state = 1 then 2 else w.state.toNat) * 2 ^ 126 + w.mode.toNat * 2 ^ 124 + w.code.toNat * 2 ^ 119
    + w.bias.toNat * 2 ^ 111 + w.geom.toNat * 2 ^ 108 + w.rows.toNat * 2 ^ 91 + cur.toNat * 2 ^ 74 + w.len.toNat * 2 ^ 57
def macroNat (m : MacroWord) : Nat :=
  (if m.run then 2 ^ 63 else 0) + m.op.toNat * 2 ^ 61 + m.bank.toNat * 2 ^ 55 + m.row.toNat * 2 ^ 44 + m.step.toNat
/-- The weight-buffer descriptor: 128 bytes. -/
def Ctx.weightDesc (c : Ctx) : List Byte :=
  padTo 128 ((List.range 4).flatMap (fun i => natToBytes (wslotNat (c.w.getD i {}) (c.regs.cur.getD i 0)) 24) ++ natToBytes (macroNat c.macw) 8)
/-- A slot and its cursor from 24 bytes. -/
def wslotOf (bs : List Byte) : WSlot × BitVec 17 :=
  let v : BitVec 192 := BitVec.ofNat 192 (bytesToNat bs)
  ({ src := v.extractLsb' 128 64, state := v.extractLsb' 126 2, mode := v.extractLsb' 124 2, code := v.extractLsb' 119 5
     bias := v.extractLsb' 111 8, geom := v.extractLsb' 108 3, rows := v.extractLsb' 91 17, len := v.extractLsb' 57 17 }
  , v.extractLsb' 74 17)
def macroOf (bs : List Byte) : MacroWord :=
  let v : Word := BitVec.ofNat 64 (bytesToNat bs)
  { run := v.getLsbD 63, op := v.extractLsb' 61 2, bank := v.extractLsb' 55 6, row := v.extractLsb' 44 11, step := v.extractLsb' 0 32 }
/-- A macro word read back from memory, with what the model keeps beside the one that was saved (log 66). -/
def macroBack (bs : List Byte) (kept : Option MacroWord) : MacroWord :=
  let m := macroOf bs
  (kept.filter fun k => macroNat k == macroNat m).getD m
/-- A part of a byte string. -/
def sub (bs : List Byte) (o n : Nat) : List Byte := (bs.drop o).take n
def subNat (bs : List Byte) (o n : Nat) : Nat := bytesToNat (sub bs o n)
/-- The weight-buffer descriptor put back. -/
def Ctx.loadWeightDesc (c : Ctx) (bs : List Byte) (kept : Option MacroWord) : Ctx :=
  let e (i : Nat) := wslotOf (sub bs (24 * i) 24)
  { c with
    w := Vector.ofFn fun i : Fin 4 => (e i).1
    macw := macroBack (sub bs 96 8) kept
    regs := { c.regs with cur := Vector.ofFn fun i : Fin 4 => (e i).2 } }
/-- The tiles: 65,536 bytes, row-major. -/
def tileBytes (r : Regs) : List Byte := (List.range 4).flatMap fun i => natToBytes (r.tiles.getD i 0).toNat 16384
def tilesOf (bs : List Byte) : Vector Tile 4 := Vector.ofFn fun i : Fin 4 => BitVec.ofNat 131072 (subNat bs (16384 * i) 16384)

/-- The status word of a job-table entry (10 R211). -/
def State.jobStatus (s : State) (j : Job) : Nat :=
  let st := match j.st with
    | .held | .waiting => 0
    | .running => 1
    | .finishing | .cancelled => 2
  let succ := (s.jobs.filter fun q => q.preds.contains j.id).foldl (fun n q => n + 2 ^ (q.slot.getD 0)) 0
  2 ^ 63 + st * 2 ^ 61 + j.preds.length % 32 * 2 ^ 56 + succ % 2 ^ 24 * 2 ^ 32 + j.tag.toNat * 2 ^ 24 + j.tblKind.toNat * 2 ^ 21
    + (if j.err then 2 ^ 20 else 0) + j.landed.length % 2 ^ 20
/-- The job table of a task: 24 entries of 56 bytes. A job of a plain copy has no card: its words W0 to W5 are zero (DESIGN CHOICE,
log 146). -/
def State.jobTable (s : State) (k : Nat) : List Byte :=
  (List.range 24).flatMap fun n =>
    match s.jobs.find? fun j => j.task == k && j.slot == some n with
    | some j => padTo 56 (natToBytes (s.jobStatus j) 8 ++ j.words.flatMap fun w => natToBytes w.toNat 8)
    | none => List.replicate 56 0

/-- The header fields that a save writes (17 R325). -/
def Ctx.headerNat (c : Ctx) : Nat :=
  let hold : Nat := match c.flow.hold <|> c.flow.savedHold with
    | some (.baraw bar (some gen)) => 1 * 2 ^ 318 + bar.toNat * 2 ^ 301 + gen.toNat * 2 ^ 256
    | some (.fence gd _ _) => 2 * 2 ^ 318 + gd.toNat * 2 ^ 312
    | _ => 0
  c.sys.cperr.toNat * 2 ^ 424 + (c.facc.word false).toNat * 2 ^ 320 + hold + 1 * 2 ^ 56 + 53 * 2 ^ 48
/-- The bytes of the image of a context, its FLATB and FLATS as memory holds them (17 R324). -/
def State.image (s : State) (x : CtxId) (flatb : BitVec 57) (flats : BitVec 40) : List Byte :=
  let c := s.ctx x
  let r := c.regs
  let hdr := natToBytes (c.headerNat + flatb.toNat * 2 ^ 448 + flats.toNat * 2 ^ 384) 64
  let ns (l : List Nat) (n : Nat) : List Byte := l.flatMap fun v => natToBytes v n
  let cregs := (List.range 84).map fun n => if cregListed (BitVec.ofNat 8 n) then (c.readCreg x (BitVec.ofNat 8 n)).toNat else 0
  let loops := (List.range 4).flatMap fun i => [(r.loop.start.getD i 0).toNat, (r.loop.fin.getD i 0).toNat]
  let locks := (List.range 8).flatMap fun i =>
    match c.locks[i]? with
    | some l => [l.base, l.len]
    | none => [0, 0]
  hdr ++ ns ((List.range 64).map fun i => (c.readG (BitVec.ofNat 6 i)).toNat) 8 ++ ns ((r.a.toList).map (·.toNat)) 8
    ++ ns (r.stride.toList.map (·.toNat)) 5 ++ natToBytes (r.p ||| 1).toNat 12 ++ List.replicate 4 0
    ++ ns ((List.range 16).map fun i => (c.readK (BitVec.ofNat 4 i)).toNat) 8 ++ ns (r.lc.toList.map (·.toNat)) 4
    ++ padTo 8 [BitVec.ofNat 8 c.nl, BitVec.ofNat 8 c.ns, BitVec.ofNat 8 c.nc, BitVec.ofNat 8 c.nt]
    ++ natToBytes r.loopWord.toNat 8 ++ ns loops 8 ++ ns cregs 8 ++ c.weightDesc ++ s.jobTable (c.task.getD 0) ++ ns locks 8
    ++ c.sreg.toList.flatMap (fun v => [v.cls, BitVec.ofNat 8 v.len.toNat]) ++ List.replicate 768 0
    ++ ns (c.v.toList.map (·.toNat)) 256 ++ tileBytes r ++ ns (c.sreg.toList.map (·.data.toNat)) 8192

/-- The register state that an image holds (17 R324, R325, 03 R66). -/
def Ctx.loadImage (c : Ctx) (bs : List Byte) (kept : Option MacroWord) : Ctx :=
  let n8 (o i : Nat) : Word := BitVec.ofNat 64 (subNat bs (o + 8 * i) 8)
  let creg (n : Nat) : Word := n8 0x400 n
  let lw : Word := n8 0x3B8 0
  let at_ (i : Nat) : BAddr := BitVec.ofNat 51 (subNat bs (0x3C0 + 8 * i) 8)
  let gen (n : Nat) : GenK :=
    let w := creg (0x40 + n)
    { lfsr := w.getLsbD 63, sgc := w.extractLsb' 26 4, lfs := w.extractLsb' 10 16, key := w.extractLsb' 0 10 }
  -- p88 to p95 are the STG bits of the loop-engine word (06 R124)
  let p : BitVec 96 := lw.extractLsb' 56 8 ++ BitVec.ofNat 88 (subNat bs 0x310 11)
  let r : Regs := {
    g := Vector.ofFn fun i : Fin 64 => if i.1 = 0 then 0 else n8 0x40 i
    a := Vector.ofFn fun i : Fin 16 => n8 0x240 i
    stride := Vector.ofFn fun i : Fin 16 => BitVec.ofNat 40 (subNat bs (0x2C0 + 5 * i) 5)
    p := setBit96 p 0 true
    k := Vector.ofFn fun i : Fin 16 => if i.1 = 0 then BitVec.allOnes 64 else n8 0x320 i
    lc := Vector.ofFn fun i : Fin 4 => BitVec.ofNat 32 (subNat bs (0x3A0 + 4 * i) 4)
    loop := { act := lw.extractLsb' 52 4, sm1 := lw.extractLsb' 49 3, pipe := lw.getLsbD 48, plv := lw.extractLsb' 46 2, drn := lw.getLsbD 45
              start := Vector.ofFn fun i : Fin 4 => at_ (2 * i), fin := Vector.ofFn fun i : Fin 4 => at_ (2 * i + 1) }
    fmt := Vector.ofFn fun i : Fin 32 => FmtSlot.ofWord (creg (0x10 + i))
    slen := (creg 0x30).extractLsb' 0 2, rdmax := (creg 0x31).extractLsb' 0 3, fstat := (creg 0x38).extractLsb' 0 12
    genk := Vector.ofFn fun i : Fin 16 => gen i
    tiles := tilesOf (sub bs 0x5000 65536) }
  let c := { c with
    regs := r, replays := (creg 0x39).extractLsb' 0 32
    v := Vector.ofFn fun i : Fin 64 => BitVec.ofNat 2048 (subNat bs (0x1000 + 256 * i) 256)
    sreg := Vector.ofFn fun i : Fin 16 =>
      { data := BitVec.ofNat 65536 (subNat bs (0x15000 + 8192 * i) 8192), cls := BitVec.ofNat 8 (subNat bs (0xCE0 + 2 * i) 1)
        len := BitVec.ofNat 2 (subNat bs (0xCE1 + 2 * i) 1) } }
  c.loadWeightDesc (sub bs 0x6A0 128) kept
/-- The jobs that the job table of an image names and that are still outstanding: NC counts them (03 R65). -/
def State.savedJobs (s : State) (k : Nat) (bs : List Byte) : List Nat :=
  (List.range 24).filterMap fun n =>
    let e := sub bs (0x720 + 56 * n) 56
    if subNat e 7 1 < 128 then none
    else (s.jobs.find? fun j => j.task == k && j.slot == some n && padTo 48 (j.words.flatMap fun w => natToBytes w.toNat 8) == e.drop 8).map (·.id)
/-- The locks of an image loaded again (17 R324, 12 R255). -/
def State.loadLocks (s : State) (x : CtxId) (bs : List Byte) : State :=
  let s := (s.ctx x).locks.foldl (fun s l => s.tunlockAt x l.base) s
  (List.range 8).foldl (fun s i =>
    let len := subNat bs (0xC60 + 16 * i + 8) 8
    if len = 0 then s else s.tlockAt x (subNat bs (0xC60 + 16 * i) 8) len) s

/-- The holds, failures and copy errors of an image (17 R325, R326). -/
def State.loadHeader (s : State) (x : CtxId) (bs : List Byte) : State :=
  let h : BitVec 512 := BitVec.ofNat 512 (subNat bs 0 64)
  let c := s.ctx x
  let waits := (c.counts.nc.filter fun id =>
    match (s.job? id).map (·.dst) with
    | some (JSide.mem _ _ _) => true
    | _ => false) ++ c.counts.memDrains
  let bar := h.extractLsb' 301 11
  let freed := h.extractLsb' 318 2 = 1 ∧ ((s.taskOf x).any fun t => t.freed.contains bar) = true
  let s := s.modOwnTask x fun t => { t with freed := [] }
  let s := if freed then s.trapAtEntry x 0x000E .Y (bar.zeroExtend 64) 0 (s.ctx x).flow.last else s
  let hold : Option Hold :=
    if freed then none
    else if h.extractLsb' 318 2 = 1 then some (.baraw bar (some (h.extractLsb' 256 16)))
    else if h.extractLsb' 318 2 = 2 then some (.fence (h.extractLsb' 312 6) .sys waits)
    else none
  s.modCtx x fun c => { c with
    facc := FAcc.ofWord (h.extractLsb' 320 64), sys := { c.sys with cperr := h.extractLsb' 424 24 }
    flow := if c.sys.pl then { c.flow with savedHold := hold } else { c.flow with hold := hold, held := 0 } }

/-- The carve-out rows of a context: position and bytes. -/
def Ctx.carve (c : Ctx) : Nat × Nat := (c.tregs.spbase.toNat * 4096, c.tregs.spsize.toNat * 4096)
/-- What a save or a restore of an image came to. -/
inductive ImgDone where
  | done | wait | bad
  deriving DecidableEq, Repr
/-- The macro word that goes to memory, kept with what the model holds beside it (log 66). -/
def State.keepMacro (s : State) (x : CtxId) (addr : Nat) : State :=
  let m := (s.ctx x).macw
  s.modOwnTask x fun t => { t with mac := (if m.run then [(addr, m)] else []) ++ t.mac.filter fun p => p.1 != addr }
/-- What was kept with the macro word saved at an address. -/
def State.keptMacro (s : State) (x : CtxId) (addr : Nat) : Option MacroWord :=
  (s.taskOf x).bind fun t => (t.mac.find? fun p => p.1 == addr).map (·.2)
/-- The image of a context written at an address (17 R324, R325). -/
def State.writeImage (s : State) (x : CtxId) (addr : Nat) (again : Act) : State × ImgDone :=
  let c := s.ctx x
  let d := x.die
  match s.sysRead d c.sys.troot addr 64 again with
  | (s, .wait) => (s, .wait)
  | (s, r) =>
    let h : BitVec 512 := match r with
      | .got bs => BitVec.ofNat 512 (bytesToNat bs)
      | _ => 0
    match s.sysWrite d c.sys.troot addr (s.image x (h.extractLsb' 448 57) (h.extractLsb' 384 40)) again with
    | (s, .wait) => (s, .wait)
    | (s, .done) => (s.keepMacro x addr, .done)
    | (s, .bad) => (s, .bad)
/-- Steps 2 and 3 of R65: carve-out rows to SPOVF, then the image; the first page without a frame ends it (log 18). -/
def State.saveImage (s : State) (x : CtxId) (addr : Nat) (again : Act) : State × ImgDone :=
  let s := s.landSp x.core
  let c := s.ctx x
  let (p, n) := c.carve
  match s.sysWrite x.die c.sys.troot c.tregs.spovf.toNat (s.spPeek x.core p n) again with
  | (s, .wait) => (s, .wait)
  | (s, .bad) => (s, .bad)
  | (s, .done) => s.writeImage x addr again
/-- A restore (17 R326): carve-out rows, then the state of the image. -/
def State.loadImageAt (s : State) (x : CtxId) (addr : Nat) (again : Act) : State × ImgDone :=
  let c := s.ctx x
  let (p, n) := c.carve
  let d := x.die
  match s.sysRead d c.sys.troot addr 0x35000 again with
  | (s, .wait) => (s, .wait)
  | (s, .bad) | (s, .poison) => (s, .bad)
  | (s, .got bs) =>
    match s.sysRead d c.sys.troot c.tregs.spovf.toNat n again with
    | (s, .wait) => (s, .wait)
    | (s, .bad) | (s, .poison) => (s, .bad)
    | (s, .got rows) =>
      if subNat bs 7 1 ≠ 1 then (s, .bad)
      else
        let kept := s.keptMacro x addr
        let s := (s.spPoke x.core p rows).modCtx x fun c => c.loadImage bs kept
        -- engine work of the state that is replaced ends with it (17 R317)
        let s := s.modCtx x fun c => { c with
          work := none
          counts := { c.counts with
            nc := s.savedJobs (c.task.getD 0) bs
            nt := c.counts.nt.filter fun id => !(c.work.any (·.id == id))
            memDrains := c.counts.memDrains.filter fun id => c.drains.any (·.id == id) } }
        (((((s.loadLocks x bs).refetchAll x).restartWork x).loadHeader x bs), .done)

/-- A task fails under R32: it never runs again. -/
def State.failContext (s : State) (x : CtxId) : State :=
  let s := match s.taskOf x with
    | some t => s.bbCtx x 0x51 (BitVec.ofNat 64 (t.gang.lid % 2 ^ 24)) (BitVec.ofNat 64 t.tidx)
    | none => s
  s.endTask x 7 0x0706 none

/-! ### MOWN and MGIVE (17 R319, R320) -/

/-- The wait of MOWN or MGIVE: the bundle issues no more until it is over. -/
def State.ownWait (s : State) : State := (s.blockOn 0).modIss fun i => { i with own := true }
/-- MOWN (17 R319). -/
def execMown (s : State) : Out :=
  .next (s.sysGate fun s =>
    let c := s.cur
    let x := s.iss.x
    let mine := if c.canStop then c.work.toList.map (·.id) else []
    let again : Act := .bitErrors 0 []
    if c.sys.mowned then s
    else if c.sys.msave.extractLsb' 0 12 ≠ 0 then s.raise 0x0004 (c.sys.msave.zeroExtend 64)
    else if c.counts.nt.any fun id => !mine.contains id then s.ownWait
    else
      let s := s.stopWork x
      match s.sysWrite x.die c.sys.troot c.sys.msave.toNat (tileBytes s.cur.regs ++ s.cur.weightDesc) again with
      | (s, .wait) => s.ownWait
      | (s, .bad) => s.raise 0x0101 (c.sys.msave.zeroExtend 64)
      | (s, .done) =>
        (s.keepMacro x c.sys.msave.toNat).modCur fun c => { c with
          regs := { c.regs with tiles := Vector.replicate 4 0 }, w := c.w.map fun (w : WSlot) => { w with state := 0 }
          macw := {}, sys := { c.sys with mowned := true } })

/-- What MGIVE came to. -/
inductive Given where
  | done | wait | bad | poison
  deriving DecidableEq, Repr
/-- MGIVE's work once NT is zero. -/
def State.giveBack (s : State) (x : CtxId) : State × Given :=
  let c := s.ctx x
  if !c.sys.mowned then (s, .done)
  else if c.nt ≠ 0 then (s, .wait)
  else
    match s.sysRead x.die c.sys.troot c.sys.msave.toNat 65664 (.bitErrors 0 []) with
    | (s, .wait) => (s, .wait)
    | (s, .bad) => (s, .bad)
    | (s, .poison) => (s, .poison)
    | (s, .got bs) =>
      let s := s.modCtx x fun c =>
        let c := { c with regs := { c.regs with tiles := tilesOf (sub bs 0 65536) }, sys := { c.sys with mowned := false } }
        (c.loadWeightDesc (sub bs 65536 128) (s.keptMacro x c.sys.msave.toNat)).dropStopped
      ((s.refetchAll x).restartWork x, .done)
/-- MGIVE (17 R320). -/
def execMgive (s : State) : Out :=
  .next (s.sysGate fun s =>
    match s.giveBack s.iss.x with
    | (s, .done) => s
    | (s, .wait) => s.ownWait
    | (s, .bad) => s.raise 0x0101 (s.cur.sys.msave.zeroExtend 64)
    | (s, .poison) => s.failContext s.iss.x)

/-! ### The waits of privileged operations (17 R316-R318, 18 R335) -/

/-- The wait of R65 before a save: NL, NS and NT zero, and every copy into scratchpad landed. -/
def State.saveReady (s : State) (x : CtxId) : Bool :=
  let c := s.ctx x
  c.nl == 0 && c.ns == 0 && c.nt == 0 && !(s.jobs.any fun j => j.task == c.task.getD 0 && !j.isFill &&
    match j.dst with
    | .sp _ => true
    | .mem .. => false)
/-- A request to give a context up; a task parked at user level stands at a resumption point (17 R310, R323). -/
def State.askLeave (s : State) (x : CtxId) (f : SysRegs → SysRegs) : State :=
  if (s.ctx x).task.isNone then s
  else
    let s := s.request x f
    if (s.ctx x).flow.phase = .parked ∧ (s.ctx x).sys.pl = false then s.leave x .preempt else s
/-- PREEMPT_REQUEST (02 R34): a gang is pre-empted as a unit. -/
def State.preemptRequest (s : State) (x : CtxId) : State :=
  let pre (y : SysRegs) : SysRegs := { y with pre := true }
  let running (s : State) (y : CtxId) : Bool :=
    match (s.ctx y).flow.phase with
    | .run | .parked | .sys _ | .moving => true
    | _ => false
  let ask (s : State) (y : CtxId) : State := if running s y then s.askLeave y pre else s
  match s.gangOf x with
  | none => s
  | some g => if g.solo then ask s x else (g.members.filterMap s.ctxOfTask).foldl ask s

/-- The line drains and posted atomics that a context has committed and that are still to be performed (19 R349). -/
def Ctx.ownWrites (c : Ctx) : List Nat := (c.sb.filter fun l => l.committed).map (·.id) ++ c.posted.map (·.1)
/-- The context goes on behind the bundle of its privileged operation. -/
def State.sysOver (s : State) (x : CtxId) : State := s.modFlow x fun f => { f with phase := .run, frozen := 0 }
/-- A step of a privileged operation that waits; a failed image at system level ends the task (17 R317). -/
def State.sysStep (s : State) (x : CtxId) : State :=
  let c := s.ctx x
  let bundle := c.flow.last
  let again : Act := .bitErrors 0 []
  let tret (k : State → State) : State :=
    match s.giveBack x with
    | (s, .done) => k s
    | (s, .wait) => s
    | (s, .bad) => (s.sysOver x).takeTrap x 0x0101 Slot.S.mask (c.sys.msave.zeroExtend 64) 0 false c.flow.pc bundle
    | (s, .poison) => s.failContext x
  match c.flow.phase with
  | .sys .tretResume => tret fun s => s.returnFromTrap x
  | .sys (.tretEnd code) => tret fun s => (s.modCtx x fun c => { c with sys := { c.sys with pl := false } }).endTask x 6 code (some c.sys.tepc)
  | .sys .tretYield =>
    tret fun s =>
      let s := s.modCtx x fun c => { c with sys := { c.sys with pl := false }, flow := { c.flow with
        pc := c.sys.tepc, asEntry := true, hold := c.flow.savedHold, savedHold := none, pendingTrap := c.flow.savedTrap, savedTrap := none } }
      (s.leave x .preempt).preemptRequest x
  | .sys (.ctxsv a) =>
    if !s.saveReady x then s.stopWork x
    else
      (match s.saveImage x (a.toNat % 2 ^ 57) again with
      | (s, .wait) => s
      | (s, .done) => (s.restartWork x).sysOver x
      | (s, .bad) => ((s.restartWork x).sysOver x).takeTrap x 0x0101 Slot.S.mask a 0 false c.flow.pc bundle)
  | .sys (.ctxld a) =>
    (match s.loadImageAt x (a.toNat % 2 ^ 57) again with
    | (s, .wait) => s
    | (s, .done) => s.sysOver x
    | (s, .bad) => s.failContext x)
  | .sys (.tlbi kind sc va waits) => if s.allDone x waits then (s.tlbi x kind sc va).sysOver x else s
  | .sys .mown | .sys .mgive | .idle | .run | .parked | .leaving _ | .ending _ | .moving => s

end Sys2Proof.Machine
end

