-- ==== Sys2Proof/Machine/Segment.lean ====
section
/-! DEFINITION. The end of a cc and the commit of a segment: what leaves a core, results that land, loop passes, repeat
groups, and the end of a bundle (02 R42-R49, 05 R86, R87, R97, 06 R126, 14 R278, 17 R322, R323). -/

namespace Sys2Proof

/-- The external acts (02 R46). -/
def Instr.externalAct : Instr → Bool
  | .atadd .. | .atand .. | .ator .. | .atxor .. | .atmin .. | .atmax .. | .atminn .. | .atmaxn .. | .atswp .. | .atcas ..
  | .atfadd .. | .rel .. | .bara .. | .baraw .. | .fence .. | .kvapp .. | .kvret .. | .marm .. => true
  | .cpy pl _ | .cpyx pl _ _ => match pl.dst with
    | .mem _ => true
    | .sp _ _ => false
  | .cpyg dst _ _ _ _ => match dst with
    | .mem _ => true
    | .sp _ _ => false
  | .jsub _ t _ => t == 1
  | _ => false
/-- The operations whose bundle ends its segment: a bundle that holds one, whatever its predicate (05 R87). -/
def Instr.closesSegment : Instr → Bool
  | .trap .. | .bari .. | .bfree .. | .monw .. | .yield | .tnew .. | .kvnew .. | .tfree .. | .tpin .. | .tunpin .. | .tlock ..
  | .tunlock .. | .ctxsv .. | .ctxld .. | .tlbiAll .. | .tlbiVa .. | .tlbiWalk .. => true
  | i => i.externalAct
/-- The operations that stand in no repeat group because their bundle ends its segment (05 R98; a TRAP stands in none either). -/
def Instr.endsSegment : Instr → Bool
  | .tret | .tretEnd .. | .tretYield => true
  | i => i.closesSegment
/-- The operations that stand in no last bundle of an active level's body (06 R111, R128). -/
def Instr.transfers : Instr → Bool
  | .br .. | .brc .. | .jmp .. | .call .. | .ret .. | .loop .. | .lexit .. | .trap .. => true
  | _ => false

namespace Machine

/-! ### Acts leave the core -/

/-- An act on its way to where it is performed (09 R196, R198, 10 R217, R222, 12 R247). -/
def State.launchAct (s : State) (x : CtxId) (i : Act) : State :=
  match i with
  | .ev (.atomicAtHome _ _ _ pa _ _ _ _) | .ev (.monitorArm _ _ _ pa) | .ev (.relPerform _ _ pa) => s.sendHome x.die pa i
  | .ev (.barrierArrival g bar _ _) =>
    let d := ((s.gang? g).map (·.die)).getD x.die
    if d = x.die then s.toBarrier g bar i else s.send x.die d 0 i
  | .op _ _ _ _ (.kvappRead ..) => s.at_ (s.dc + 1) i
  | .op _ _ _ _ o => s.sendOp x o i
  | _ => s.later i

/-- The committed acts of a context whose counted operations are done leave, in their order (10 R217, R222, 06 R129). -/
def State.sendReady (s : State) (x : CtxId) : State :=
  (s.ctx x).counts.waiting.foldl (fun s w =>
    if s.allDone x w.2.2 then
      (s.modCtx x fun c => { c with counts := { c.counts with waiting := c.counts.waiting.filter fun v => v.1 != w.1 } }).launchAct x w.2.1
    else s) s

/-! ### Commit (02 R43, R46, 14 R278) -/

/-- The open lines are committed and counted, and their drains begin (09 R191). -/
def State.commitLines (s : State) (x : CtxId) : State :=
  ((s.ctx x).sb.filter fun l => !l.committed).foldl (fun s l =>
    let (id, s) := s.newId
    let s := s.modCtx x fun c => ({ c with
      sb := updWhere (fun (q : SbLine) => q.id == l.id) (fun q => { q with id := id, committed := true }) c.sb }).addNs id
    if l.coh then s.later (.ev (.lineDrain x id)) else s.sendHome x.die (l.line * 128) (.ev (.lineDrain x id))) s

/-- A call leaves, and the context is frozen until its reply. -/
def State.sendCall (s : State) (x : CtxId) (id : Nat) (sl : Slot) (tval : Word) (i : Act) : State :=
  let s := s.modFlow x fun f => { f with replies := f.replies ++ [id], asks := f.asks ++ [(id, sl, tval)] }
  (s.modCtx x fun c => c.refreeze s.iss.pc).launchAct x i

/-- One act of the segment takes effect. `later` are the numbers of the waiting acts of the segment not yet met. -/
def State.commitAct (s : State) (x : CtxId) (later : List Nat) (a : Staged) : State :=
  match a with
  | .act _ i => s.launchAct x i
  | .after id i =>
    let w := (s.releaseWaits x).filter fun n => n != id && !later.contains n
    s.modCtx x fun c => { c with counts := { c.counts with waiting := c.counts.waiting ++ [(id, i, w)] } }
  | .cancelJobs tag => s.cancelJobs x tag
  | .call id i =>
    let (sl, v) := ((s.iss.asks.find? fun a => a.1 == id).map (·.2)).getD (match i with
      | .op _ _ sl _ _ => (sl, 0)
      | _ => (.S, 0))
    s.sendCall x id sl v i
  | .now (.op y id sl b o) => s.performOp y id sl b o
  | .now _ => s
/-- The staged acts, in order. -/
def State.commitActs (s : State) (x : CtxId) : List Staged → State
  | [] => s
  | a :: t => (s.commitAct x (t.filterMap fun b => match b with
      | .after id _ => some id
      | _ => none) a).commitActs x t

/-- What a commit does to the context itself: nothing of the segment can be cancelled any more. -/
def Ctx.closeSeg (c : Ctx) : Ctx :=
  { c with
    flow := { c.flow with asEntry := true }
    w := c.w.map fun (w : WSlot) => { w with born := false }
    drains := c.drains.map fun (d : Drain) => { d with born := false, held := false }
    work := c.work.map fun (w : Work) => { w with born := false }
    seg := { entry := c.seg.entry, snap := c.seg.snap } }

/-- SEGMENT_COMMIT (02 R43). -/
def State.commit (s : State) (x : CtxId) : State :=
  let staged := (s.ctx x).seg.staged
  let drains := (s.ctx x).drains.filter (·.held)
  let jobs := (s.jobs.filter fun j => j.x == x && j.born && j.st == .held).map (·.id)
  let s := s.commitLines x
  let s := { s with jobs := s.jobs.map fun (j : Job) => if j.x = x then { j with born := false } else j }
  let s := s.modCtx x Ctx.closeSeg
  let s := s.commitActs x staged
  let s := jobs.foldl (fun s id => s.enterJob id) s
  let s := drains.foldl (fun s d => s.sendRows x d) s
  s.sendReady x

/-- Whether the commit of the open segment keeps NS at its ceiling of 96 (03 R57). -/
def Ctx.commitFits (c : Ctx) : Bool := decide (c.ns + (c.sb.filter fun l => !l.committed).length ≤ 96)

/-! ### Requests (17 R313, R323, 06 R127) -/

/-- Whether an asynchronous request is pending. -/
def SysRegs.pending (y : SysRegs) : Bool := y.pre || y.quar || y.wdog || y.cperr != 0
/-- The lowest set bit of the pending copy errors. -/
def lowestSlot (v : BitVec 24) : Option Nat := (List.range 24).find? fun i => v.getLsbD i
/-- What the black box keeps of a watchdog or a memory timeout (22 R407). -/
def State.logTimeout (s : State) (x : CtxId) (code : BitVec 16) : State := s.bbCtx x 0x50 (code.zeroExtend 64) (s.ctx x).tregs.taskid

/-- TAKE_ASYNC_REQUEST: the first pending request is taken at a resumption point (17 R323): where the context has settled, or at
a segment entry with no pipelined level active (06 R127); the segment commits there (02 R42). -/
def State.takeAsyncRequest (s : State) (x : CtxId) : State :=
  let c := s.ctx x
  if c.sys.pl || !c.sys.pending || c.flow.phase != .run || !c.flow.inflight.isEmpty || c.flow.group.isSome
      || !(c.flow.settle || (c.flow.asEntry && !(c.regs.loop.pipe && c.regs.loop.act != 0))) then s
  else if !c.flow.asEntry && !c.commitFits then s
  else
    let s := if c.flow.asEntry then s else s.commit x
    let s := s.modCtx x fun c => { c with
      flow := { c.flow with settle := false, hold := c.flow.hold.filter fun h => !h.before }
      regs := { c.regs with loop := { c.regs.loop with drn := false } } }
    if c.sys.wdog then (s.logTimeout x 0x0701).endTask x 6 0x0701 (some c.flow.pc)
    else if c.sys.quar || c.sys.pre then s.leave x .preempt
    else
      match lowestSlot c.sys.cperr with
      | none => s
      | some j =>
        let s := s.modCtx x fun c => { c with sys := { c.sys with cperr := c.sys.cperr &&& ~~~(BitVec.ofNat 24 (2 ^ j)) } }
        s.takeTrap x 0x0501 0 (BitVec.ofNat 64 j) (BitVec.ofNat 32 j) true c.flow.pc c.flow.pc

/-! ### The end of a cc (02 R48, 05 R97, R104) -/

/-- Results in flight advance one cc; those whose latency expires land, in the order of their issue (03 R52). -/
def Ctx.advance (c : Ctx) : Ctx :=
  let l := c.flow.inflight.map fun (r : InFlight) => { r with left := r.left - 1 }
  let c := { c with flow := { c.flow with inflight := l.filter fun r => r.left != 0 } }
  (l.filter fun r => r.left == 0).foldl (fun c r => c.land r.res) c
/-- AdvanceASet (05 R97, 03 R54). -/
def Regs.advanceA (r : Regs) (j : Nat) (h : j < 16) : Regs :=
  let a := r.a[j]
  { r with a := r.a.set j (mkAddr (addrId a) (addrOff a + r.stride[j])) }
def Regs.advanceSet (r : Regs) (m : BitVec 4) : Regs :=
  let go (r : Regs) (j : Nat) (h : j < 16) : Regs := if m.getLsbD j then r.advanceA j h else r
  go (go (go (go r 0 (by decide)) 1 (by decide)) 2 (by decide)) 3 (by decide)

/-- Where the context stands in its repeat group after a bundle: the group that goes on, if any (05 R97). -/
def Group.advance (g : Group) : Option Group :=
  if g.pos + 1 < g.lb then some { g with pos := g.pos + 1 }
  else if g.pass < g.n then some { g with pass := g.pass + 1, pos := 0 }
  else none

/-- The next bundle of a context at the end of a cc (05 R97, 06 R121, R125, R126). Where End[K] lies inside a repeat group no
pass ends there; one ends with the group where its last bundle is End[K] (DESIGN CHOICE, log 130). -/
def Ctx.nextBundle (c : Ctx) (target : Option BAddr) (cost : Nat) : Ctx :=
  let pc := c.flow.pc
  match target with
  | some t => { c with flow := { c.flow with pc := t, stall := cost, group := none } }
  | none =>
    match c.flow.group.bind Group.advance with
    | some g => { c with flow := { c.flow with group := some g, pc := g.head + BitVec.ofNat 51 g.pos } }
    | none =>
      match c.regs.loop.innermost with
      | some k =>
        if c.regs.loop.fin[k.toNat]'k.isLt = pc then
          let (r, t, drained) := c.regs.passEnd k 4
          { c with regs := r, flow := { c.flow with pc := t, group := none, settle := drained } }
        else { c with flow := { c.flow with pc := pc + 1, group := none } }
      | none => { c with flow := { c.flow with pc := pc + 1, group := none } }

/-- One cc accrues (02 R48, R41). -/
def Ctx.accrue (c : Ctx) : Ctx := { c with flow := { c.flow with cc := c.flow.cc + 1 }, wdc := c.wdc + 1 }
/-- A cc in which nothing issues: the null cc of Settle (06 R126). -/
def Ctx.nullCc (c : Ctx) : Ctx := c.advance.accrue

/-- A load whose line is missing freezes its context (09 R187). -/
def Ctx.freezeFills (c : Ctx) (bundle : BAddr) (late : Option (Slot × Word)) : Ctx :=
  if c.loadWaits (fun _ => true) then { c with flow := { c.flow with missed := late } }.refreeze bundle else c

/-- Whether the bundle being issued ends its segment or its task. -/
def Iss.closes (i : Iss) : Bool := i.ends || i.ending != .none

/-- What a bundle ends beside its segment (05 R87): the task, with TEND; a privileged operation waits; a TRAP raises its cause,
and a YIELD beside it still writes back, the cause pending (06 R130, R131; a YIELD beside TEND or a privileged operation does
nothing: DESIGN CHOICE, log 131). -/
def State.endBundle (s : State) (i : Iss) : State :=
  let yields (s : State) : State :=
    if !i.yields then s
    else
      match (s.ctx i.x).task with
      | some k => if s.soloTask k then s.leave i.x .yield else s.modCtx i.x fun c => { c with wdc := 0 }
      | none => s
  match i.ending with
  | .none => yields s
  | .tend => s.endTask i.x 5 0 none
  | .trap imm => yields (s.trapAtEntry i.x 0x0300 .S 0 (imm.zeroExtend 32) i.pc)
  | .sys w =>
    let w := match w with
      | .tlbi kind sc va _ => .tlbi kind sc va (s.ctx i.x).ownWrites
      | w => w
    s.modFlow i.x fun f => { f with phase := .sys w, frozen := 0 }

/-- A bundle that issues completes: scratchpad stores, results, the next bundle, and what commits with it. `aset` is the
auto-increment set of its group, `outside` whether it holds an external act (05 R97, R104, 02 R43, 14 R278). Its dc without
issue beside a taken transfer's is one more, and a copy of length 0 into memory has it too (DESIGN CHOICE, log 82). -/
def State.completeBundle (s : State) (aset : BitVec 4) (outside : Bool) : State :=
  let i := s.iss
  let x := i.x
  let s := s.modCore x.core fun k => { k with spLate := k.spLate ++ i.spWrites }
  let s := s.modCtx x fun c =>
    let c := c.advance
    (({ c with regs := c.regs.advanceSet aset, flow := { c.flow with last := i.pc } }).nextBundle i.target i.cost).accrue
  let s := s.next i.acts
  let s := if i.closes then s.commit x else s
  let s := if outside then s.modFlow x fun f => { f with stall := f.stall + 1 } else s
  let s := i.calls.foldl (fun s k =>
    let v : Word := match k.2.2 with
      | .op _ _ _ _ (.acq _ va _) => BitVec.ofNat 64 va
      | _ => 0
    s.sendCall x k.1 k.2.1 v k.2.2) s
  let s := s.modCtx x fun c => c.freezeFills i.pc i.late
  let s := match i.postHold with
    | some (.fence gd sc _) => s.modFlow x fun f => { f with hold := some (.fence gd sc (s.releaseWaits x)), held := 0 }
    | some h => s.modFlow x fun f => { f with hold := f.hold <|> some h, held := 0 }
    | none => s
  s.endBundle i

/-- NULL_BUNDLE: a bundle with no present slot changes nothing but what its header implies (05 R86). -/
def execNullBundle (s : State) : Out := .next s
/-- ILLEGAL_ENCODING: a fetched bundle that is no instruction; the segment aborts and the trap is taken at its entry
(05 R95, R96). -/
def execIllegalEncoding (mask : BitVec 9) (s : State) : Out := .next (s.syncTrap s.iss.x 0x0001 mask 0 0 s.iss.pc)

end Machine
end Sys2Proof
end

