-- ==== Sys2Proof/Machine/MemEvents.lean ====
section
/-! DEFINITION. Device events of memory and synchronisation: the directory and the L1s, drains and atomics at home, replies,
monitors, barrier arrivals, fences, holds and the watchdogs (09 R187-R198, 10 R213-R223, 18 R335, 20 R356-R365, 02 R41). -/

namespace Sys2Proof.Machine

/-! ### The directory and the L1s (20 R362-R365) -/

/-- A line granted to a core, with its data as the home has it. -/
def State.grant (s : State) (core : BitVec 8) (line : Nat) (st : LineSt) (guardTag : Nat) : State :=
  let (bs, po, _, s) := s.homeRead (line * 128) 128
  s.sendLine (homeDie (line * 128)) (coreDie core) core line
    (.ev (.l1Fill core line (BitVec.ofNat 1024 (bytesToNat bs)) st guardTag po.isSome))
/-- The entry of a line that one core now owns. -/
def State.ownDir (s : State) (core : BitVec 8) (line : Nat) : State :=
  s.touchDir { line := line, st := .e, sharers := [core], groups := none, awaiting := [], act := none, queue := [] }

/-- GETS (20 R363): a load miss at home; lines of non-coherent pages are not tracked (20 R362). -/
def State.gets (s : State) (core : BitVec 8) (line : Nat) (coh : Bool) (guardTag : Nat) : State :=
  let act : Act := .ev (.gets core line coh guardTag)
  if (s.memFor (coreDie core) (line * 128)).isNone then s.failEvent (homeDie (line * 128)) true (.gets core line coh guardTag)
  else if !coh then s.grant core line .nc guardTag
  else
    match s.dirEntry? line with
    | none =>
      match s.dirRoom line act with
      | some s => s
      | none => (s.ownDir core line).grant core line .e guardTag
    | some e =>
      if e.transient then s.queueDir line act
      else if e.st = .s then (s.touchDir (e.addSharer core)).grant core line .s guardTag
      else if e.targets = [core] then (s.ownDir core line).grant core line .e guardTag
      else s.recall e .ts e.targets .toS (some act)

/-- GETM (20 R363): a line drain asks for M. -/
def State.getm (s : State) (core : BitVec 8) (line : Nat) : State :=
  let act : Act := .ev (.getm core line)
  let own (s : State) : State := (s.ownDir core line).grant core line .m 0
  match s.dirEntry? line with
  | none =>
    match s.dirRoom line act with
    | some s => s
    | none => own s
  | some e =>
    if e.transient then s.queueDir line act
    else
      let others := e.targets.filter (· != core)
      if others.isEmpty then own s
      else s.recall e .tm others (if e.st = .s then .inv else .toI) (some act)

/-- PUTM (20 R363): a line held in E or M leaves its L1; any data goes home. A recall that crosses it finds I (20 R364). -/
def State.putm (s : State) (core : BitVec 8) (line : Nat) : State :=
  match (s.core core).l1Find line with
  | none => s
  | some l =>
    if l.st = .e ∨ l.st = .m then
      let s := if l.st = .m then (s.homeWriteAt (line * 128) (natToBytes l.data.toNat 128)).2 else s
      let s := s.modCore core fun k => k.l1Drop line
      match s.dirEntry? line with
      | some e =>
        if e.st ≠ .e ∨ e.targets ≠ [core] then s.modCore core fun k => k.staleFills fun n => n == line
        else if s.granting line then
          -- a grant that is still on its way brings what went home, and its core stays the owner
          s.mapActs (Act.patch line (line * 128) (s.peek (line * 128) 128))
        else (s.modCore core fun k => k.staleFills fun n => n == line).dropDir line
      | none => s.modCore core fun k => k.staleFills fun n => n == line
    else s

/-- INVALIDATION (20 R363, R364): an invalidation or a recall at an L1, acknowledged with the data of a line in M. -/
def State.invalidation (s : State) (core : BitVec 8) (line : Nat) (kind : Recall) : State :=
  match (s.core core).l1Find line with
  | none => s.sendReq core line (.invalidationAck core line none)
  | some l =>
    if l.st = .nc then s.sendReq core line (.invalidationAck core line none)
    else
      let data := if l.st = .m then some l.data else none
      let s := s.modCore core fun k =>
        if kind = .toS then { k with l1 := updWhere (fun (q : L1Line) => q.line == line) (fun q => { q with st := .s }) k.l1 } else k.l1Drop line
      s.sendReq core line (.invalidationAck core line data)

/-! ### Line drains, atomics and REL at home (09 R191, R192, R197, 10 R222) -/

/-- A line waits for the right to write; one request serves all drains of the core that wait for it. -/
def State.askM (s : State) (x : CtxId) (l : SbLine) : State :=
  let asked := !((s.ctx ⟨x.core, false⟩).drainsOf l.line ++ (s.ctx ⟨x.core, true⟩).drainsOf l.line).isEmpty
  let s := s.modCtx x fun c => { c with sb := updWhere (fun (q : SbLine) => q.id == l.id) (fun q => { q with draining := true }) c.sb }
  if asked then s else s.sendReq x.core l.line (.getm x.core l.line)

/-- LINE_DRAIN (09 R191): a committed line is drained: in the L1 in state M on a coherent page, at home otherwise. -/
def State.lineDrain (s : State) (x : CtxId) (id : Nat) : State :=
  match (s.ctx x).sb.find? fun l => l.id == id && l.committed with
  | none => s
  | some l =>
    let pa := l.line * 128
    if s.drainWaits x l then s.later (.ev (.lineDrain x id))
    else if (s.memFor x.die pa).isNone then s.failEvent (homeDie pa) true (.lineDrain x id)
    else if !l.coh || s.isDead pa then s.drainAtHome x l
    else
      match (s.core x.core).l1Find l.line with
      | some q =>
        if q.st = .e ∨ q.st = .m then s.drainInL1 x l
        else s.askM x l
      | none => s.askM x l

/-- A read-modify-write of n bytes at home, as one event (09 R197, 20 R359): the old value, the lowest poisoned block of the
bytes, whether a dead row refused the write, and the state after. -/
def State.modify (s : State) (x : CtxId) (pa n : Nat) (f : Nat → Nat) : Nat × Option Nat × Bool × State :=
  let (bs, po, _, s) := s.homeRead pa n
  let old := bytesToNat bs
  let (dead, s) := s.homeWriteAt pa (natToBytes (f old) n)
  (old, po, dead, s.dropOwn x.core (linesOf pa n))

/-- ATOMIC_AT_HOME (09 R197). One that has been counted as failed is not performed any more (11 R239). -/
def State.atomicAtHome (s : State) (x : CtxId) (id : Nat) (op : AtomicOp) (pa n : Nat) (a b : BitVec 128) (dst : Option GReg) : State :=
  let me : Event := .atomicAtHome x id op pa n a b dst
  let d := homeDie pa
  if !(s.ctx x).owed id then s
  else if (s.memFor x.die pa).isNone then s.failEvent d true me
  else if s.olderOwn x id [(pa, n)] then s.later (.ev me)
  else
    match s.clearLines true (.ev me) (linesOf pa n) with
    | some s => s
    | none =>
      match s.modify x pa n fun old => AtomicOp.apply op n old a.toNat b.toNat with
      | (old, po, dead, s) =>
        let s := if dead then s.countFailure x id d true else s.modCtx x fun c => c.done id
        match dst with
        | none => s
        | some r =>
          match po with
          | some blk => s.consumePoison x (blk * 512)
          | none =>
            let v := AtomicOp.result op n old
            s.send d x.die (moduleOf pa) (.ev (.replyArrival x id
              (if dead then .done else if n = 16 then .pair r v else .g r (v.extractLsb' 0 64))))

/-- REL_PERFORM (10 R222): one is added to bytes 0 to 7 of the sync word. -/
def State.relPerform (s : State) (x : CtxId) (id pa : Nat) : State :=
  let me : Event := .relPerform x id pa
  if !(s.ctx x).owed id then s
  else if (s.memFor x.die pa).isNone then s.failEvent (homeDie pa) true me
  else if s.olderOwn x id [(pa, 8)] then s.later (.ev me)
  else
    match s.clearLines true (.ev me) (linesOf pa 8) with
    | some s => s
    | none =>
      match s.modify x pa 8 (· + 1) with
      | (_, _, dead, s) => if dead then s.countFailure x id (homeDie pa) true else s.modCtx x fun c => c.done id

/-- Bit errors strike a stored block (20 R357): they are kept beside its data, which a correction leaves as they were; bits
struck twice are right again. -/
def State.strike (s : State) (blk : Nat) (bits : List Nat) : State :=
  if bits.isEmpty then s
  else
    let old := ((s.mem.flips.find? fun p => p.1 == blk).map (·.2)).getD []
    let now := (old.filter fun b => !bits.contains b) ++ bits.filter fun b => !old.contains b
    s.modMem fun m => { m with flips := if now.isEmpty then m.flips.filter (·.1 != blk) else (blk, now) :: m.flips.filter (·.1 != blk) }

/-! ### Replies (05 R100) -/

/-- What a reply writes; ACQ drops the lines that its object guards, and lines on their way do not stay (10 R222, 11 R235,
R236). -/
def State.takeReply (s : State) (x : CtxId) (r : Reply) : State :=
  match r with
  | .done => s
  | .g n v => s.modCtx x fun c => c.land (.g n v)
  | .pair n v => s.modCtx x fun c => (c.land (.g n (v.extractLsb' 0 64))).land (.g (n + 1) (v.extractLsb' 64 64))
  | .pred p b => s.modCtx x fun c => c.land (.p p b)
  | .fault sl code v bundle => s.trapAtEntry x code sl v 0 bundle
  | .acq scope va =>
    if scope = .core then s
    else s.modCore x.core fun k => Core.staleFills { k with l1 := k.l1.filter fun l => !(l.st == .nc && l.guardTag == va) } fun _ => true

/-- REPLY_ARRIVAL: the register is written and the freeze ends with the last reply; a reply that nothing waits for is
discarded (18 R335). -/
def State.replyArrival (s : State) (x : CtxId) (id : Nat) (r : Reply) : State :=
  let s := s.modCtx x fun c => c.done id
  if !(s.ctx x).flow.replies.contains id then s
  else
    let s := (s.takeReply x r).modFlow x fun f => { f with
      replies := f.replies.filter (· != id), asks := f.asks.filter (·.1 != id) }
    s.modCtx x fun c => c.refreeze ((c.flow.freeze.map (·.bundle)).getD c.flow.last)

/-! ### Monitors (09 R198, 10 R220) -/

/-- A hardware entry for the newest monitor of a core: beyond 256 the least recently armed one is evicted, which gives it a
pending event. -/
def State.monRoom (s : State) (core : BitVec 8) : State :=
  let hw (b : Bool) : List Mon := (s.ctx ⟨core, b⟩).mons.filter fun m => !m.spilled
  let all := hw false ++ hw true
  if all.length ≤ 256 then s
  else
    let oldest := all.foldl (fun n m => min n m.armed) s.nextId
    let out (c : Ctx) : Ctx := { c with
      mons := updWhere (fun m => !m.spilled && m.armed == oldest) (fun m => { m with spilled := true, pending := true }) c.mons }
    (s.modCtx ⟨core, false⟩ out).modCtx ⟨core, true⟩ out

/-- MONITOR_ARM (09 R198). -/
def State.monitorArm (s : State) (x : CtxId) (id : Nat) (mon : BitVec 12) (pa : Nat) : State :=
  if (s.memFor x.die pa).isNone then s.modCtx x fun c => c.done id
  else
    let (n, s) := s.newId
    (s.modCtx x fun c => { c.done id with mons := c.mons.filter (fun m => m.num != mon) ++ [⟨mon, pa / 64, false, false, n⟩] }).monRoom x.core

/-- SPURIOUS_MONITOR_EVENT (10 R220). -/
def State.spuriousMonitorEvent (s : State) (x : CtxId) (mon : BitVec 12) : State :=
  s.modCtx x fun c => { c with mons := updWhere (fun m => m.num == mon) (fun m => { m with pending := true }) c.mons }

/-! ### Barrier arrivals (10 R217, R219) -/

/-- The BARAW hold of a context whose own arrival has been counted, in this generation. -/
def Flow.setBaraw (f : Flow) (bar : BitVec 11) (id : Nat) (gen : BitVec 16) : Flow :=
  match f.hold with
  | some (.baraw b none) => if b = bar ∧ f.arrival = id then { f with hold := some (.baraw bar (some gen)) } else f
  | _ => f
/-- BARRIER_ARRIVAL: an arrival is counted at the gang's home core, or dropped at a free barrier. -/
def State.barrierArrival (s : State) (g : GangId) (bar : BitVec 11) (src : Option CtxId) (id : Nat) : State :=
  let s := match src with
    | some x => s.modCtx x fun c => c.done id
    | none => s
  match s.barrier? g bar with
  | none =>
    let s := s.bbDie (((s.gang? g).map (·.die)).getD 0) 0x32 (BitVec.ofNat 64 (g.lid % 2 ^ 24)) (bar.zeroExtend 64)
    match src with
    | some x =>
      if (s.ctx x).flow.hold = some (.baraw bar none) ∧ (s.ctx x).flow.arrival = id then
        (s.modFlow x fun f => { f with hold := none, held := 0 }).trapAtEntry x 0x000E .Y (bar.zeroExtend 64) 0 (s.ctx x).flow.last
      else s
    | none => s
  | some b =>
    let s := match src with
      | some x => s.modFlow x fun f => f.setBaraw bar id b.gen
      | none => s
    s.modBarrier g bar fun b =>
      if b.arrivals + 1 = b.expected.toNat then { b with arrivals := 0, gen := b.gen + 1 } else { b with arrivals := b.arrivals + 1 }

/-! ### Fences and holds (10 R213, R223) -/

/-- Whether FENCE's hold is over. -/
def State.fenceDue (s : State) (x : CtxId) : Bool :=
  match (s.ctx x).flow.hold with
  | some (.fence _ _ waits) => s.allDone x waits && (s.ctx x).flow.replies.isEmpty
  | _ => false
/-- FENCE_COMPLETE: gd and FSTAT receive the failures since the last FENCE (10 R223). -/
def State.fenceComplete (s : State) (x : CtxId) : State :=
  match (s.ctx x).flow.hold with
  | some (.fence gd _ _) =>
    if s.fenceDue x then
      s.modCtx x fun c =>
        let w := c.facc.word (c.facc.nfail == 0)
        let c := c.land (.g gd w)
        { c with regs := { c.regs with fstat := w.extractLsb' 0 12 }, facc := {}, flow := { c.flow with hold := none, held := 0 } }
    else s
  | _ => s
/-- Whether a hold other than FENCE's is over. -/
def State.holdDue (s : State) (x : CtxId) : Bool :=
  match (s.ctx x).flow.hold with
  | some (.fence ..) | none => false
  | some h => s.holdMet x h
/-- HOLD_RELEASE (10 R213); BARAW's on a barrier that is free ends with the barrier-state fault (10 R219). -/
def State.holdRelease (s : State) (x : CtxId) : State :=
  if s.holdDue x then
    match (s.ctx x).flow.hold with
    | some (.baraw bar _) =>
      if (s.barrier? (s.gangIdOf x) bar).isNone then s.freeHold x bar else s.modFlow x fun f => { f with hold := none, held := 0 }
    | _ => s.modFlow x fun f => { f with hold := none, held := 0 }
  else s
/-- Whether a hold has lasted 2^30 dc. -/
def Flow.holdExpired (f : Flow) : Bool := f.hold.isSome && decide (2 ^ 30 ≤ f.held)
/-- HOLD_TIMEOUT: the hold-timeout fault, taken at the entry of the segment (10 R213). -/
def State.holdTimeout (s : State) (x : CtxId) : State :=
  let f := (s.ctx x).flow
  match f.hold with
  | some h =>
    if f.holdExpired then
      (s.modFlow x fun f => { f with hold := none, held := 0 }).syncTrap x 0x0401 Slot.Y.mask 0 0 (if h.before then f.pc else f.last)
    else s
  | none => s

/-! ### Watchdogs (18 R335, 02 R41) -/

/-- Whether a freeze, or a wait that is bounded the same way, has lasted 2^16 dc. -/
def Flow.frozenOut (f : Flow) : Bool := decide (2 ^ 16 ≤ f.frozen)
/-- MEMORY_TIMEOUT: the frozen operation is abandoned and the memory-timeout cause is raised; a wait at a write-back, or of
MOWN and MGIVE, ends the task (18 R335). -/
def State.memoryTimeout (s : State) (x : CtxId) : State :=
  let f := (s.ctx x).flow
  let ends (s : State) : State := (s.logTimeout x 0x0402).endTask x 6 0x0402 none
  if !f.frozenOut then s
  else
    match f.phase, f.freeze with
    | .leaving _, _ => ends s
    | .sys (.ctxsv _), _ | .sys (.ctxld _), _ | .sys (.tlbi ..), _ =>
      ((s.logTimeout x 0x0402).modFlow x fun f => { f with phase := .run, frozen := 0 }).takeTrap x 0x0402 Slot.S.mask 0 0 false f.pc f.last
    | .sys _, _ => ends s
    | .run, some z =>
      let s := s.logTimeout x 0x0402
      if z.why = .own then s.endTask x 6 0x0402 none
      else if z.why = .reply ∧ f.asEntry then
        (s.modFlow x fun f => { f with freeze := none, frozen := 0, replies := [], asks := [] }).trapAtEntry x 0x0402 z.slot z.tval 0 z.bundle
      else s.syncTrap x 0x0402 z.slot.mask z.tval 0 z.bundle
    | _, _ => s

/-- The exponent of a context's progress watchdog: the launch block's, 22 for a task of no launch (02 R35, R41). -/
def State.wdlog (s : State) (x : CtxId) : Nat := ((s.launch? (s.gangIdOf x).lid).map fun l => blkWdlog l.block).getD 22
/-- Whether the progress watchdog of a context raises its request. -/
def State.watchdogDue (s : State) (x : CtxId) : Bool :=
  let c := s.ctx x
  c.task.isSome && !c.sys.wdog && decide (2 ^ s.wdlog x ≤ c.wdc) && (c.flow.phase == .run || c.flow.phase == .parked)
/-- PROGRESS_WATCHDOG (02 R41). -/
def State.progressWatchdog (s : State) (x : CtxId) : State :=
  if s.watchdogDue x then
    (s.request x fun y => { y with wdog := true }).modCtx x fun c => { c with wdogAt := some s.dc }
  else s
/-- Whether no resumption point has come within 2^16 dc of the watchdog's request. -/
def Ctx.hardDue (c : Ctx) (dc : Nat) : Bool :=
  c.flow.phase == .run && c.wdogAt.any fun d => decide (d + 2 ^ 16 ≤ dc)
/-- HARD_WATCHDOG (02 R41): the open segment is aborted and the task ends. -/
def State.hardWatchdog (s : State) (x : CtxId) : State :=
  if (s.ctx x).hardDue s.dc then
    let entry := (s.ctx x).entryPc
    ((s.logTimeout x 0x0702).abort x).endTask x 6 0x0702 (some entry)
  else s

end Sys2Proof.Machine
end

