-- ==== Sys2Proof/Machine/Queues.lean ====
section
/-! DEFINITION. Launch queues: doorbells, the SPAWN FIFOs, taking and refusing commands, completion words and entries
(18 R327-R330, 02 R35, R38, R39). -/

namespace Sys2Proof.Machine

/-! ### Queue descriptors (18 R327) -/

def State.queueRoot (s : State) (d : BitVec 2) (q : BitVec 4) : Word := (s.die d).qroot[q.toNat]'q.isLt
def State.queueAddr (s : State) (d : BitVec 2) (q : BitVec 4) : Nat := (s.die d).qdbase.toNat + 64 * q.toNat
/-- What the hardware holds of a descriptor: RCONS and CPROD, and zero in its Zero bits (00 R6, 18 R327). -/
def Die.descRo (z : Die) (q : BitVec 4) (b : BitVec 512) : BitVec 512 :=
  let mask : Nat := (2 ^ 35 - 1) * 2 ^ 384 + (2 ^ 287 - 1) * 2 ^ 4 + (2 ^ 16 - 1) * 2 ^ 291 + (2 ^ 16 - 1) * 2 ^ 435
  (b &&& ~~~(BitVec.ofNat 512 mask)) |||
    BitVec.ofNat 512 ((z.rcons[q.toNat]'q.isLt).toNat * 2 ^ 291 + (z.cprod[q.toNat]'q.isLt).toNat * 2 ^ 435)
/-- The descriptor of a queue, read through the queue's root, with the fields that only the hardware writes as it holds them. -/
def State.queueDesc (s : State) (d : BitVec 2) (q : BitVec 4) (again : Act) : State × SysRead :=
  match s.sysRead d (s.queueRoot d q) (s.queueAddr d q) 64 again with
  | (s, .got bs) => (s, .got (natToBytes ((s.die d).descRo q (BitVec.ofNat 512 (bytesToNat bs))).toNat 64))
  | r => r
/-- A descriptor whose RO or Zero bits in memory differ from what the hardware holds is put right (00 R6; log 149). -/
def State.syncQueue (s : State) (d : BitVec 2) (q : BitVec 4) : State :=
  if !rootEn (s.queueRoot d q) then s
  else
    match s.mappedNow d (s.queueRoot d q) (s.queueAddr d q) 64 with
    | [(pa, 64)] =>
      let now := match s.newest (pa / 128) with
        | some l => ((natToBytes l.toNat 128).drop (pa % 128)).take 64
        | none => s.peek pa 64
      let b := BitVec.ofNat 512 (bytesToNat now)
      let new := (s.die d).descRo q b
      if b = new then s else s.writeHome pa (natToBytes new.toNat 64)
    | _ => s
def State.syncQueues (s : State) : State :=
  [0#2, 1#2, 2#2, 3#2].foldl (fun s d => (List.range 16).foldl (fun s q => s.syncQueue d (BitVec.ofNat 4 q)) s) s
def bits512 (bs : List Byte) : BitVec 512 := BitVec.ofNat 512 (bytesToNat bs)
def dEn (b : BitVec 512) : Bool := b.getLsbD 2
def dDev (b : BitVec 512) : Bool := b.getLsbD 3
def dPri (b : BitVec 512) : BitVec 2 := b.extractLsb' 0 2
def dRlog (b : BitVec 512) : Nat := blkF b 323 4
def dClog (b : BitVec 512) : Nat := blkF b 451 4
def dRprod (b : BitVec 512) : BitVec 16 := b.extractLsb' 307 16
def dRcons (b : BitVec 512) : BitVec 16 := b.extractLsb' 291 16
def dCprod (b : BitVec 512) : BitVec 16 := b.extractLsb' 435 16
def dCcons (b : BitVec 512) : BitVec 16 := b.extractLsb' 419 16
/-- RLOG and CLOG between 4 and 15. -/
def dLogs (b : BitVec 512) : Bool := decide (4 ≤ dRlog b ∧ 4 ≤ dClog b)

/-- A field of 64 bytes in memory rewritten: the bytes that hold it, the bits beside it as they stood. -/
def State.putBits (s : State) (d : BitVec 2) (root : Word) (va : Nat) (b : BitVec 512) (lo n v : Nat) (again : Act) : State × SysWrote :=
  let m := (2 ^ n - 1) * 2 ^ lo
  let new := (b &&& ~~~(BitVec.ofNat 512 m)) ||| BitVec.ofNat 512 (v % 2 ^ n * 2 ^ lo)
  let o := lo / 8
  let k := (lo + n - 1) / 8 + 1 - o
  s.sysWrite d root (va + o) (((natToBytes new.toNat 64).drop o).take k) again
def State.putDesc (s : State) (d : BitVec 2) (q : BitVec 4) (b : BitVec 512) (lo n v : Nat) (again : Act) : State × SysWrote :=
  s.putBits d (s.queueRoot d q) (s.queueAddr d q) b lo n v again
/-- A queue error in the black-box record (22 R407). -/
def State.queueError (s : State) (d : BitVec 2) (q : BitVec 4) : State := s.bbDie d 0x33 (q.zeroExtend 64) (d.zeroExtend 64)

/-! ### Doorbells (18 R327, R330, R333) -/

/-- A doorbell: the dispatcher reads the descriptor; commands up to RPROD become visible, or the queue is disabled. -/
def State.ring (s : State) (d : BitVec 2) (q : BitVec 4) (again : Act) : State :=
  match s.queueDesc d q again with
  | (s, .got bs) =>
    let b := bits512 bs
    if !dEn b then s
    else if !dLogs b || decide (2 ^ dRlog b < (dRprod b - dRcons b).toNat) then
      match s.putDesc d q b 2 1 0 again with
      | (s, .wait) => s
      | (s, _) => s.queueError d q
    else
      s.modDie d fun z =>
        let old := z.bell[q.toNat]'q.isLt
        let prior := if old.1 = s.dc then old.2 else z.visible[q.toNat]'q.isLt
        { z with
          visible := z.visible.set q.toNat (dRprod b) q.isLt
          bell := z.bell.set q.toNat (s.dc, prior) q.isLt }
  | (s, _) => s
/-- DOORBELL (18 R327). -/
def State.doorbell (s : State) (d : BitVec 2) (q : BitVec 4) : State := s.ring d q (.ev (.doorbell d q))
/-- SCHDB (18 R333). -/
def State.schdb (s : State) (d : BitVec 2) (q : BitVec 4) : State := s.ring d q (.ev (.schdb d q))

/-! ### SPAWN FIFOs (18 R329) -/

/-- A command enters the FIFO of its queue; a SPAWN of the dc of a doorbell comes before what it made visible (18 R330). -/
def State.enterFifo (s : State) (d : BitVec 2) (q : BitVec 4) (c : SpawnCmd) : State :=
  (s.modDie d fun z =>
    let bell := z.bell[q.toNat]'q.isLt
    let before := if bell.1 = s.dc then bell.2 else z.visible[q.toNat]'q.isLt
    let l := z.fifo[q.toNat]'q.isLt
    { z with fifo := z.fifo.set q.toNat (l ++ [{ c with ringBefore := before }]) q.isLt }).modCtx c.x fun k => k.done c.id
/-- SPAWN_POST (06 R129, 18 R329): a full FIFO keeps the command waiting and counted. -/
def State.spawnPost (s : State) (x : CtxId) (id : Nat) (q : BitVec 4) (lba : BitVec 57) (dbg : Bool) (cookie : Word) : State :=
  let c : SpawnCmd := ⟨lba, dbg, cookie, x, id, 0⟩
  if ((s.die x.die).fifo[q.toNat]'q.isLt).length < 16 then s.enterFifo x.die q c
  else s.modDie x.die fun z => { z with spawnWait := z.spawnWait ++ [(q, c)] }
/-- The first command of a FIFO taken; one that waited enters. -/
def State.popFifo (s : State) (d : BitVec 2) (q : BitVec 4) : State :=
  let s := s.modDie d fun z => { z with fifo := z.fifo.set q.toNat (z.fifo[q.toNat]'q.isLt).tail q.isLt }
  match (s.die d).spawnWait.find? fun p => p.1 == q with
  | some p => (s.modDie d fun z => { z with spawnWait := z.spawnWait.filter fun w => w.2.id != p.2.id }).enterFifo d q p.2
  | none => s

/-! ### Pages that hardware needs resident (18 R330) -/

/-- A requester for what no task asked for: level 0, priority 0. -/
def noTask (root : Word) (d : BitVec 2) : Task :=
  { key := 0, lbp := 0, loopw := 0, spovf := 0, spb := 0, sps := 0, pri := 0, state := 0, img := false, fcode := 0, wdc := 0
    gang := ⟨0, 0, 0⟩, member := 0, die := d, ctxb := 0, entry := 0, tidx := 0, dbg := false, troot := root, since := 0, effPri := 0
    recipe := none, waits := [], lost := none, mons := [], facc := {}, cperr := 0 }
/-- Bassoon is asked to bring a page into HBM. -/
def State.fetchPage (s : State) (d : BitVec 2) (root : Word) (va : Nat) (e : TlbEntry) : State :=
  match s.tensors.find? fun t => t.st != 0 && t.root == root && decide (t.base ≤ va ∧ va < t.base + t.alloc) with
  | some t => if t.st = 6 then (s.referenceDropped t (noTask root d) 1).2 else s.wantTensor t.id 1
  | none =>
    match s.kvs.findSome? fun q => (q.pages.zipIdx.find? fun p => decide (p.1.va ≤ va ∧ va < p.1.va + 4096 * q.pageFrames)).map fun p => (q.id, p.2) with
    | some (id, i) => s.wantItem (.kv id (BitVec.ofNat 16 i))
    | none => s.wantItem (flatItem (va / 4096, e))

/-- What the dispatcher finds at a launch block's address. -/
inductive BlockRead where
  | got (b : BitVec 512)
  /-- It cannot be read: the launch is refused by its completion entry alone. -/
  | bad
  /-- Its page is not resident. -/
  | away
  | wait
  deriving DecidableEq, Repr
/-- A launch block read through its queue's root (18 R330). -/
def State.readBlock (s : State) (d : BitVec 2) (root : Word) (va : Nat) (again : Act) : State × BlockRead :=
  match s.walk d root va false with
  | (s, .error _) => (s, .bad)
  | (s, .ok e) =>
    let t := leafTier e.leaf
    if e.linkWait then (s.sysAgain .wait again, .wait)
    else if t = 6 then (s, .bad)
    else if 2 ≤ t then (s.fetchPage d root va e, .away)
    else
      match s.sysRead d root va 64 again with
      | (s, .got bs) => (s, .got (bits512 bs))
      | (s, .wait) => (s, .wait)
      | (s, _) => (s, .bad)

/-! ### Taking commands (18 R330, 02 R35) -/

/-- A command as the dispatcher takes it. -/
structure Cmd where
  lba : BitVec 57
  dbg : Bool
  cookie : Word
  /-- A one in the Zero field, or an entry that cannot be read. -/
  bad : Bool
  /-- The queue is open to it (18 R329). -/
  isOpen : Bool
  ring : Bool
  deriving DecidableEq, Repr

/-- The refusals of 02 R35 but for that of ENTRY. -/
def blockBad (b : BitVec 512) (part : Nat) : Bool :=
  decide (64 < blkSize b) || blkSize b == 0 || blkWcnt b == 0 || blkGcnt b == 0
    || decide (1 ≤ blkF b 419 5 ∧ blkF b 419 5 ≤ 15) || blkF b 426 4 &&& part != blkF b 426 4
    || blkF b 256 57 % 8 != 0 || blkF b 192 57 % 8 != 0 || blkF b 128 57 % 8 != 0 || decide (2048 < blkF b 51 11 + blkF b 313 12)

/-- A launch record for the completion of a refused launch: only its own actions are left (02 R35). -/
def refusedBlock (b : BitVec 512) : BitVec 512 :=
  let word := b.getLsbD 438 && blkF b 256 57 % 8 == 0
  let act := (if b.getLsbD 439 then 256 else 0) + (if word then 128 else 0) + 64
  (b &&& ~~~(BitVec.ofNat 512 (511 * 2 ^ 431))) ||| BitVec.ofNat 512 (act * 2 ^ 431)

/-- A launch enters the records; a refused one begins to complete at once. -/
def State.addLaunch (s : State) (l : Launch) (refused : Bool) : State :=
  let l := if refused then { l with waves := 0, errMark := true, nextWave := 2 ^ 16 } else l
  { s with work := { s.work with
    launches := s.work.launches ++ [l]
    completing := if refused then s.work.completing ++ [⟨.launch l.lid, 0⟩] else s.work.completing } }

/-- The command leaves its queue and receives its launch ID (18 R330). -/
def State.removeCmd (s : State) (d : BitVec 2) (q : BitVec 4) (pri : BitVec 2) (desc : BitVec 512) (ring : Bool) (again : Act) : State × Nat :=
  let s := s.modDie d fun z => { z with lastServed := z.lastServed.set pri.toNat q pri.isLt, lastCmd := some s.dc }
  let s := if ring then
      let n := dRcons desc + 1
      (s.putDesc d q desc 291 16 n.toNat again).1.modDie d fun z => { z with rcons := z.rcons.set q.toNat n q.isLt }
    else s.popFifo d q
  let n := (s.die d).lidCount
  (s.modDie d fun z => { z with lidCount := n + 1 }, d.toNat * 2 ^ 22 + n.toNat)

/-- A command taken from queue q; none where its launch block is not resident, and it stays untaken. -/
def State.takeFrom (s : State) (d : BitVec 2) (q : BitVec 4) (desc : BitVec 512) (c : Cmd) (again : Act) : State × Option State :=
  let root := s.queueRoot d q
  let mk (lid : Nat) (b : BitVec 512) (s : State) : Launch :=
    { lid := lid, die := d, queue := q, cookie := c.cookie, lba := c.lba, dbg := c.dbg, root := root, block := b, accepted := s.dc
      waves := blkWcnt b, nfault := 0, errMark := false, nextWave := 0, nextGang := 0, waveLeft := [], passedAt := none }
  let alone (s : State) : State :=
    match s.removeCmd d q (dPri desc) desc c.ring again with
    | (s, lid) => s.addLaunch (mk lid (BitVec.ofNat 512 (64 * 2 ^ 431)) s) true
  if c.bad ∨ c.lba.toNat % 64 ≠ 0 then (s, some (alone s))
  else
    match s.readBlock d root c.lba.toNat again with
    | (s, .away) => (s, none)
    | (s, .wait) => (s, some s)
    | (s, .bad) => (s, some (alone s))
    | (s, .got b) =>
      -- the bundle at ENTRY is read like the block; the block's LID is written where no L1 holds its line
      match s.readBlock d root (64 * (blkEntry b).toNat) again with
      | (s, .away) => (s, none)
      | (s, .wait) => (s, some s)
      | (s, e) =>
        let entryOk := match e with
          | .got h => h.getLsbD 1
          | _ => false
        match s.sysClear d root c.lba.toNat 64 again with
        | (s, false) => (s, some s)
        | (s, true) =>
          match s.removeCmd d q (dPri desc) desc c.ring again with
          | (s, lid) =>
            let s := (s.putBits d root c.lba.toNat b 360 24 lid again).1
            let b := (b &&& ~~~(BitVec.ofNat 512 ((2 ^ 24 - 1) * 2 ^ 360))) ||| BitVec.ofNat 512 (lid * 2 ^ 360)
            if !c.isOpen || !entryOk || blockBad b (partMask s.power.mode d) then (s, some (s.addLaunch (mk lid (refusedBlock b) s) true))
            else (s, some (s.addLaunch (mk lid b s) false))

/-- A queue that takes part: its level, its descriptor, and its next command. -/
structure Offer where
  q : BitVec 4
  desc : BitVec 512
  cmd : Cmd
  /-- A line that the dispatcher reads is being recalled. -/
  wait : Bool
  deriving DecidableEq, Repr

/-- What queue q offers (18 R330): the older of the FIFO's head and the ring's next command. -/
def State.queueOffer (s : State) (d : BitVec 2) (q : BitVec 4) (again : Act) : State × Option Offer :=
  let z := s.die d
  let head := (z.fifo[q.toNat]'q.isLt).head?
  if head.isNone ∧ z.visible[q.toNat]'q.isLt = z.rcons[q.toNat]'q.isLt then (s, none)
  else
    let pending : Offer := ⟨q, 3, ⟨0, false, 0, true, true, false⟩, true⟩
    let (s, desc) : State × Option (BitVec 512) :=
      match s.queueDesc d q again with
      | (s, .got bs) => (s, some (bits512 bs))
      | (s, .wait) => (s, none)
      | (s, _) => (s, some 0)
    match desc with
    | none => (s, some pending)
    | some desc =>
      let ringOk := dEn desc && (z.visible[q.toNat]'q.isLt != dRcons desc)
      match head.filter fun h => !ringOk || h.ringBefore == dRcons desc with
      | some h => (s, some ⟨q, desc, ⟨h.lba, h.dbg, h.cookie, false, dEn desc && dDev desc, false⟩, false⟩)
      | none =>
        if !ringOk then (s, none)
        else
          let a := blkF desc 327 57 + 16 * ((dRcons desc).toNat % 2 ^ dRlog desc)
          match s.sysRead d (s.queueRoot d q) a 16 again with
          | (s, .got bs) =>
            let w : BitVec 128 := BitVec.ofNat 128 (bytesToNat bs)
            (s, some ⟨q, desc, ⟨w.extractLsb' 0 57, w.getLsbD 57, w.extractLsb' 64 64, w.extractLsb' 58 6 != 0, true, true⟩, false⟩)
          | (s, .wait) => (s, some pending)
          | (s, _) => (s, some ⟨q, desc, ⟨0, false, 0, true, true, true⟩, false⟩)

/-- The place of a queue in the order of service: higher level first, then round-robin (18 R330). -/
def State.offerKey (s : State) (d : BitVec 2) (o : Offer) : Nat :=
  let pri := dPri o.desc
  let last := (s.die d).lastServed[pri.toNat]'pri.isLt
  if o.wait then 0 else (3 - pri.toNat) * 16 + (o.q - last - 1).toNat
/-- Least first. -/
def insertBy {α : Type} (key : α → Nat) (a : α) : List α → List α
  | [] => [a]
  | b :: t => if key a < key b then a :: b :: t else b :: insertBy key a t
def sortBy {α : Type} (key : α → Nat) (l : List α) : List α := l.foldl (fun acc a => insertBy key a acc) []

/-- The first offer whose command can be taken; a recall of a line that the dispatcher reads or writes is waited for. -/
def State.takeFirst (s : State) (d : BitVec 2) (again : Act) : List Offer → State
  | [] => s
  | o :: t =>
    if o.wait then s
    else
      match if o.cmd.ring then s.sysClear d (s.queueRoot d o.q) (s.queueAddr d o.q) 64 again else (s, true) with
      | (s, false) => s
      | (s, true) =>
        match s.takeFrom d o.q o.desc o.cmd again with
        | (_, some s) => s
        | (s, none) => s.takeFirst d again t

/-- Whether the dispatcher of a die may take a command now: 64 dc after the last, no shutdown (18 R330, 22 R404). -/
def State.commandDue (s : State) (d : BitVec 2) : Bool :=
  let z := s.die d
  s.power.shutdownAt.isNone && (z.lastCmd.all fun n => decide (n + 64 ≤ s.dc))
    && ((List.range 16).any fun q => !(z.fifo.getD q []).isEmpty || z.visible.getD q 0 != z.rcons.getD q 0)
/-- TAKE_COMMAND (18 R330). -/
def State.takeCommand (s : State) (d : BitVec 2) : State :=
  let again : Act := .ev (.takeCommand d)
  if !s.commandDue d then s
  else
    let (s, l) := (List.range 16).foldl (fun (acc : State × List Offer) q =>
      match acc.1.queueOffer d (BitVec.ofNat 4 q) again with
      | (s, some o) => (s, acc.2 ++ [o])
      | (s, none) => (s, acc.2)) (s, [])
    s.takeFirst d again (sortBy (s.offerKey d) l)

/-! ### Completion (02 R38, R39, 18 R328) -/

/-- What a completing unit reports: its launch, WAVE, GANG, its faults, the UNIT code and its bits W, E and I. -/
structure Report where
  l : Launch
  wave : Nat
  gang : Nat
  nfault : Nat
  err : Bool
  unit : Nat
  word : Nat
  w : Bool
  e : Bool
  i : Bool
  deriving DecidableEq, Repr

def State.report (s : State) (u : UnitRef) : Option Report :=
  match u with
  | .gang g =>
    match s.launch? g.lid, s.gang? g with
    | some l, some q =>
      let b := l.block
      let a := blkAct b
      some ⟨l, g.wave.toNat, g.gang.toNat, q.nfault, q.nfault != 0, 1
        , blkF b 128 57 + 8 * (g.wave.toNat * blkGcnt b + g.gang.toNat), a.getLsbD 1, a.getLsbD 0, a.getLsbD 2⟩
    | _, _ => none
  | .wave lid w =>
    match s.launch? lid with
    | some l =>
      let a := blkAct l.block
      let n := ((l.waveLeft.find? fun p => p.1 == w.toNat).map (·.2.2)).getD 0
      some ⟨l, w.toNat, 0, n, n != 0, 2, blkF l.block 192 57 + 8 * w.toNat, a.getLsbD 4, a.getLsbD 3, a.getLsbD 5⟩
    | none => none
  | .launch lid =>
    match s.launch? lid with
    | some l =>
      let a := blkAct l.block
      some ⟨l, 0, 0, l.nfault, l.nfault != 0 || l.errMark, 3, blkF l.block 256 57, a.getLsbD 7, a.getLsbD 6, a.getLsbD 8⟩
    | none => none
/-- The completion word (02 R39). -/
def Report.value (r : Report) : Word :=
  BitVec.ofNat 64 (2 ^ 63 + (if r.err then 2 ^ 62 else 0) + r.l.lid % 2 ^ 24 * 2 ^ 16 + min r.nfault 65535)
/-- The completion entry (18 R328). -/
def Report.entry (r : Report) : Nat :=
  r.l.cookie.toNat * 2 ^ 64 + r.unit * 2 ^ 62 + (if r.err then 2 ^ 61 else 0) + r.l.lid % 2 ^ 24 * 2 ^ 32 + r.wave * 2 ^ 16 + r.gang

def State.setStage (s : State) (u : UnitRef) (n : Nat) : State :=
  { s with work := { s.work with completing := updWhere (fun c => c.unit == u) (fun c => { c with stage := n }) s.work.completing } }
def State.beginUnit (s : State) (u : UnitRef) : State :=
  { s with work := { s.work with completing := s.work.completing ++ [⟨u, 0⟩] } }
/-- The records of a gang that has completed go. -/
def State.dropGang (s : State) (g : GangId) : State :=
  let ms := ((s.gang? g).map (·.members)).getD []
  let s := (ms.filterMap s.task?).foldl (fun s t => s.dropRecord t.recAt) s
  { s with work := { s.work with
    gangs := s.work.gangs.filter fun q => q.id != g, tasks := s.work.tasks.filter fun t => !ms.contains t.key } }
/-- The parent counter of a completed unit falls (02 R38). -/
def State.decrement (s : State) (u : UnitRef) (nfault : Nat) : State :=
  match u with
  | .gang g =>
    let s := s.dropGang g
    let w := g.wave.toNat
    let s := s.modLaunch g.lid fun l =>
      let (left, nf) := ((l.waveLeft.find? fun p => p.1 == w).map (·.2)).getD (blkGcnt l.block, 0)
      { l with waveLeft := (w, left - 1, nf + nfault) :: l.waveLeft.filter fun p => p.1 != w }
    match (s.launch? g.lid).bind fun l => l.waveLeft.find? fun p => p.1 == w with
    | some (_, 0, _) => s.beginUnit (.wave g.lid g.wave)
    | _ => s
  | .wave lid w =>
    let s := s.modLaunch lid fun l => { l with
      waves := l.waves - 1, nfault := l.nfault + nfault, waveLeft := l.waveLeft.filter fun p => p.1 != w.toNat }
    match s.launch? lid with
    | some l => if l.waves = 0 then s.beginUnit (.launch lid) else s
    | none => s
  | .launch lid => { s with work := { s.work with launches := s.work.launches.filter fun l => l.lid != lid } }

/-- The last actions of a unit: the interrupt, then the parent counter (02 R39). -/
def State.finishUnit (s : State) (u : UnitRef) (r : Report) : State :=
  let s := { s with work := { s.work with completing := s.work.completing.filter fun c => c.unit != u } }
  let s := if r.i then
      s.modHost (BitVec.ofNat 2 (partOf s.power.mode r.l.die)) fun h => { h with msix := h.msix ++ [BitVec.ofNat 8 (blkF r.l.block 440 8)] }
    else s
  s.decrement u r.nfault

/-- UNIT_COMPLETION (02 R39): the completion word is written; what follows waits for the entry where the E bit is set. -/
def State.unitCompletion (s : State) (u : UnitRef) : State :=
  match s.work.completing.find? fun c => c.unit == u && c.stage == 0, s.report u with
  | some _, some r =>
    let next (s : State) : State := if r.e then s.setStage u 1 else s.finishUnit u r
    if r.w then
      match s.sysWrite r.l.die r.l.root r.word (natToBytes r.value.toNat 8) (.ev (.unitCompletion u)) with
      | (s, .wait) => s
      | (s, _) => next s
    else next s
  | _, _ => s

/-- COMPLETION_ENTRY_POST (18 R328): the entry is posted, waits while the ring is full, or is dropped where CLOG is invalid. -/
def State.completionEntryPost (s : State) (u : UnitRef) : State :=
  let again : Act := .ev (.completionEntryPost u)
  match s.work.completing.find? fun c => c.unit == u && c.stage == 1, s.report u with
  | some _, some r =>
    let d := r.l.die
    let q := r.l.queue
    match s.queueDesc d q again with
    | (s, .wait) => s
    | (s, .got bs) =>
      let b := bits512 bs
      if dClog b < 4 then (s.queueError d q).finishUnit u r
      else if (dCprod b - dCcons b).toNat = 2 ^ dClog b then s
      else
        let a := blkF b 455 57 + 16 * ((dCprod b).toNat % 2 ^ dClog b)
        -- the entry and CPROD are written together, once no L1 holds either line
        match s.sysClear d (s.queueRoot d q) a 16 again with
        | (s, false) => s
        | (s, true) =>
          match s.sysClear d (s.queueRoot d q) (s.queueAddr d q) 64 again with
          | (s, false) => s
          | (s, true) =>
            let s := (s.sysWrite d (s.queueRoot d q) a (natToBytes r.entry 16) again).1
            let s := s.modDie d fun z => { z with cprod := z.cprod.set q.toNat (dCprod b + 1) q.isLt }
            (s.putDesc d q b 435 16 ((dCprod b).toNat + 1) again).1.finishUnit u r
    | (s, _) => (s.queueError d q).finishUnit u r
  | _, _ => s

end Sys2Proof.Machine
end

