-- ==== Sys2Proof/Machine/Sched.lean ====
section
/-! DEFINITION. The hardware scheduler: admission and placement of gangs, pickup, write-back, the release of contexts,
pre-emption, migration, duty (02 R27-R34, 03 R64-R66, 18 R331-R337, 22 R402, R403). -/

namespace Sys2Proof.Machine

/-! ### Free contexts (02 R33, 03 R64) -/

def dieCores (d : BitVec 2) : List (BitVec 8) := (List.range 64).map fun i => d ++ BitVec.ofNat 6 i
/-- Whether the loader may place a task on a core: not quarantined, and no side of a migration (14 R277, 18 R337). -/
def State.coreUsable (s : State) (c : BitVec 8) : Bool :=
  let k := s.core c
  !k.margin.quar && k.migrate.isNone && !(s.occ.any fun e => (s.core e).migrate == some c)
/-- The free contexts of a die's usable cores. -/
def State.freeCtxs (s : State) (d : BitVec 2) : List CtxId :=
  (dieCores d).flatMap fun c =>
    if s.coreUsable c then ([⟨c, false⟩, ⟨c, true⟩] : List CtxId).filter fun x => (s.ctx x).task.isNone else []

/-- The scratch claim of a gang: first row and rows; a recipe's gang has none. -/
def State.gangClaim (s : State) (g : GangId) : Nat × Nat := ((s.launch? g.lid).map fun l => claimOf l.block).getD (0, 0)
/-- What the other context of a core holds of the scratchpad: its gang, its carve-out, its claim. -/
def State.neighbour (s : State) (x : CtxId) : Option (GangId × (Nat × Nat) × (Nat × Nat)) :=
  (s.taskOf x.other).map fun t => (t.gang, (t.spb.toNat, t.sps.toNat), s.gangClaim t.gang)
def rowsMeet (a b : Nat × Nat) : Bool := rangesMeet a.1 a.2 b.1 b.2
/-- Whether the rule of 03 R64 lets a carve-out of a gang stand beside the other context of a core. -/
def State.carveFits (s : State) (x : CtxId) (carve : Nat × Nat) : Bool :=
  match s.neighbour x with
  | none => true
  | some (_, oc, ocl) => !rowsMeet carve oc && !rowsMeet carve ocl
/-- Likewise for the claim of the gang. -/
def State.claimFits (s : State) (x : CtxId) (g : GangId) : Bool :=
  match s.neighbour x with
  | none => true
  | some (og, oc, ocl) => !rowsMeet (s.gangClaim g) oc && (og == g || !rowsMeet (s.gangClaim g) ocl)
def State.fits (s : State) (x : CtxId) (t : Task) : Bool := s.claimFits x t.gang && s.carveFits x (t.spb.toNat, t.sps.toNat)
/-- The first rows that a new carve-out may take on a core. -/
def State.carveChoices (s : State) (x : CtxId) (g : GangId) (sps : Nat) : List Nat :=
  (List.range (2049 - sps)).filter fun r => !rowsMeet (r, sps) (s.gangClaim g) && s.carveFits x (r, sps)

/-- A context taken from a list by free choice (02 R33). -/
def State.pickCtx (s : State) (l : List CtxId) : Option (CtxId × State) :=
  let (n, s) := s.draw .placement
  (l[n % l.length]?).map fun x => (x, s)

/-! ### Admission (18 R331) -/

/-- A head gang: of a launch, or one that returns for admission. -/
structure Head where
  pri : Nat
  age : Nat
  gang : GangId
  back : Bool
  deriving DecidableEq, Repr

/-- Whether the next gang of a launch may be offered: with WSEQ its wave's predecessors have completed (02 R37). -/
def Launch.open (l : Launch) : Bool :=
  decide (l.nextWave < blkWcnt l.block) && (!blkWseq l.block || l.waves + l.nextWave == blkWcnt l.block)
/-- The head gangs that the dispatcher of a die offers, in order: higher PRI, then earlier acceptance or return. -/
def State.heads (s : State) (d : BitVec 2) : List Head :=
  let fresh := s.work.launches.filterMap fun l =>
    if l.die = d ∧ l.open then some (⟨(blkPri l.block).toNat, l.accepted, ⟨l.lid, BitVec.ofNat 16 l.nextWave, BitVec.ofNat 16 l.nextGang⟩, false⟩ : Head)
    else none
  let back := s.work.returning.filterMap fun r =>
    (s.launch? r.1.lid).bind fun l => if l.die = d then some (⟨(blkPri l.block).toNat, r.2.1, r.1, true⟩ : Head) else none
  sortBy (fun h => (3 - h.pri) * (s.dc + 1) + h.age) (fresh ++ back)
/-- The dies that a head gang may go to: those of DMASK; a gang that returns stays on its die (02 R34, R35). -/
def State.headDies (s : State) (h : Head) : List (BitVec 2) :=
  if h.back then ((s.gang? h.gang).map (·.die)).toList
  else
    match s.launch? h.gang.lid with
    | none => []
    | some l =>
      let m := blkF l.block 426 4
      [0#2, 1#2, 2#2, 3#2].filter fun d => if m = 0 then samePart s.power.mode l.die d else m.testBit d.toNat
/-- The die a head gang is offered to: the one with the most free contexts, ties to the lower number; one whose SRAM layer has shut
down runs nothing (20 R374). -/
def State.offerDie (s : State) (h : Head) : Option (BitVec 2) :=
  (((s.headDies h).filter fun d => !(s.die d).sramDown).foldl (fun (best : Option (BitVec 2 × Nat)) d =>
    let n := (s.freeCtxs d).length
    match best with
    | some (_, m) => if m < n then some (d, n) else best
    | none => if n = 0 then none else some (d, n)) none).map (·.1)
/-- Whether the first reservation of a die keeps a gang out. -/
def State.reservedFor (s : State) (d : BitVec 2) (g : GangId) : Bool :=
  match s.work.reserves.find? fun r => r.die == d with
  | some r => r.gang == g
  | none => true

/-- Ready solo records of a die: state 1 or 4; a reserved state is not run (02 R28). -/
def State.readySolos (s : State) (d : BitVec 2) : List Task :=
  s.work.tasks.filter fun t => t.die == d && (t.state == 1 || t.state == 4 || decide (8 ≤ t.state.toNat)) && s.soloTask t.key
    && (s.ctxOfTask t.key).isNone

/-- A new gang with its records (02 R27, R38). -/
def State.newGang (s : State) (l : Launch) (g : GangId) (d : BitVec 2) : State :=
  let n := blkSize l.block
  let (s, ks) := (List.range n).foldl (fun (acc : State × List Nat) m =>
    let (k, s) := acc.1.makeTask l g d m
    (s, acc.2 ++ [k])) (s, [])
  { s with work := { s.work with gangs := s.work.gangs ++ [⟨g, d, 0, n, 0, false, false, [], ks, false⟩] } }

/-- The free contexts of a die that may take a record, the carve-out of a new one being still to be chosen (03 R64). -/
def State.seats (s : State) (d : BitVec 2) (t : Task) (fresh : Bool) : List CtxId :=
  (s.freeCtxs d).filter fun x =>
    if fresh then s.claimFits x t.gang && !(s.carveChoices x t.gang t.sps.toNat).isEmpty else s.fits x t
/-- A context found for one member: on a core that holds no member yet while one is left; a new record's carve-out is chosen
with the core (02 R33, 03 R64). -/
def State.seatFor (s : State) (d : BitVec 2) (k : Nat) (fresh : Bool) (used : List (BitVec 8)) : Option (CtxId × State) :=
  match s.task? k with
  | none => none
  | some t =>
    let sps := t.sps.toNat
    let ok := s.seats d t fresh
    let apart := ok.filter fun x => !used.contains x.core
    (s.pickCtx (if apart.isEmpty then ok else apart)).map fun (x, s) =>
      let s :=
        if fresh then
          let l := s.carveChoices x t.gang sps
          let (n, s) := s.draw .loaderSpb
          s.modTask k fun t => { t with spb := BitVec.ofNat 11 (l.getD (n % l.length) 0) }
        else s
      (x, s)
/-- A list from a place of open choice on. -/
def rotate {α : Type} (n : Nat) (l : List α) : List α := l.drop (n % l.length) ++ l.take (n % l.length)
/-- Every member takes a context, or none does: from a free choice on, on cores apart first, each new carve-out with its core, until a
placement is found (02 R33, 03 R64). -/
def State.seatAll (s : State) (d : BitVec 2) (fresh : Bool) : List Nat → List CtxId → Option (List (CtxId × Nat) × State)
  | [], _ => some ([], s)
  | k :: t, xs =>
    match s.task? k with
    | none => none
    | some m =>
      let (n, s) := s.draw .placement
      let (w, s) := s.draw .loaderSpb
      let ok := s.seats d m fresh
      let apart := ok.filter fun x => !xs.any fun y => y.core == x.core
      let shared := ok.filter fun x => xs.any fun y => y.core == x.core
      (rotate n apart ++ rotate n shared).findSome? fun x =>
        (if fresh then rotate w (s.carveChoices x m.gang m.sps.toNat) else [m.spb.toNat]).findSome? fun r =>
          let s := (s.modTask k fun q => { q with spb := BitVec.ofNat 11 r }).modCtx x fun c => { c with task := some k }
          (s.seatAll d fresh t (xs ++ [x])).map fun (l, s) => ((x, k) :: l, s)

/-- A core joins those with an occupied context, in ascending order. -/
def insertCore (c : BitVec 8) : List (BitVec 8) → List (BitVec 8)
  | [] => [c]
  | e :: t => if c = e then e :: t else if c.ult e then c :: e :: t else e :: insertCore c t
def State.occupy (s : State) (c : BitVec 8) : State := { s with occ := insertCore c s.occ }
/-- Cores none of whose contexts is occupied leave the list, and shed their migration. -/
def State.vacate (s : State) (c : BitVec 8) : State :=
  let k := s.core c
  if k.ctx0.task.isNone ∧ k.ctx1.task.isNone then
    (({ s with occ := s.occ.filter (· != c) }).landSp c).modCore c fun k => { k with migrate := none }
  else s
/-- What a context keeps of a task that has left: nothing but its place, where its gang still holds it. -/
def Ctx.empty (c : Ctx) (keep : Option Nat) : Ctx :=
  { regs := c.regs, v := c.v, sreg := c.sreg, tregs := c.tregs, replays := c.replays, task := keep
    sys := { c.sys with pl := false, mowned := false, pre := false, quar := false, wdog := false, cperr := 0 } }
/-- A context becomes free; while a gang reserves its die it stays free for that gang (18 R331, R332). -/
def State.freeCtx (s : State) (x : CtxId) : State :=
  let wait := s.work.reserves.any fun r => r.die == x.die
  (s.modCtx x fun c => { c.empty none with kept := wait }).vacate x.core
/-- L1 lines of non-coherent pages, and those on their way, may be older than what a task has seen or acquired on another core:
they go when the task starts on this one (11 R229, R236; the means are the model's: log 132). -/
def State.dropOld (s : State) (c : BitVec 8) : State :=
  s.modCore c fun k => Core.staleFills { k with l1 := k.l1.filter fun l => l.st != .nc } fun _ => true

/-- A gang of two or more tasks placed: its members' contexts pick their tasks up in this dc. -/
def State.placeGang (s : State) (g : GangId) (fresh : Bool) : Option State :=
  match s.gang? g with
  | none => none
  | some q =>
    (s.seatAll q.die fresh ((s.liveMembers q).map (·.key)) []).map fun (l, s) =>
      let s := l.foldl (fun s p => s.occupy p.1.core) s
      let s := s.modGang g fun q => { q with
        placed := true, leaving := false, homed := true, home := if fresh then (l.head?.map (·.1.core)).getD q.home else q.home }
      s.next (l.map fun p => .ev (.pickup p.1 p.2))

/-- The launch's next gang becomes its head (02 R37). -/
def Launch.advance (l : Launch) : Launch :=
  if l.nextGang + 1 < blkGcnt l.block then { l with nextGang := l.nextGang + 1, passedAt := none }
  else { l with nextWave := l.nextWave + 1, nextGang := 0, passedAt := none }
/-- A gang that has been placed is no head and reserves nothing; the contexts of a die that another gang still reserves stay free
for that one (18 R331, R332). -/
def State.admitted (s : State) (h : Head) : State :=
  let held := (s.work.reserves.filter fun r => r.gang == h.gang).filter fun r =>
    !s.work.reserves.any fun q => q.gang != h.gang && q.die == r.die
  let s := { s with work := { s.work with
    reserves := s.work.reserves.filter fun r => r.gang != h.gang, returning := s.work.returning.filter fun r => r.1 != h.gang } }
  let s := (held.flatMap fun r => s.freeCtxs r.die).foldl (fun s x => s.modCtx x fun c => { c with kept := false }) s
  if h.back then s else s.modLaunch h.gang.lid Launch.advance
/-- A head gang placed on a die, where it can be. A gang of one task becomes a ready record, where a free context that may take it is
left beside those that waiting records may take; one that reserves the die takes its context at once (log 133). -/
def State.tryPlace (s : State) (h : Head) (d : BitVec 2) : Option State :=
  if h.back then (s.placeGang h.gang false).map (·.admitted h)
  else
    (s.launch? h.gang.lid).bind fun l =>
      let s' := s.newGang l h.gang d
      if 1 < blkSize l.block ∨ (s.work.reserves.any fun r => r.gang == h.gang) = true then (s'.placeGang h.gang true).map (·.admitted h)
      else
        let k := s.work.nextTask
        let open_ := ((s'.task? k).map fun t => s'.seats d t true).getD []
        let rivals := (s.readySolos d).filter fun t => open_.any fun x => s.fits x t
        if rivals.length < open_.length then (s'.seatFor d k true []).map fun p => p.2.admitted h else none
/-- A head gang is passed over; the count runs from the first time. -/
def State.passOver (s : State) (h : Head) : State :=
  if h.back then
    { s with work := { s.work with returning := updWhere (fun r => r.1 == h.gang) (fun r => (r.1, r.2.1, r.2.2 <|> some s.dc)) s.work.returning } }
  else s.modLaunch h.gang.lid fun l => { l with passedAt := l.passedAt <|> some s.dc }
def State.offerHead (s : State) (h : Head) : State :=
  match s.offerDie h with
  | none => s
  | some d => if s.reservedFor d h.gang then (s.tryPlace h d).getD (s.passOver h) else s.passOver h
/-- Whether the dispatcher of a die offers gangs: while contexts are free, and no shutdown runs (22 R404). -/
def State.admitDue (s : State) (d : BitVec 2) : Bool :=
  s.power.shutdownAt.isNone && !(s.die d).sramDown && (s.heads d).any fun h => (s.offerDie h).isSome
/-- ADMIT_GANG (18 R331): each head gang is offered once. -/
def State.admitGang (s : State) (d : BitVec 2) : State :=
  if s.admitDue d then (s.heads d).foldl (fun s h => s.offerHead h) s else s

/-- The head that a gang is, with the dc from which it has been passed over. -/
def State.passedHead (s : State) (g : GangId) : Option (Head × Nat) :=
  match s.work.returning.find? fun r => r.1 == g with
  | some (_, at_, some p) => (s.launch? g.lid).map fun l => (⟨(blkPri l.block).toNat, at_, g, true⟩, p)
  | some (_, _, none) => none
  | none => (s.launch? g.lid).bind fun l =>
      if BitVec.ofNat 16 l.nextWave = g.wave ∧ BitVec.ofNat 16 l.nextGang = g.gang ∧ l.nextWave < 2 ^ 16 then
        l.passedAt.map fun p => (⟨(blkPri l.block).toNat, l.accepted, g, false⟩, p)
      else none
/-- The die that a gang would be offered: where no context is free, the lowest of its dies. -/
def State.wouldOffer (s : State) (h : Head) : Option (BitVec 2) := s.offerDie h <|> (s.headDies h).head?
/-- Whether a gang has been passed over for 2^20 dc and reserves nothing yet. -/
def State.reservationDue (s : State) (g : GangId) : Bool :=
  !(s.work.reserves.any fun r => r.gang == g) && (s.passedHead g).any fun p => decide (p.2 + 2 ^ 20 ≤ s.dc)
/-- GANG_RESERVATION (18 R331). -/
def State.gangReservation (s : State) (g : GangId) : State :=
  if !s.reservationDue g then s
  else
    match (s.passedHead g).bind fun p => s.wouldOffer p.1 with
    | some d => { s with work := { s.work with reserves := s.work.reserves ++ [⟨g, d⟩] } }
    | none => s

/-! ### Pickup (02 R29, 03 R64-R66, 18 R332) -/

/-- The effective priority of a waiting record. -/
def Task.effNow (t : Task) (dc : Nat) : BitVec 2 := BitVec.ofNat 2 (min 3 (t.pri.toNat + (dc - t.since) / 2 ^ 20))
def State.promotionDue (s : State) (t : Task) : Bool :=
  (t.state == 1 || t.state == 4) && t.effPri.ult (t.effNow s.dc) && s.soloTask t.key
/-- PRIORITY_PROMOTION (18 R332). -/
def State.priorityPromotion (s : State) (k : Nat) : State :=
  match s.task? k with
  | some t => if s.promotionDue t then s.modTask k fun t => { t with effPri := t.effNow s.dc } else s
  | none => s

/-- The task index (02 R36), from the record and its launch. -/
def State.taskIndex (s : State) (t : Task) : Nat :=
  match s.launch? t.gang.lid with
  | some l => (t.gang.wave.toNat * blkGcnt l.block + t.gang.gang.toNat) * blkSize l.block + t.member.toNat
  | none => t.tidx
/-- Dispatch order: effective priority, age, task index, LID. -/
def Task.before (a b : Task) : Bool :=
  if a.effPri ≠ b.effPri then b.effPri.ult a.effPri
  else if a.since ≠ b.since then decide (a.since < b.since)
  else if a.tidx ≠ b.tidx then decide (a.tidx < b.tidx)
  else decide (a.gang.lid < b.gang.lid)
def insertTask (a : Task) : List Task → List Task
  | [] => [a]
  | b :: t => if a.before b then a :: b :: t else b :: insertTask a t
/-- The next pickup of a die: the first ready record that a free context may take, and the context. A context freed while a
gang reserves the die takes none (18 R332). -/
def State.nextPickup (s : State) (d : BitVec 2) : Option (CtxId × Nat × State) :=
  let ready := (s.readySolos d).foldl (fun l t => insertTask { t with tidx := s.taskIndex t } l) []
  if ready.isEmpty || s.power.shutdownAt.isSome || (s.die d).sramDown then none
  else
    let free := (s.freeCtxs d).filter fun x => !(s.ctx x).kept
    ready.findSome? fun t => (s.pickCtx (free.filter fun x => s.fits x t)).map fun p => (p.1, t.key, p.2)

/-- The members of one more set of failures (10 R223). -/
def FAcc.join (a b : FAcc) : FAcc := ⟨a.dmask ||| b.dmask, a.nfail + b.nfail, a.refused || b.refused, a.lost || b.lost⟩

/-- Duty of a core's column and of its die (22 R403). -/
def minDuty (a b : BitVec 5) : BitVec 5 := if a.ult b then a else b
def State.coreDuty (s : State) (c : BitVec 8) : BitVec 5 :=
  let m := (s.core c).margin
  let t := s.opTable (coreDie c)
  minDuty (minDuty (minDuty m.cduty m.thermal) t.colCap) (minDuty (s.die (coreDie c)).dthm.dduty t.dieCap)
/-- The duty of a context: the members of a gang with a barrier not free share the lowest (18 R336). -/
def State.dutyOf (s : State) (x : CtxId) : BitVec 5 :=
  let own := s.coreDuty x.core
  match s.gangOf x with
  | none => own
  | some g =>
    if g.solo || g.barriers.isEmpty then own
    else (g.members.filterMap s.ctxOfTask).foldl (fun d y => minDuty d (s.coreDuty y.core)) own
/-- DUTY_TAKES_EFFECT (18 R336): at a window boundary. -/
def State.dutyTakesEffect (s : State) (x : CtxId) : State :=
  if s.dc % 16 = 0 then s.modCtx x fun c => { c with sys := { c.sys with duty := s.dutyOf x } } else s

/-- The contexts that run no task take on the duty of their column at a window boundary, so that a task picked up in mid-window
finds the value in force (18 R336). -/
def State.idleDuty (s : State) : State :=
  { s with cores := s.cores.mapFinIdx fun i k _ =>
    let d := s.coreDuty (BitVec.ofNat 8 i)
    let fix (c : Ctx) : Ctx := if c.task.isNone && c.sys.duty != d then { c with sys := { c.sys with duty := d } } else c
    { k with ctx0 := fix k.ctx0, ctx1 := fix k.ctx1 } }

/-- The duties of a window that begins: of running tasks and of idle contexts (18 R336). -/
def State.refreshDuties (s : State) : State :=
  (s.occ.flatMap fun c => [⟨c, false⟩, ⟨c, true⟩]).foldl (fun s (x : CtxId) => if (s.ctx x).task.isSome then s.dutyTakesEffect x else s) s.idleDuty

/-- Duties follow a change of the table that falls on a window's first dc (22 R401). -/
def State.dutiesAt (s : State) : State :=
  match s.dc % 16 with
  | 0 => s.refreshDuties
  | _ => s

/-- The registers that a record sets (02 R29, R36, 03 R59, R64). -/
def State.taskRegs (s : State) (t : Task) : TaskRegs :=
  let (gx, gy) := match s.launch? t.gang.lid with
    | some l => (blkGx l.block, blkGy l.block)
    | none => (1, 1)
  let m := t.member.toNat
  { vcore := BitVec.ofNat 16 (m / gx * 256 + m % gx), gsize := BitVec.ofNat 16 (gy * 256 + gx)
    taskid := BitVec.ofNat 64 (t.gang.lid % 2 ^ 24 * 2 ^ 40 + s.taskIndex t % 2 ^ 40)
    lbp := t.lbp, spbase := t.spb, spsize := t.sps, spovf := t.spovf }
/-- ResetContext: the pickup values of 03 R50, RDMAX by the RDM of the launch block, and a recipe's arguments (12 R253). -/
def pickupRegs (t : Task) (rdm : Nat) : Regs :=
  match t.recipe with
  | none => { rdmax := BitVec.ofNat 3 (rdm + 1) }
  | some r =>
    let rs : Regs := { rdmax := r.rdmax }
    ((rs.setG 1 (r.arg.zeroExtend 64)).setG 2 (r.tensor.zeroExtend 64)).setG 3 (BitVec.ofNat 64 r.level)
/-- RDM as PickUp reads it: of the launch block that the record names, in memory; where that cannot be read, of the block as it was
accepted (DESIGN CHOICE, log 145). None while the read waits. -/
def State.pickupRdm (s : State) (x : CtxId) (t : Task) (again : Act) : State × Option Nat :=
  let kept := ((s.launch? t.gang.lid).map fun l => blkF l.block 424 2).getD 0
  if t.img || t.recipe.isSome then (s, some 0)
  else
    match s.sysRead x.die t.troot t.lbp.toNat 64 again with
    | (s, .wait) => (s, none)
    | (s, .got bs) => (s, some (blkF (bits512 bs) 424 2))
    | (s, _) => (s, some kept)
/-- A context as its task finds it before an image is loaded. -/
def State.freshCtx (s : State) (x : CtxId) (t : Task) (rdm : Nat) (flatb : BitVec 57) (flats : BitVec 40) : Ctx :=
  let c := s.ctx x
  { regs := pickupRegs t rdm, tregs := s.taskRegs t, task := some t.key, wdc := t.wdc, mons := t.mons, facc := t.facc
    flow := { pc := t.entry, last := t.entry, phase := .idle, pendingTrap := t.pendingTrap }
    sys := { c.sys with
      pl := false, mowned := false, dbg := t.dbg, flatb := flatb, flats := flats, ctxb := t.ctxb, pre := t.pre, quar := false
      wdog := t.wdog, cperr := t.cperr, troot := t.troot } }
/-- FLATB and FLATS from the header of the context block (17 R325); zero where it cannot be read (log 13). -/
def State.flatHeader (s : State) (x : CtxId) (t : Task) (again : Act) : State × Option (BitVec 57 × BitVec 40) :=
  match s.sysRead x.die t.troot t.ctxb.toNat 64 again with
  | (s, .wait) => (s, none)
  | (s, .got bs) =>
    let h : BitVec 512 := BitVec.ofNat 512 (bytesToNat bs)
    (s, some (h.extractLsb' 448 57, h.extractLsb' 384 40))
  | (s, _) => (s, some (0, 0))
/-- The task starts in its context, its failures and copy errors of the time without a context added. A gang's home core is the
one on which member 0 is first placed, for its whole life (10 R215). -/
def State.startTask (s : State) (x : CtxId) (t : Task) : State :=
  let s := s.dropOld x.core
  let s := s.modCtx x fun c => { c with
    facc := if t.img then c.facc.join t.facc else c.facc
    sys := { c.sys with cperr := c.sys.cperr ||| t.cperr }, flow := { c.flow with phase := .run } }
  let s := s.modTask t.key fun t => { t with
    state := 2, effPri := t.pri, waits := [], mons := [], facc := {}, cperr := 0, pendingTrap := none, pre := false, wdog := false }
  s.modGang t.gang fun g => if g.homed then g else { g with home := x.core, homed := true }
/-- A gang none of whose live members runs any more gives up its contexts, all together (02 R34). -/
def State.freeGang (s : State) (g : GangId) : State :=
  match s.gang? g with
  | none => s
  | some q =>
    if (s.liveMembers q).any fun t => t.state == 2 || (s.ctxOfTask t.key).any fun x => (s.ctx x).flow.phase != .idle then s
    else
      let xs := q.members.filterMap s.ctxOfTask
      let s := xs.foldl (fun s x => s.freeCtx x) s
      (s.modGang g fun q => { q with placed := false, leaving := false }).returnGang g

/-- PICKUP (02 R29). A record in a reserved state, or one without an image but with a loop, is not run (02 R28). -/
def State.pickup (s : State) (x : CtxId) (k : Nat) : State :=
  let again : Act := .ev (.pickup x k)
  match s.task? k with
  | none => s
  | some t =>
    let c := s.ctx x
    if (s.die x.die).sramDown then
      -- a die whose SRAM layer has shut down runs nothing: the task ends as its running ones have (20 R374)
      (if t.ended || c.task != some k then s else ((s.modCtx x fun c => c.empty (some k)).modTask k fun t => { t with fcode := 0x0703 }).taskEnded k 6).freeGang t.gang
    else if !(c.task.isNone || (c.task == some k && c.flow.phase == .idle)) || t.ended || !(c.task == some k || (s.ctxOfTask k).isNone) then s
    else if 8 ≤ t.state.toNat ∨ (!t.img ∧ t.loopw ≠ 0) then
      (s.modTask k fun t => { t with fcode := 0x0705 }).taskEnded k 6
    else
      match s.flatHeader x t again with
      | (s, none) => s
      | (s, some (fb, fs)) =>
      match s.pickupRdm x t again with
      | (s, none) => s
      | (s, some rdm) =>
        let s := (s.modCtx x fun _ => s.freshCtx x t rdm fb fs).occupy x.core
        let s := s.modTask k fun t => { t with state := 2 }
        if !t.img then s.startTask x t
        else
          match s.loadImageAt x t.ctxb.toNat again with
          | (s, .wait) => s
          | (s, .done) => s.startTask x t
          | (s, .bad) => s.failContext x

/-! ### Write-back and release (02 R30, R32, R34, 03 R65) -/

/-- Locks go with the image; monitors go to the spill table with a pending event (17 R324). -/
def State.leaveLocks (s : State) (x : CtxId) : State := (s.ctx x).locks.foldl (fun s l => s.tunlockAt x l.base) s
def Mon.spill (m : Mon) : Mon := { m with pending := true, spilled := true }

/-- The state that a write-back gives the record (02 R30); a task whose pages came meanwhile is ready. -/
def Leave.state (why : Leave) (t : Task) : BitVec 4 :=
  match why with
  | .yield => 1
  | .preempt => if t.waits.isEmpty then 4 else 3
  | .miss | .parkedGang => if t.waits.isEmpty then 1 else 3
/-- The record is written (02 R30); with it go a cause that waits for the entry and the requests that the write-back leaves pending
(17 R322, R323). -/
def State.writeRecord (s : State) (x : CtxId) (k : Nat) (why : Leave) : State :=
  let c := s.ctx x
  s.modTask k fun t => { t with
    state := why.state t, img := true, loopw := c.regs.loopWord, entry := c.entryPc, since := s.dc, effPri := t.pri
    wdc := if why = .yield then 0 else min c.wdc (2 ^ 32 - 1), mons := c.mons.map Mon.spill
    pendingTrap := c.flow.pendingTrap, pre := c.sys.pre && why != .preempt, wdog := c.sys.wdog }
/-- Whether a write-back can be made, or its wait can go on by stopping engine work. -/
def State.writeBackDue (s : State) (x : CtxId) : Bool :=
  let c := s.ctx x
  (match c.flow.phase with
   | .leaving _ => true
   | _ => false) && (s.saveReady x || c.canStop)
/-- WRITE_BACK (02 R30, 03 R65). -/
def State.writeBack (s : State) (x : CtxId) : State :=
  let c := s.ctx x
  match c.flow.phase, c.task with
  | .leaving why, some k =>
    if !s.saveReady x then s.stopWork x
    else
      (match s.saveImage x c.sys.ctxb.toNat (.ev (.writeBack x)) with
      | (s, .wait) => s
      | (s, .bad) => s.failContext x
      | (s, .done) =>
        let s := (s.leaveLocks x).writeRecord x k why
        let g := s.gangIdOf x
        if s.soloTask k then s.freeCtx x
        else (s.modCtx x fun c => c.empty (some k)).freeGang g)
  | _, _ => s

/-- Whether an ending task's context is released: its counters are zero; a task that fails has no counted work. -/
def State.releaseDue (s : State) (x : CtxId) : Bool :=
  let c := s.ctx x
  match c.flow.phase with
  | .ending st => st == 7 || (c.ns == 0 && c.nc == 0 && c.nt == 0)
  | _ => false
/-- TASK_RELEASE (02 R30, R34): the record ends and counts; a solo task's context is free, a gang's members wait for each
other. -/
def State.taskRelease (s : State) (x : CtxId) : State :=
  let c := s.ctx x
  match c.flow.phase, c.task with
  | .ending st, some k =>
    if !s.releaseDue x then s
    else
      let solo := s.soloTask k
      let g := s.gangIdOf x
      let s := s.leaveLocks x
      let s := { s with jobs := s.jobs.filter fun j => j.task != k }
      let s := s.modCtx x fun c => c.empty (some k)
      let s := s.taskEnded k st
      if solo then s.freeCtx x else s.freeGang g
  | _, _ => s

/-! ### Migration (18 R337) -/

/-- Whether a context runs its task: neither parked nor away from it. -/
def Ctx.runs (c : Ctx) : Bool :=
  c.task.isSome && (match c.flow.phase with
    | .run | .sys _ => true
    | _ => false)
/-- MIGRATION_REQUEST: a free unquarantined core of the die is the target; with none, nothing happens. The request reaches each
running context like any other (06 R127). -/
def State.migrationRequest (s : State) (c : BitVec 8) : State :=
  if !s.occ.contains c || (s.core c).migrate.isSome then s
  else
    match (dieCores (coreDie c)).find? fun e =>
        e != c && s.coreUsable e && (s.core e).ctx0.task.isNone && (s.core e).ctx1.task.isNone with
    | some e =>
      [false, true].foldl (fun s b => if (s.ctx ⟨c, b⟩).runs then s.request ⟨c, b⟩ id else s)
        (s.modCore c fun k => { k with migrate := some e })
    | none => s
/-- A context that does not keep its core from moving. -/
def State.moveReady (s : State) (x : CtxId) : Bool :=
  let c := s.ctx x
  match c.task, c.flow.phase with
  | none, _ | _, .idle => true
  | _, .moving => s.saveReady x && c.nc == 0
  | _, .parked => !c.sys.pl && s.saveReady x && c.nc == 0
  | _, _ => false
/-- Whether a context stands at a resumption point from which it can move; one parked at system level does not (17 R310). -/
def Ctx.atMove (c : Ctx) : Bool := c.flow.phase == .moving || (c.flow.phase == .parked && !c.sys.pl)
def State.moveStops (s : State) (x : CtxId) : Bool := (s.ctx x).atMove && (s.ctx x).canStop
/-- Whether a migration can go on: its contexts are ready, or wait for engine work that stops. -/
def State.migrationDue (s : State) (c : BitVec 8) : Bool :=
  let xs : List CtxId := [⟨c, false⟩, ⟨c, true⟩]
  let there (x : CtxId) : Bool := (s.ctx x).task.isNone || (s.ctx x).flow.phase == .idle || (s.ctx x).atMove
  (s.core c).migrate.isSome && xs.all there && (xs.all s.moveReady || xs.any s.moveStops)
/-- One context moves: its state as it stands to the new core. -/
def State.moveCtx (s : State) (x y : CtxId) : State :=
  match (s.ctx x).task with
  | none => s
  | some _ =>
    let c := s.ctx x
    let s := s.modCtx y fun o => { c with
      mons := c.mons.map Mon.spill, flow := { c.flow with phase := if c.flow.phase = .moving then .run else c.flow.phase }
      sys := { c.sys with tcause := o.sys.tcause, tepc := o.sys.tepc, tbun := o.sys.tbun, tval := o.sys.tval, tvecEn := o.sys.tvecEn
                          tvecBase := o.sys.tvecBase, tscr := o.sys.tscr, msave := o.sys.msave, duty := o.sys.duty } }
    (((s.freeCtx x).refetchAll y).restartWork y)
/-- The move has served the request of a context that had parked with DRN set: no loop drains for it (06 R127). -/
def State.moveServed (s : State) (x : CtxId) : State :=
  s.modCtx x fun c => { c with regs := { c.regs with loop := { c.regs.loop with drn := c.regs.loop.drn && c.sys.pending } } }
/-- The images go to CTXB, without carve-outs; false while one must wait for copies of its lines. -/
def State.moveImages (s : State) (again : Act) : List CtxId → State × Bool
  | [] => (s, true)
  | x :: t =>
    if (s.ctx x).task.isNone ∨ (s.ctx x).flow.phase = .idle then s.moveImages again t
    else
      match s.writeImage x (s.ctx x).sys.ctxb.toNat again with
      | (s, .wait) => (s, false)
      | (s, _) => s.moveImages again t
/-- MIGRATION: the contexts and all rows move, with the barriers homed on the core. -/
def State.migration (s : State) (src dst : BitVec 8) : State :=
  let xs : List CtxId := [⟨src, false⟩, ⟨src, true⟩]
  if (s.core src).migrate ≠ some dst || !s.migrationDue src then s
  else if !(xs.all s.moveReady) then xs.foldl (fun s x => if s.moveStops x then s.stopWork x else s) s
  else
    match (xs.foldl (fun s x => s.moveServed x) (s.landSp src)).moveImages (.ev (.migration src dst)) xs with
    | (s, false) => s
    | (s, true) =>
      let s := ((s.dropOld dst).modCore dst fun k => { k with sp := (s.core src).sp }).occupy dst
      let s := xs.foldl (fun s x => s.moveCtx x ⟨dst, x.ctx⟩) s
      let s := { s with work := { s.work with gangs := s.work.gangs.map fun (g : Gang) => if g.home = src then { g with home := dst } else g } }
      s.vacate src

/-! ### Thermal control (22 R403) -/

/-- THERMAL_DUTY_UPDATE: every 2^16 dc the controller compares the column's hottest sensor with the table's thresholds. -/
def State.thermalDutyUpdate (s : State) (c : BitVec 8) : State :=
  let t := s.opTable (coreDie c)
  let (n, s) := s.draw .sensor
  let deg := n % 256
  s.modCore c fun k =>
    let v := k.margin.thermal
    let v := if t.hot ≤ deg then (if v.toNat ≤ 1 then 1 else v - 1) else if deg < t.cool then (if 16 ≤ v.toNat then 16 else v + 1) else v
    { k with margin := { k.margin with thermal := v } }

end Sys2Proof.Machine
end

