-- ==== Sys2Proof/Machine/DieLinks.lean ====
section
/-! DEFINITION. The modules of the die links: numbered flits, acknowledgements, replays, retraining, dead links and their
drain (21 R375-R386). -/

namespace Sys2Proof.Machine

/-! ### Acknowledgements and resends (21 R379, R380) -/

/-- Unacknowledged flits that an ACK covers leave the replay buffer; acts that waited may follow. -/
def State.takeAck (s : State) (src dst : BitVec 2) (m : BitVec 3) (ack : BitVec 12) : State :=
  let mo := (s.link src dst).mod m
  match mo.replay with
  | [] => s
  | f :: _ =>
    let n := (ack - f.seq + 1).toNat
    if n = 0 ∨ mo.replay.length < n then s
    else (s.modModule src dst m fun q => { q with replay := q.replay.drop n, ackedAt := s.dc }).flushWaiting src dst m
/-- Every unacknowledged flit is sent again, in order, with the ACK of now. -/
def State.resend (s : State) (src dst : BitVec 2) (m : BitVec 3) : State :=
  let mo := (s.link src dst).mod m
  if mo.train then s
  else
    let again := mo.replay.map fun (f : Flit) => { f with ack := s.ackOf dst src m }
    let s := s.modModule src dst m fun q => { q with
      replay := again, wire := q.wire ++ again, flitrp := BitVec.ofNat 16 (min 65535 (q.flitrp.toNat + again.length)) }
    let s := if again.isEmpty then s else s.modModule dst src m fun q => { q with unacked := false }
    again.foldl (fun s _ => s.later (.ev (.dataFlit src dst m true))) s

/-- A flit received while a window of CRC failures is open counts towards its end (21 R381). -/
def State.countFlit (s : State) (src dst : BitVec 2) (m : BitVec 3) : State :=
  let q := (s.link src dst).mod m
  if q.crcw = 0 then s
  else
    let s := s.modModule src dst m fun q => { q with winFlits := q.winFlits + 1 }
    if 2 ^ 16 ≤ q.winFlits + 1 then s.next [.ev (.crcWindowClose src dst m)] else s
/-- ACKNOWLEDGEMENT (21 R379): a TYPE 2 flit of the reverse direction arrives at the sender. -/
def State.acknowledgement (s : State) (src dst : BitVec 2) (m : BitVec 3) (ack : BitVec 12) : State :=
  (s.countFlit dst src m).takeAck src dst m ack
/-- NAK (21 R380). -/
def State.nak (s : State) (src dst : BitVec 2) (m : BitVec 3) (ack : BitVec 12) : State :=
  ((s.countFlit dst src m).takeAck src dst m ack).resend src dst m
/-- 64 flit times in dc: 1.0 ns a flit at 64 lanes, 2.0 ns at 32 (21 R376, 00 R5). -/
def Module.ackDelay (q : Module) : Nat := if q.narrow then 154 else 77
/-- ACK_TIMER (21 R379): no flit has carried the ACK for 64 flit times; a timer of flits acknowledged since then waits on. -/
def State.ackTimer (s : State) (src dst : BitVec 2) (m : BitVec 3) : State :=
  let q := (s.link src dst).mod m
  if q.unacked && !(s.link src dst).dead then
    if s.dc < q.unackedAt + q.ackDelay then s.at_ (q.unackedAt + q.ackDelay) (.ev (.ackTimer src dst m))
    else (s.modModule src dst m fun q => { q with unacked := false }).later (.ev (.acknowledgement src dst m (s.ackOf src dst m)))
  else s
/-- REPLAY_TIMEOUT (21 R380): 2,048 dc without an ACK advance. -/
def State.replayTimeout (s : State) (src dst : BitVec 2) (m : BitVec 3) : State :=
  let mo := (s.link src dst).mod m
  let me : Act := .ev (.replayTimeout src dst m)
  if mo.replay.isEmpty || (s.link src dst).dead then s
  else if s.dc < mo.ackedAt + 2048 then s.at_ (mo.ackedAt + 2048) me
  else (s.resend src dst m).at_ (s.dc + 2048) me

/-! ### Retraining (21 R381, R386) -/

/-- A module drains and retrains both directions; its outcome and its length, at most 20 µs, are open. -/
def State.retrain (s : State) (src dst : BitVec 2) (m : BitVec 3) (up : Bool) : State :=
  let go (q : Module) : Module := { q with train := true, up := up, trainAt := s.dc, crcw := 0, winFlits := 0 }
  let s := (s.modModule src dst m go).modModule dst src m go
  let (n, s) := s.draw .duration
  let (k, s) := s.draw .training
  s.at_ (s.dc + 1 + n % 24000) (.ev (.retrainComplete src dst m (k % 2 == 0)))
def peerModule (p : BitVec 2) (m : BitVec 3) : Word := BitVec.ofNat 64 (p.toNat * 8 + m.toNat)
/-- RETRAIN_COMPLETE (21 R381): the module goes on at its width from the last ACK, or its link is dead; a return to 64 lanes
that fails leaves 32. -/
def State.retrainComplete (s : State) (src dst : BitVec 2) (m : BitVec 3) (ok : Bool) : State :=
  let mo := (s.link src dst).mod m
  if !mo.train || (s.link src dst).dead then s
  else if !mo.up && !ok then s.next [.ev (.linkDead src dst)]
  else
    let narrow := !(mo.up && ok)
    let go (q : Module) : Module := { q with train := false, up := false, narrow := narrow }
    let s := if narrow then s.bbDie dst 0x21 (peerModule src m) (BitVec.ofNat 64 ((s.dc - mo.trainAt) * 5 / 6)) else s
    let s := (s.modModule src dst m go).modModule dst src m go
    let s := (s.resend src dst m).resend dst src m
    (s.flushWaiting src dst m).flushWaiting dst src m
/-- LKCTL_UP (21 R386): every narrow module of the link is retrained at 64 lanes. -/
def State.lkctlUp (s : State) (die peer : BitVec 2) : State :=
  if die = peer || (s.link die peer).dead then s
  else
    ((List.range 8).map (BitVec.ofNat 3)).foldl (fun s m =>
      let q := (s.link peer die).mod m
      if q.narrow && !q.train then s.retrain peer die m true else s) s
/-- CRC_WINDOW_CLOSE (21 R381). -/
def State.crcWindowClose (s : State) (src dst : BitVec 2) (m : BitVec 3) : State :=
  s.modModule src dst m fun q => { q with crcw := 0, winFlits := 0 }

/-! ### Flits arrive (21 R379-R381, R385) -/

/-- A NAK goes back, with the ACK of the last flit accepted (21 R380). -/
def State.sendNak (s : State) (src dst : BitVec 2) (m : BitVec 3) : State :=
  (s.modModule src dst m fun q => { q with unacked := false }).later (.ev (.nak src dst m (s.ackOf src dst m)))
/-- A CRC failure: it is counted and recorded, and a NAK goes back; the eighth of a window retrains the module, which then
resends (21 R380, R381, R394). -/
def State.crcFailure (s : State) (src dst : BitVec 2) (m : BitVec 3) (seq : BitVec 12) : State :=
  let s := s.bbDie dst 0x20 (peerModule src m) (seq.zeroExtend 64)
  let n := ((s.link src dst).mod m).crcw + 1
  if 8 ≤ n then (s.retrain src dst m false).sendNak src dst m
  else (s.sendNak src dst m).modModule src dst m fun q => { q with crcw := n, winFlits := if n = 1 then 0 else q.winFlits }
/-- A flit that its receiver delivers, or, with VIA set, forwards over its own link to the final die; with that link dead the
die is unreachable on this route (21 R385). -/
def State.deliver (s : State) (at_ : BitVec 2) (m : BitVec 3) (f : Flit) : State :=
  if f.ddie = at_ then s.next [f.act]
  else if s.reaches at_ f.ddie then s.transmit at_ f.ddie m f.sdie f.ddie f.act
  else s.failAct f.ddie true f.act
/-- DATA_FLIT (21 R379): the oldest flit on the wire arrives, whole or with a failed CRC; only the expected one is accepted. -/
def State.dataFlit (s : State) (src dst : BitVec 2) (m : BitVec 3) (ok : Bool) : State :=
  match ((s.link src dst).mod m).wire with
  | [] => s
  | f :: t =>
    let s := (s.modModule src dst m fun q => { q with wire := t }).countFlit src dst m
    if !ok then s.crcFailure src dst m f.seq
    else
      let s := s.takeAck dst src m f.ack
      let mo := (s.link src dst).mod m
      if f.seq ≠ mo.rxexp then s
      else
        let s := s.modModule src dst m fun q => { q with
          rxexp := q.rxexp + 1, unacked := true, unackedAt := if q.unacked then q.unackedAt else s.dc }
        let s := if mo.unacked then s else s.at_ (s.dc + mo.ackDelay) (.ev (.ackTimer src dst m))
        s.deliver dst m f
/-- A flit arrives as bytes (21 R377-R379): a failed CRC, or a type above 5, is a CRC failure; an idle flit counts and carries its ACK;
an acknowledgement and a NAK act at this end; a numbered one is the oldest on the wire, and is discarded where its number is another.
Packets of an unknown type are discarded and counted. -/
def State.flitArrives (s : State) (src dst : BitVec 2) (m : BitVec 3) (bytes : List Byte) : State :=
  let wire := ((s.link src dst).mod m).wire
  if (s.link src dst).dead then s
  else
    match readFlit bytes with
    | none =>
      if wire.isEmpty then (s.countFlit src dst m).crcFailure src dst m (BitVec.ofNat 12 (bytesToNat (bytes.take 16) / 2 ^ 116))
      else s.dataFlit src dst m false
    | some (h, payload) =>
      match h.type with
      | .idle => (s.countFlit src dst m).takeAck dst src m h.ack
      | .ack => s.acknowledgement dst src m h.ack
      | .nak => s.nak dst src m h.ack
      | .data | .linkState | .drainMarker =>
        if (wire.head?.map (·.seq)) ≠ some h.seq then (s.countFlit src dst m).takeAck dst src m h.ack
        else (s.dataFlit src dst m true).modModule src dst m fun q => { q with discarded := q.discarded + (readPackets payload).2 }

/-! ### Dead links (21 R382-R384) -/

/-- Link-state updates on every live link of a die. -/
def State.sendLinkState (s : State) (d : BitVec 2) : State :=
  let z := s.die d
  [0#2, 1#2, 2#2, 3#2].foldl (fun s e =>
    if e != d && s.reaches d e then s.transmit d e 0 d e (.ev (.linkStateUpdate e z.linkVec z.linkVer)) else s) s
/-- LINK_STATE_UPDATE (21 R382): a newer version is adopted and forwarded once. -/
def State.linkStateUpdate (s : State) (d : BitVec 2) (live : BitVec 6) (version : BitVec 16) : State :=
  let n := (version - (s.die d).linkVer).toNat
  if n = 0 ∨ 2 ^ 15 ≤ n then s
  else (s.modDie d fun z => { z with linkVec := live, linkVer := version }).sendLinkState d

/-- The markers that an end sends for a dead link: what it expects next on each module. -/
def State.sendMarkers (s : State) (d peer : BitVec 2) : State :=
  ((List.range 8).map (BitVec.ofNat 3)).foldl (fun s m =>
    match s.route d peer with
    | some hop => s.transmit d hop 0 d peer (.ev (.drainMarker peer d m ((s.link peer d).mod m).rxexp))
    | none => s) s
/-- Round k of a drain begins at an end: 2^k × 4 µs. -/
def State.beginRound (s : State) (d peer : BitVec 2) (k : Nat) : State :=
  ((s.modLink d peer fun l => { l with draining := some k }).sendMarkers d peer).at_ (s.dc + 2 ^ k * 4800) (.ev (.drainRound d peer))
/-- The blocks of a die's jobs whose write is under way to memory of a peer. -/
def State.blocksTo (s : State) (d peer : BitVec 2) : List (Nat × Nat) :=
  (s.jobs.filter fun j => j.x.die == d && !j.isFill).flatMap fun j =>
    match j.dst with
    | .sp _ => []
    | .mem _ va _ => j.due.filterMap fun p =>
      match (s.addrsNow j true va (j.dstSpan p.1).1 (j.dstSpan p.1).2).2 with
      | .ok (a :: _) => if homeDie a = peer then some (j.id, p.1) else none
      | _ => none
/-- One end of a link that has died. -/
def State.deadEnd (s : State) (d peer : BitVec 2) : State :=
  let s := s.modDie d fun z => { z with linkVec := z.linkVec &&& ~~~(BitVec.ofNat 6 (2 ^ pairIdx d peer)), linkVer := z.linkVer + 1 }
  let s := s.bbDie d 0x22 (peer.zeroExtend 64) ((s.die d).linkVer.zeroExtend 64)
  let under := s.blocksTo d peer
  s.modLink d peer fun l => { l with
    dead := true, draining := some 0, blocks := under
    mods := l.mods.map fun (q : Module) => { q with wire := [], train := false, marker := none } }
/-- LINK_DEAD (21 R382). -/
def State.linkDead (s : State) (p q : BitVec 2) : State :=
  if p = q || (s.link p q).dead then s
  else
    let s := (s.deadEnd p q).deadEnd q p
    let s := (s.sendLinkState p).sendLinkState q
    (s.beginRound p q 0).beginRound q p 0

/-- Whether an act may be sent again when its fate is unknown: reads, and coherence requests that carry no data (21 R384), a PutE
among them. A GetM is a line drain's (20 R363), and counts as lost with it (11 litmus 7, log 24). -/
def State.repeatable (s : State) (i : Act) : Bool :=
  match i with
  | .ev (.gets _ _ _ _) | .ev (.invalidation _ _ _) | .ev (.invalidationAck _ _ none) => true
  | .ev (.putm core line) => ((s.core core).l1Find line).all (·.st != .m)
  | _ => false
/-- Whether an act of unknown fate is only dropped: what its requester waits for in a freeze, and what the links carry for
themselves. -/
def Act.silent (i : Act) : Bool :=
  match i with
  | .ev (.atomicAtHome _ _ _ _ _ _ _ dst) => dst.isSome
  | .ev (.replyArrival _ _ _) | .ev (.linkStateUpdate _ _ _) | .ev (.drainMarker _ _ _ _) => true
  | .op _ _ _ _ (.kvappRead ..) | .op _ _ _ _ (.kvapp ..) | .op _ _ _ _ (.kvret ..) | .op _ _ _ _ (.tuse ..)
  | .op _ _ _ _ (.thint ..) | .op _ _ _ _ (.tfetch ..) => false
  | .op _ _ _ _ _ => true
  | _ => false
/-- An act sent on the route of R385 after a drain. -/
def State.sendOn (s : State) (d : BitVec 2) (m : BitVec 3) (p : BitVec 2 × BitVec 2 × Act) : State :=
  match s.route d p.2.1 with
  | some hop => s.transmit d hop m p.1 p.2.1 p.2.2
  | none => s.failAct p.2.1 true p.2.2
/-- The fates of one module's unacknowledged flits: what is sent again in order, and how many were lost (21 R384). -/
def State.settleModule (s : State) (d peer : BitVec 2) (m : BitVec 3) (known : Bool) : State × Nat :=
  let q := (s.link d peer).mod m
  let s := s.modModule d peer m fun q => { q with replay := [], wire := [], waiting := [], train := false }
  let (s, n) := q.replay.foldl (fun (acc : State × Nat) f =>
    let (s, n) := acc
    if known then
      (match q.marker with
       | some e => if (f.seq - (q.replay.head?.map (·.seq)).getD 0).toNat < (e - (q.replay.head?.map (·.seq)).getD 0).toNat then (s, n)
                   else (s.sendOn d m (f.sdie, f.ddie, f.act), n)
       | none => (s, n))
    else if s.repeatable f.act then (s.sendOn d m (f.sdie, f.ddie, f.act), n)
    else if f.act.silent then (s, n)
    else (s.failAct f.ddie false f.act, n + 1)) (s, 0)
  (q.waiting.foldl (fun s p => s.sendOn d m p) s, n)
/-- The end of a drain at one end: where the fate of its traffic is unknown, the writes of copy blocks under way are lost too (21 R384,
10 R223). -/
def State.settleLink (s : State) (d peer : BitVec 2) (known : Bool) : State :=
  let under := (s.link d peer).blocks
  let s := s.modLink d peer fun l => { l with draining := none, blocks := [] }
  let (s, n) := ((List.range 8).map (BitVec.ofNat 3)).foldl (fun (acc : State × Nat) m =>
    let (s, n) := acc.1.settleModule d peer m known
    (s, acc.2 + n)) (s, 0)
  let lost := if known then [] else under.filter fun p => (s.job? p.1).any fun j => j.due.any (·.1 == p.2)
  let s := lost.foldl (fun s p =>
    match s.job? p.1 with
    | none => s
    | some j =>
      let (o, n) := j.dstSpan p.2
      (s.taskFailure j.task peer false).modJob p.1 fun q => { q with
        landed := q.landed ++ [p.2], due := q.due.filter fun e => e.1 != p.2, buf := q.buf.filter fun c => !decide (o ≤ c.1 ∧ c.1 < o + n) }) s
  s.bbDie d 0x23 (peer.zeroExtend 64) (BitVec.ofNat 64 (n + lost.length))
/-- DRAIN_MARKER (21 R383): holding the peer's markers for all eight modules ends the drain. -/
def State.drainMarker (s : State) (d peer : BitVec 2) (m : BitVec 3) (seq : BitVec 12) : State :=
  if (s.link d peer).draining.isNone then s
  else
    let s := s.modModule d peer m fun q => { q with marker := some seq }
    if (s.link d peer).mods.toList.all (·.marker.isSome) then s.settleLink d peer true else s
/-- DRAIN_ROUND (21 R383): a round ends. -/
def State.drainRound (s : State) (d peer : BitVec 2) : State :=
  match (s.link d peer).draining with
  | none => s
  | some k => if k < 3 then s.beginRound d peer (k + 1) else s.settleLink d peer false

end Sys2Proof.Machine
end

