-- ==== Sys2Proof/Machine/HostIf.lean ====
section
/-! DEFINITION. The host functions: BAR0, BAR2, function-level reset, attestation (21 R389-R391, 22 R410-R412). -/

namespace Sys2Proof.Machine

/-! ### The partition of a function (21 R387, R389) -/

def partDies (mode : BitVec 2) (f : BitVec 2) : List (BitVec 2) := [0#2, 1#2, 2#2, 3#2].filter fun d => partOf mode d == f.toNat
/-- The first die of a function's partition; none where the mode has no such function. -/
def State.funcDie (s : State) (f : BitVec 2) : Option (BitVec 2) := (partDies s.power.mode f).head?

/-! ### Registers of BAR0 (21 R390, 22 R412) -/

/-- BOOTST. -/
def State.bootst (s : State) : Word :=
  BitVec.ofNat 64 ((s.power.bootFail.map fun c => c.toNat * 256 + 16).getD 0 + s.power.bootStep.toNat)
/-- A byte of BAR0: write-only and unassigned places read zero. -/
def State.bar0Byte (s : State) (f d : BitVec 2) (a : Nat) : Byte :=
  let h := s.host f
  let byte (v : Word) : Byte := v.extractLsb' (8 * (a % 8)) 8
  if a < 8 then byte (s.pcfg d)
  else if a < 16 then byte h.winbase
  else if 0x2000 ≤ a ∧ a < 0x2008 then byte s.bootst
  else if 0x2088 ≤ a ∧ a < 0x2090 then byte (if h.astat then 1 else 0)
  else if 0x2100 ≤ a then (if h.astat then h.report.getD (a - 0x2100) 0 else 0)
  else 0
/-- The bytes of a register after a write of n bytes at `off`. -/
def mergeReg (base w old off n data : Nat) : Nat :=
  bytesToNat ((List.range w).map fun i =>
    let a := base + i
    BitVec.ofNat 8 ((if off ≤ a ∧ a < off + n then data / 256 ^ (a - off) else old / 256 ^ i) % 256))
/-- The doorbells that a write rings: those of dies of the partition. -/
def State.doorbells (s : State) (f : BitVec 2) (off n : Nat) : List Act :=
  (partDies s.power.mode f).flatMap fun d => (List.range 16).filterMap fun q =>
    if rangesMeet (0x1000 + 8 * (16 * d.toNat + q)) 8 off n then some (.ev (.doorbell d (BitVec.ofNat 4 q))) else none
/-- A write to BAR0. -/
def State.bar0Write (s : State) (f : BitVec 2) (off n data : Nat) : State :=
  let s := s.modHost f fun h => { h with
    winbase := BitVec.ofNat 64 (mergeReg 8 8 h.winbase.toNat off n data) &&& 0x000FFFC000000000
    nonce := BitVec.ofNat 512 (mergeReg 0x2040 64 h.nonce.toNat off n data) }
  s.next (s.doorbells f off n ++ (if rangesMeet 0x2080 8 off n then [.ev (.acmd f)] else []))

/-! ### Accesses through BAR2 (21 R391) -/

/-- The aligned 8-byte units of an access, and whether each reaches populated memory of the partition; the CXL port takes copies
alone (21 R392). -/
def State.hostUnits (s : State) (d : BitVec 2) (pa n : Nat) : List (Nat × Bool) :=
  if n = 0 then [] else (List.range ((pa + n - 1) / 8 + 1 - pa / 8)).map fun i =>
    let u := (pa / 8 + i) * 8
    (u, (s.memFor d u).any (·.1 != .cxl))
def State.bar2 (s : State) (f : BitVec 2) (off : Nat) : Nat := (s.host f).winbase.toNat + off % 2 ^ 38
/-- A write performed at home, unit by unit; false where it must wait for copies of its lines. -/
def State.bar2Write (s : State) (f d : BitVec 2) (off n data : Nat) : State × Bool :=
  let pa := s.bar2 f off
  let us := s.hostUnits d pa n
  let good := (us.filter (·.2)).map (·.1)
  match s.clearLines true (.hostNext f) (good.map (· / 128)).eraseDups with
  | some s => (s, false)
  | none =>
    let s := good.foldl (fun s u =>
      let lo := max pa u
      (s.homeWriteAt lo (natToBytes (data / 256 ^ (lo - pa)) (min (pa + n) (u + 8) - lo))).2) s
    (if us.any (!·.2) then s.count d fun c => { c with hostref := satInc c.hostref } else s, true)
/-- What the host receives of a read; bytes of a poisoned block are of open value (log 14). -/
def State.answer (s : State) (f : BitVec 2) (r : Option (List Byte)) : State := s.modHost f fun h => { h with reads := h.reads ++ [r] }
def State.bar2Read (s : State) (f d : BitVec 2) (off n : Nat) : State × Bool :=
  let pa := s.bar2 f off
  let us := s.hostUnits d pa n
  if us.any (!·.2) then ((s.count d fun c => { c with hostref := satInc c.hostref }).answer f none, true)
  else
    match s.clearLines false (.hostNext f) (us.map fun u => u.1 / 128).eraseDups with
    | some s => (s, false)
    | none =>
      match s.homeRead pa n with
      | (bs, none, _, s) => (s.answer f (some bs), true)
      | (_, some p, _, s) =>
        let (v, s) := s.draw .eccData
        ((s.bbDie (homeDie (p * 512)) 0x13 (BitVec.ofNat 64 (p * 512)) 0).answer f (some (natToBytes v n)), true)

/-! ### Function-level reset (21 R391) -/

/-- EN := 0 in a stored descriptor, in one that is poisoned too; false while it must wait. -/
def State.clearEn (s : State) (d : BitVec 2) (q : BitVec 4) (again : Act) : State × Bool :=
  match s.queueDesc d q again with
  | (s, .wait) => (s, false)
  | (s, .bad) => (s, true)
  | (s, r) =>
    let b : Byte := match r with
      | .got bs => bs.headD 0
      | _ => ((s.mappedNow d (s.queueRoot d q) (s.queueAddr d q) 1).head?.map fun p => cellsRead s.mem.cells p.1).getD 0
    match s.sysWrite d (s.queueRoot d q) (s.queueAddr d q) [b &&& 0x0B] again with
    | (s, .wait) => (s, false)
    | (s, _) => (s, true)
/-- EN := 0 in the descriptors of queues; false while one must wait for copies of its lines. -/
def State.disableQueues (s : State) (again : Act) : List (BitVec 2 × BitVec 4) → State × Bool
  | [] => (s, true)
  | (d, q) :: t =>
    match s.clearEn d q again with
    | (s, false) => (s, false)
    | (s, true) => s.disableQueues again t
/-- The reset performed, behind the accesses that were posted before it. -/
def State.resetFunction (s : State) (f : BitVec 2) : State × Bool :=
  (s.modHost f fun h => { h with winbase := 0 }).disableQueues (.hostNext f)
    ((partDies s.power.mode f).flatMap fun d => (List.range 16).map fun q => (d, BitVec.ofNat 4 q))

/-! ### Accesses in their order -/

/-- One access; before the boot has opened the functions only BAR0 answers, and takes no write (22 R411, log 15). -/
def State.hostDo (s : State) (f d : BitVec 2) (e : Event) : State × Bool :=
  let isOpen := s.power.bootStep == 8 && s.power.bootFail.isNone
  match e with
  | .hostWrite _ true off n data => (if isOpen then s.bar0Write f off n data else s, true)
  | .hostWrite _ false off n data => if isOpen then s.bar2Write f d off n data else (s, true)
  | .hostRead _ true off n => (s.answer f (some ((List.range n).map fun i => s.bar0Byte f d (off + i))), true)
  | .hostRead _ false off n => if isOpen then s.bar2Read f d off n else (s.answer f none, true)
  | .functionLevelReset _ => s.resetFunction f
  | _ => (s, true)
/-- The oldest access goes on; the next one follows when it is done. -/
def State.hostNext (s : State) (f : BitVec 2) : State :=
  match (s.host f).queue, s.funcDie f with
  | e :: t, some d =>
    match s.hostDo f d e with
    | (s, false) => s
    | (s, true) =>
      let s := s.modHost f fun h => { h with queue := t }
      if t.isEmpty then s else { s with agenda := s.agenda ++ [(s.dc, .hostNext f)] }
  | _, _ => s
/-- An access arrives behind those before it. -/
def State.hostArrive (s : State) (f : BitVec 2) (e : Event) : State :=
  if (s.funcDie f).isNone then s
  else
    let first := (s.host f).queue.isEmpty
    let s := s.modHost f fun h => { h with queue := h.queue ++ [e] }
    if first then s.hostNext f else s
/-- HOST_WRITE (21 R391). -/
def State.hostWrite (s : State) (f : BitVec 2) (bar0 : Bool) (off n data : Nat) : State := s.hostArrive f (.hostWrite f bar0 off n data)
/-- HOST_READ (21 R391). -/
def State.hostRead (s : State) (f : BitVec 2) (bar0 : Bool) (off n : Nat) : State := s.hostArrive f (.hostRead f bar0 off n)
/-- FUNCTION_LEVEL_RESET (21 R391). -/
def State.functionLevelReset (s : State) (f : BitVec 2) : State := s.hostArrive f (.functionLevelReset f)

/-! ### Attestation (22 R410, R412) -/

/-- The identity's private key, which firmware derives at boot step 2 (22 R411). -/
def identityKey : List Byte := Config.mlDsaKeyGen Config.identitySeed
/-- The report body: 280 bytes. -/
def State.reportBody (s : State) (d : BitVec 2) (nonce : BitVec 512) : List Byte :=
  natToBytes Config.reportVersion.toNat 8 ++ natToBytes nonce.toNat 64 ++ natToBytes (Config.sha3_512 (Config.imageBody s.power.recovery)).toNat 64
    ++ natToBytes (Config.sha3_512 Config.tableBytes).toNat 64 ++ natToBytes (Config.sha3_512 Config.bootConfig).toNat 64
    ++ natToBytes Config.svn.toNat 8 ++ natToBytes (s.pcfg d).toNat 8
/-- ACMD (22 R412): a report is begun, or begun again, with the nonce of now. -/
def State.acmd (s : State) (f : BitVec 2) : State :=
  let done : Act := .ev (.attestationReportDone f)
  let s := { s with agenda := s.agenda.filter fun p => p.2 != done }
  (s.modHost f fun h => { h with astat := false, reporting := true, repNonce := h.nonce }).later done
/-- ATTESTATION_REPORT_DONE (22 R412). -/
def State.attestationReportDone (s : State) (f : BitVec 2) : State :=
  match s.funcDie f with
  | none => s
  | some d =>
    if !(s.host f).reporting then s
    else
      let body := s.reportBody d (s.host f).repNonce
      let sig := padTo 4627 (Config.mlDsaSign identityKey (natToBytes (Config.sha3_512 body).toNat 64))
      s.modHost f fun h => { h with astat := true, reporting := false, report := body ++ sig }

end Sys2Proof.Machine
end

