-- ==== Sys2Proof/Machine/Reliability.lean ====
section
/-! DEFINITION. Squashes and margins, cooling loops and operating tables, shutdowns, the black-box record's windows,
resets and the boot (14 R275-R277, 20 R374, 22 R397-R411). -/

namespace Sys2Proof.Machine

/-! ### Squashes, escalation, quarantine (02 R49, 14 R276, R277, 22 R398-R400) -/

/-- SHADOW_LATCH_SQUASH: a late transition is caught; what the core would issue in this dc is squashed. -/
def State.shadowLatchSquash (s : State) (c : BitVec 8) : State := s.modCore c fun k => { k with latch := true, engDc := some s.dc }
/-- A settle: the 16 dc after a change pass without issue; a change during it begins it again (22 R399). -/
def State.settle (s : State) (c : BitVec 8) : State :=
  (s.modCore c fun k =>
    let goesOn := k.margin.settleUntil.any fun e => decide (s.dc ≤ e)
    { k with margin := { k.margin with
      settleUntil := some (s.dc + 16), settleFrom := if goesOn then k.margin.settleFrom else s.dc + 1 } }).at_ (s.dc + 16)
    (.ev (.regulatorSettleEnd c))
/-- REGULATOR_SETTLE_END (22 R399). -/
def State.regulatorSettleEnd (s : State) (c : BitVec 8) : State :=
  s.modCore c fun k => { k with margin := { k.margin with settleUntil := k.margin.settleUntil.filter fun d => decide (s.dc < d) } }
/-- The column's limit: 390 mV, or the table's VMAX (22 R400). -/
def State.vLimit (s : State) (c : BitVec 8) : BitVec 5 := minDuty 14 (s.opTable (coreDie c)).vmax
/-- The core is quarantined: its tasks receive the request, and their gangs leave as a unit (14 R277). -/
def State.quarantine (s : State) (c : BitVec 8) : State :=
  let s := s.modCore c fun k => { k with margin := { k.margin with quar := true } }
  let quar (y : SysRegs) : SysRegs := { y with quar := true }
  [false, true].foldl (fun s b =>
    let x : CtxId := ⟨c, b⟩
    if (s.ctx x).task.isNone then s
    else
      let s := s.askLeave x quar
      match s.gangOf x with
      | some g => if g.solo then s else
          (g.members.filterMap s.ctxOfTask).foldl (fun s y => if y.core = c then s else s.askLeave y fun r => { r with pre := true }) s
      | none => s) s
/-- The fourth consecutive squash of a bundle (22 R400). -/
def State.escalate (s : State) (c : BitVec 8) (bundle : BAddr) : State :=
  let m := (s.core c).margin
  if m.quar then s
  else if m.vset.ult (s.vLimit c) then
    let s := s.modCore c fun k => { k with
      margin := { k.margin with vset := k.margin.vset + 1, esc := if k.margin.esc = BitVec.allOnes 16 then k.margin.esc else k.margin.esc + 1 }
      ctx0 := { k.ctx0 with squashes := 0 }, ctx1 := { k.ctx1 with squashes := 0 } }
    (s.settle c).bbCore c 0x02 (((s.core c).margin.vset).zeroExtend 64) (bundle.zeroExtend 64)
  else (s.quarantine c).bbCore c 0x03 (m.vset.zeroExtend 64) (bundle.zeroExtend 64)
/-- The bundles of some contexts are squashed in this dc: each counts one replay, and its reissue begins a stretch window
(02 R49, 14 R275, R276). -/
def State.squash (s : State) (c : BitVec 8) (xs : List Bool) : State :=
  let one (k : Ctx) : Ctx := { k with replays := satInc k.replays, squashes := k.squashes + 1, redo := true }
  let s := s.modCore c fun k =>
    let k := xs.foldl (fun (k : Core) b => k.modCtx b one) k
    { k with
      window := none, margin := { k.margin with
        crep := satAdd k.margin.crep xs.length, windowSquashes := k.margin.windowSquashes + xs.length } }
  match xs.find? fun b => decide (4 ≤ ((s.core c).ctx b).squashes) with
  | some b => s.escalate c ((s.core c).ctx b).flow.pc
  | none => s

/-- MGN_WRITE (22 R398). -/
def State.mgnWrite (s : State) (c : BitVec 8) (v : Word) : State :=
  let m := (s.core c).margin
  let want := v.extractLsb' 0 5
  let vset := if m.quar then m.vset else minDuty want (s.opTable (coreDie c)).vmax
  let s := s.modCore c fun k => { k with margin := { k.margin with cduty := clampDuty (v.extractLsb' 16 5), vset := vset } }
  if vset = m.vset then s else s.settle c

/-- BLACKBOX_SQUASH_WINDOW (22 R407): the squashes of a window of 2^16 dc that ends with this dc. -/
def State.blackboxSquashWindow (s : State) (c : BitVec 8) : State :=
  let n := (s.core c).margin.windowSquashes
  let s := s.modCore c fun k => { k with margin := { k.margin with windowSquashes := 0 } }
  if n = 0 then s else s.bbCore c 0x01 (BitVec.ofNat 64 n) (BitVec.ofNat 64 (s.dc / 65536 * 65536))

/-! ### A die's SRAM layer shuts down (20 R374) -/

/-- A task stops at a bundle boundary and ends: its open segment is discarded (20 R374 step 1). -/
def State.stopTask (s : State) (x : CtxId) : State :=
  let c := s.ctx x
  match c.task, c.flow.phase with
  | none, _ | _, .idle | _, .ending _ => s
  | some _, _ =>
    let entry := c.entryPc
    (s.abort x).endTask x 6 0x0703 (some entry)
def dieCtxs (d : BitVec 2) : List CtxId := (dieCores d).flatMap fun c => [⟨c, false⟩, ⟨c, true⟩]
def poolFrame (d : BitVec 2) (f : Nat) : Bool := let (f0, n) := tierFrames d 0; decide (f0 ≤ f ∧ f < f0 + n)
/-- A tensor whose bytes lay in the pool that is lost: its HBM copy where it is clean, else its recipe, else nothing. -/
def State.loseTensor (s : State) (t : Tensor) : State :=
  let (st, tier, frames) : BitVec 4 × Nat × List (Nat × Nat) :=
    if !t.dirty && !t.lower.isEmpty then (2, 1, t.lower) else if t.rcp ≠ 0 then (6, 5, []) else (7, 6, [])
  let s := s.modTensor t.id fun t => { t with
    st := st, rdep := if st = 6 then s.dropDepth t else t.rdep, moving := none, frames := frames, lower := []
    dirty := if st = 2 then false else t.dirty, cdata := [], cpois := [], ctier := 0, csize := 0 }
  let s := if st = 2 then s else s.modMem fun m => { m with used := t.lower.foldl (fun l p => cutRange l p.1 p.2) m.used }
  let s := s.tensorLeaves t tier frames
  s.wakeItem (.tensor t.id) (if st = 7 then some t.id else none)
/-- A KV page whose bytes lay in the pool that is lost: its HBM copy, which every write of it reached too (20 R371). -/
def State.loseKvPage (s : State) (q : KvSeq) (i : Nat) (p : KvPage) : State :=
  if p.lower.isEmpty then s
  else
    let s := s.modKvPage q.id i fun p => { p with
      tier := 1, frames := p.lower, lower := [], cdata := [], cpois := [], ctier := 0, moving := none }
    (s.kvLeaves q p 1 p.lower).wakeItem (.kv q.id (BitVec.ofNat 16 i)) none
/-- What lay in frames that are lost goes (20 R374 step 3): the tensors that lay there are answered. -/
def State.loseItems (s : State) (hit : Nat → Bool) : State × List Tensor :=
  let ts := s.tensors.filter fun t => t.frames.any fun f => hit f.1
  let s := ts.foldl (fun s t => s.loseTensor t) s
  let s := s.kvs.foldl (fun s q => q.pages.zipIdx.foldl (fun s p =>
    if p.1.frames.any fun f => hit f.1 then s.loseKvPage q p.2 p.1 else s) s) s
  (s.modMem fun m => { m with used := m.used.filter fun p => !hit p.1 }, ts)
/-- SRAM_THERMAL_SHUTDOWN. -/
def State.sramThermalShutdown (s : State) (d : BitVec 2) : State :=
  let s := (dieCtxs d).foldl (fun s x => if (s.ctx x).task.isSome then s.stopTask x else s) s
  let s := s.modDie d fun (z : Die) => { z with sramDown := true }
  -- a job with a translated side there, or with a block on its way that reads or writes there (a gather's rows too)
  let here (r : Except PageNow (List Nat)) : Bool :=
    match r with
    | .ok l => l.any fun a => poolFrame d (a / 4096)
    | .error _ => false
  let blocks (j : Job) : Bool := j.due.any fun p =>
    here ((s.blockAddrs j p.1).2.map (·.1)) || (match j.dst with
      | .mem _ va _ => here (s.addrsNow j true va (j.dstSpan p.1).1 (j.dstSpan p.1).2).2
      | .sp _ => false)
  let touches (j : Job) : Bool :=
    ((j.src.segs ++ j.dst.segs ++ j.sshift ++ j.dshift).any fun g => poolFrame d (g.pa / 4096)) || blocks j
  let s := (s.jobs.filter touches).foldl (fun s j => s.failJob j.id (.ev (.copyBlockLand j.x j.id 0))) s
  let (s, ts) := s.loseItems (poolFrame d)
  let (f0, n) := tierFrames d 0
  let pool (a : Nat) : Bool := decide (f0 * 4096 ≤ a ∧ a < (f0 + n) * 4096)
  let s := s.modMem fun m => { m with
    cells := m.cells.filter fun c => !pool c.1, poison := m.poison.filter fun b => !pool (b * 512)
    flips := m.flips.filter fun p => !pool (p.1 * 512)
    lost := (f0, n) :: m.lost.filter fun p => !poolFrame d p.1 }
  let mark (e : TlbEntry) : TlbEntry := if leafTier e.leaf = 0 ∧ poolFrame d (entFrame e.leaf) = true then { e with leaf := setTier e.leaf 6 none } else e
  let fixCtx (c : Ctx) : Ctx := { c with locks := c.locks.map fun (l : Lock) => { l with entries := l.entries.map mark } }
  let keep (e : TlbEntry) : Bool := !(leafTier e.leaf == 0 && poolFrame d (entFrame e.leaf))
  let s := { s with
    cores := s.cores.map fun (k : Core) => { k with
      l1 := k.l1.filter fun l => !pool (l.line * 128), tlb := k.tlb.filter keep, ctx0 := fixCtx k.ctx0, ctx1 := fixCtx k.ctx1 }
    dies := s.dies.map fun (z : Die) => { z with l2tlb := z.l2tlb.filter keep, dir := z.dir.filter fun e => !pool (e.line * 128) } }
  let gone := ts.filter fun (t : Tensor) => t.dirty || t.lower.isEmpty
  s.bbDie d 0x41 (BitVec.ofNat 64 ((gone.filter fun (t : Tensor) => t.rcp != 0).length)) (BitVec.ofNat 64 ((gone.filter fun (t : Tensor) => t.rcp == 0).length))

/-- The sensors of a die are read (22 R401); an SRAM layer that reaches its shutdown temperature shuts down (22 R404,
20 R374). -/
def State.readSensors (s : State) (d : BitVec 2) : State :=
  let (a, s) := s.draw .sensor
  let (b, s) := s.draw .sensor
  let (c, s) := s.draw .sensor
  let s := s.modDie d fun z => { z with dthm := { z.dthm with tsram := BitVec.ofNat 8 a, tcomp := BitVec.ofNat 8 b, tpwr := BitVec.ofNat 8 c } }
  if (s.opTable d).shutdown ≤ a % 256 ∧ (s.die d).sramDown = false then s.next [.ev (.sramThermalShutdown d)] else s

/-! ### Cooling loops and tables (22 R401, R402, R404) -/

/-- The table that the loops select. -/
def Power.selects (p : Power) : BitVec 2 := if p.loopA ∧ p.loopB then 0 else if p.loopB then 1 else if p.loopA then 2 else 3
/-- A table is selected for all dies, from the first dc at or after now that is a multiple of 128. -/
def State.selectTable (s : State) : State :=
  ({ s with power := { s.power with pendingTable := some s.power.selects } }).at_ ((s.dc + 127) / 128 * 128) (.ev .tableChange)
/-- An orderly shutdown begins (22 R404 steps 1 to 3). -/
def State.beginShutdown (s : State) : State :=
  if s.power.shutdownAt.isSome then s
  else
    let s := { s with power := { s.power with shutdownAt := some (s.dc + 1200000) } }
    let s := s.occ.foldl (fun s c => [false, true].foldl (fun s b => s.preemptRequest ⟨c, b⟩) s) s
    s.at_ (s.dc + 1200000) (.ev .shutdownStop)
/-- LOOP_LOST (22 R401). -/
def State.loopLost (s : State) (b : Bool) : State :=
  let s := { s with power := if b then { s.power with loopB := false } else { s.power with loopA := false } }
  let s := s.selectTable
  if s.power.selects = 3 then s.beginShutdown else s
/-- LOOP_RECOVERED (22 R401, R404): dies whose SRAM layer had shut down go on. -/
def State.loopRecovered (s : State) (b : Bool) : State :=
  let s := { s with power := if b then { s.power with loopB := true } else { s.power with loopA := true } }
  let s := if s.power.selects = 0 then { s with dies := s.dies.map fun (z : Die) => { z with sramDown := false } } else s
  s.selectTable
/-- TABLE_CHANGE (22 R401, R402): the table takes effect on every die; columns above its VMAX come down, with a settle; a duty
window that begins in this dc has the caps of the new table. -/
def State.tableChange (s : State) : State :=
  match s.power.pendingTable with
  | none => s
  | some t =>
    let s := { s with power := { s.power with pendingTable := none }, dies := s.dies.map fun (z : Die) => { z with dthm := { z.dthm with table := t } } }
    let s := [0#2, 1#2, 2#2, 3#2].foldl (fun s d =>
      let op := s.opTable d
      let s := s.modDie d fun (z : Die) => { z with costs := op.costs }
      let s := (dieCores d).foldl (fun s c =>
        if op.vmax.ult (s.core c).margin.vset then
          (s.modCore c fun k => { k with margin := { k.margin with vset := op.vmax } }).settle c
        else s) s
      s.bbDie d 0x40 (t.zeroExtend 64) (BitVec.ofNat 64 ((if s.power.loopB then 2 else 0) + (if s.power.loopA then 1 else 0)))) s
    s.dutiesAt

/-- A task that has not written back when the shutdown's time is over ends at once. -/
def State.endNow (s : State) (x : CtxId) : State :=
  match (s.ctx x).task, (s.ctx x).flow.phase with
  | none, _ | _, .idle => s
  | some k, ph =>
    let st : BitVec 4 := match ph with
      | .ending st => st
      | _ => 6
    let entry := (s.ctx x).entryPc
    let s := match ph with
      | .ending _ => s
      | _ => (s.abort x).endTask x 6 0x0703 (some entry)
    let s := { s with jobs := s.jobs.filter fun j => j.task != k }
    ((s.modCtx x fun c => c.empty (some k)).taskEnded k st).freeCtx x
/-- A dirty item of a pool written to its HBM copy. -/
def State.flushPool (s : State) (t : Tensor) : State :=
  if !t.dirty || t.lower.isEmpty || !(t.frames.any fun f => decide (2 ^ 39 ≤ f.1 * 4096 ∧ f.1 * 4096 < 2 ^ 39 + 2 ^ 32)) then s
  else
    let s := if t.st = 5 then s.fillFrames t.lower t.cdata t.cpois else s.moveFrames t.frames t.lower
    s.modTensor t.id fun t => { t with dirty := false }
/-- Lines in state M go home. -/
def State.flushL1 (s : State) (c : BitVec 8) : State :=
  ((s.core c).l1.filter fun l => l.st == .m).foldl (fun s l => (s.homeWriteAt (l.line * 128) (natToBytes l.data.toNat 128)).2) s
/-- SHUTDOWN_STOP (22 R404 steps 3 to 5). -/
def State.shutdownStop (s : State) : State :=
  match s.power.shutdownAt with
  | none => s
  | some d =>
    if s.dc < d ∨ !s.power.on then s
    else
      let s := s.occ.foldl (fun s c => [false, true].foldl (fun s b => s.endNow ⟨c, b⟩) s) s
      let s := ([0#2, 1#2, 2#2, 3#2].flatMap dieCores).foldl (fun s c => s.flushL1 c) s
      let s := s.tensors.foldl (fun s t => s.flushPool t) s
      { s.bbFlush with power := { s.power with on := false } }

/-! ### Resets and the boot (22 R397, R408-R411) -/

/-- What a channel pair's training came to (22 R409): its two bits of a free value. -/
def State.trainDie (s : State) (d : BitVec 2) : State :=
  let (v, s) := s.draw .training
  let two (i : Nat) : Nat := v / 4 ^ i % 4
  let lender (i : Nat) : Nat := 2 * i + v / 2 ^ (64 + i) % 2
  let done := (List.range 32).filter fun i => two i == 2
  let late := (List.range 32).filter fun i => two i == 3
  let s := s.modDie d fun (z : Die) => { z with withheld := done.map lender, lend := late.map (BitVec.ofNat 5) }
  late.foldl (fun s i => s.at_ (s.dc + 2048) (.ev (.laneLendTimeout d (BitVec.ofNat 5 i)))) s
/-- The boot stops. -/
def State.bootStops (s : State) (step : BitVec 4) (cause : BitVec 8) : State :=
  { s with power := { s.power with bootStep := step, bootFail := some cause } }
/-- Boot step 6: post-package repair (22 R408). The rows of the repair log that no spare row replaces stay in it, and their frames
are unusable. -/
def State.repair (s : State) (d : BitVec 2) : State :=
  let (s, left) := (s.die d).repairLog.foldl (fun (acc : State × List Nat) r =>
    let (v, s) := acc.1.draw .training
    (s, if v % 2 = 0 then acc.2 else acc.2 ++ [r])) (s, [])
  s.modDie d fun (z : Die) => { z with repairLog := left, badRows := left, ctr := { z.ctr with rplog := BitVec.ofNat 32 left.length } }
/-- Steps 5 to 8. -/
def State.finishBoot (s : State) (train : Bool) : State :=
  let (v, s) := s.draw .training
  if train ∧ v % 2 = 1 then s.bootStops 5 5
  else
    let s := { s with power := { s.power with mode := s.power.nextMode.getD s.power.mode, nextMode := none } }
    let s := if s.power.repairs then [0#2, 1#2, 2#2, 3#2].foldl (fun s d => s.repair d) s else s
    let s := if train then { s with cores := s.cores.mapFinIdx fun i k _ => { k with margin := { k.margin with quar := Config.quarantineMap (BitVec.ofNat 8 i) } } } else s
    let s := [0#2, 1#2, 2#2, 3#2].foldl (fun s d =>
      let op := s.opTable d
      s.modDie d fun (z : Die) => { z with costs := op.costs }) s
    { s.idleDuty with power := { s.power with bootStep := 8, repairs := false } }
/-- What the ROM finds of an image (22 R410), as BOOTST names it (22 R412): 1 key, 2 version, 3 signature; 0 accepts it. -/
def imageVerdict (recovery : Bool) : BitVec 8 :=
  if Config.sha3_512 (Config.imageKey recovery) ≠ Config.pkh then 1
  else if (Config.imageSvn recovery).ult Config.svn then 2
  else if !Config.mlDsaVerify (Config.imageKey recovery) (natToBytes (Config.sha3_512 (Config.imageBody recovery)).toNat 64) (Config.imageSig recovery)
  then 3
  else 0
/-- The boot (22 R411). `train` says whether steps 4 to 7 run. Where neither image is accepted BOOTST names what failed of the
primary one (DESIGN CHOICE, log 6). -/
def State.boot (s : State) (train : Bool) : State :=
  if imageVerdict false ≠ 0 ∧ imageVerdict true ≠ 0 then s.bootStops 1 (imageVerdict false)
  else
    let (v, s) := s.draw .sensor
    let s := { s with power := { s.power with recovery := imageVerdict false != 0, loopA := v % 2 == 0, loopB := v / 2 % 2 == 0 } }
    let t : BitVec 2 := s.power.selects
    if t = 3 then s.bootStops 3 6
    else
      let s := { s with dies := s.dies.map fun (z : Die) => { z with dthm := { z.dthm with table := t } } }
      let vnom := (s.opTable 0).vnom
      let s := { s with cores := s.cores.map fun (k : Core) => { k with margin := { k.margin with vset := vnom } } }
      if !train then s.finishBoot false
      else
        let (h, s) := s.draw .training
        if h % 2 = 1 then s.bootStops 4 4
        else
          let s := [0#2, 1#2, 2#2, 3#2].foldl (fun s d => s.trainDie d) s
          if s.dies.toList.all (·.lend.isEmpty) then s.finishBoot true
          else { s with power := { s.power with bootStep := 4 } }
/-- LANE_LEND_TIMEOUT (22 R409): both channels of a pair are marked failed; the boot goes on after the last lend. -/
def State.laneLendTimeout (s : State) (d : BitVec 2) (pair : BitVec 5) : State :=
  if !(s.die d).lend.contains pair then s
  else
    let s := s.modDie d fun (z : Die) => { z with
      lend := z.lend.filter (· != pair), withheld := z.withheld ++ [2 * pair.toNat, 2 * pair.toNat + 1] }
    if s.power.bootStep = 4 ∧ s.power.bootFail.isNone ∧ (s.dies.toList.all (·.lend.isEmpty)) = true then s.finishBoot true else s

/-- The machine of a reset: nothing runs, the dc counts from zero; what reaches the machine from outside stays due. No loop flows
until boot step 3 (22 R401). A warm reset leaves the partition mode in force (DESIGN CHOICE, log 103); the boot after a cold one takes
that of the boot configuration (21 R388), in `State.coldReset`. -/
def State.cleared (s : State) : State :=
  { State.reset with
    inputs := s.inputs.map fun (p : Nat × Act) => (p.1 - s.dc, p.2), fresh := s.fresh, nextId := s.nextId, tables := s.tables
    hosts := s.hosts.map fun (h : HostFn) => { msix := h.msix, reads := h.reads }, power := { mode := s.power.mode, bootStep := 0, loopA := false, loopB := false } }
/-- COLD_RESET: the partition mode is that of the boot configuration; 3 is never one (21 R388). -/
def State.coldReset (s : State) : State :=
  let n := s.cleared
  State.boot { n with power := { n.power with mode := 0, nextMode := some (if Config.bootMode = 3 then 0 else Config.bootMode) } } true

/-- Whether an address keeps its contents through a warm reset: HBM, LPDDR 6, and the ring. -/
def keptWarm (a : Nat) : Bool := decide (a < 2 ^ 39) || ringByte a || decide (2 ^ 40 ≤ a ∧ a < 2 ^ 41)
/-- A record that survives a warm reset in memory. -/
def Task.afterReset (t : Task) : Task := { t with since := 0, mons := [], effPri := t.pri }
/-- WARM_RESET. What lay in memory that is not kept goes as in 20 R374 (log 103). -/
def State.warmReset (s : State) : State :=
  let s := (s.bbFlush.loseItems fun f => !keptWarm (f * 4096)).1
  let n := s.cleared
  let keepDie (z : Die) : Die := {
    ctr := { z.ctr with discards := 0 }, bbNext := z.bbNext, bbWraps := z.bbWraps, repairLog := z.repairLog
    withheld := z.withheld, badRows := z.badRows }
  let n := { n with
    cores := s.cores.map fun (k : Core) => { margin := { quar := k.margin.quar, esc := k.margin.esc, crep := k.margin.crep } }
    dies := s.dies.map keepDie
    mem := { s.mem with
      cells := s.mem.cells.filter fun c => keptWarm c.1, poison := s.mem.poison.filter fun b => keptWarm (b * 512)
      flips := s.mem.flips.filter fun p => keptWarm (p.1 * 512) && !s.mem.cache.contains (p.1, true), cache := [] }
    tensors := s.tensors, kvs := s.kvs
    work := { s.work with
      tasks := s.work.tasks.map Task.afterReset, reserves := [], returning := []
      gangs := s.work.gangs.map fun (g : Gang) => { g with placed := false, leaving := false }
      launches := s.work.launches.map fun (l : Launch) => { l with accepted := 0, passedAt := none } } }
  let n := n.work.gangs.foldl (fun n g => n.returnGang g.id) n
  n.boot false
/-- MAINTENANCE_RESET: the ring and the repair log survive; firmware chooses the mode at boot step 5 (21 R387, 22 R411). -/
def State.maintenanceReset (s : State) (mode : BitVec 2) : State :=
  let s := s.bbFlush
  let n := s.cleared
  let n := { n with
    dies := s.dies.map fun (z : Die) => { bbNext := z.bbNext, bbWraps := z.bbWraps, repairLog := z.repairLog }
    mem := { cells := s.mem.cells.filter fun c => ringByte c.1 }
    power := { n.power with nextMode := if mode = 3 then none else some mode, repairs := true } }
  n.boot true

end Sys2Proof.Machine
end

