-- ==== Sys2Proof/Machine/Events.lean ====
section
/-! DEFINITION. The device events as rows of the opcode table: one meaning each, and what the agenda runs. -/

namespace Sys2Proof.Machine

/-- SPAWN_POST (R129): a committed SPAWN enters the FIFO of queue q of its die. -/
def execSpawnPost (x : CtxId) (id : Nat) (q : BitVec 4) (lba : BitVec 57) (dbg : Bool) (cookie : Word) (s : State) : Out := .next (s.spawnPost x id q lba dbg cookie)
/-- MLDW_FILL_LAND (R166): the last block of fill number `fill` of slot ws has landed. -/
def execMldwFillLand (x : CtxId) (ws : CReg) (fill : Nat) (s : State) : Out := .next (s.mldwFillLand x ws fill)
/-- SCRATCHPAD_DRAIN_ROW (R172): one row of a scratchpad drain is written through the engine port. -/
def execScratchpadDrainRow (x : CtxId) (drain : Nat) (row : Nat) (s : State) : Out := .next (s.scratchpadDrainRow x drain row)
/-- MEMORY_DRAIN_ROW (R172): one row of a memory drain is performed at its home slice. -/
def execMemoryDrainRow (x : CtxId) (drain : Nat) (row : Nat) (s : State) : Out := .next (s.memoryDrainRow x drain row)
/-- ENGINE_DC (R157): one array dc of engine work. -/
def execEngineDc (core : BitVec 8) (s : State) : Out := .next (s.engineDc core)
/-- PICCOLO_RESIDENCY_RESUME (R174): Piccolo goes on once the pages it waits for are resident. -/
def execPiccoloResidencyResume (x : CtxId) (s : State) : Out := .next (s.piccoloResume x)
/-- PAGE_LANDED (R176): the page-landed message of MATTN. -/
def execPageLanded (core : BitVec 8) (bank : Nat) (row : Nat) (page : BitVec 16) (s : State) : Out := .next (s.pageLanded core bank row page)
/-- L1_FILL (R187): a missing line is filled. -/
def execL1Fill (core : BitVec 8) (line : Nat) (data : LineData) (st : LineSt) (guardTag : Nat) (poison : Bool) (s : State) : Out := .next (s.fillL1 core line data st guardTag poison)
/-- REFILL_COMPLETE (R252): an item is back in the pool or HBM. -/
def execRefillComplete (item : Item) (s : State) : Out := .next (s.refillComplete item)
/-- LINE_DRAIN (R191): committed line number `id` is drained. -/
def execLineDrain (x : CtxId) (id : Nat) (s : State) : Out := .next (s.lineDrain x id)
/-- ATOMIC_AT_HOME (R197): the home slice performs an atomic. -/
def execAtomicAtHome (x : CtxId) (id : Nat) (op : AtomicOp) (pa : Nat) (n : Nat) (a : BitVec 128) (b : BitVec 128) (dst : Option GReg) (s : State) : Out := .next (s.atomicAtHome x id op pa n a b dst)
/-- REPLY_ARRIVAL (R100): a reply ends a freeze and writes its register. -/
def execReplyArrival (x : CtxId) (id : Nat) (r : Reply) (s : State) : Out := .next (s.replyArrival x id r)
/-- MONITOR_ARM (R198): the home slice arms a monitor. -/
def execMonitorArm (x : CtxId) (id : Nat) (mon : BitVec 12) (pa : Nat) (s : State) : Out := .next (s.monitorArm x id mon pa)
/-- SPURIOUS_MONITOR_EVENT (R220): a spurious monitor event. -/
def execSpuriousMonitorEvent (x : CtxId) (mon : BitVec 12) (s : State) : Out := .next (s.spuriousMonitorEvent x mon)
/-- COPY_BLOCK_ISSUE (R353): a requested block issues in its lane's slot. -/
def execCopyBlockIssue (x : CtxId) (job : Nat) (block : Nat) (s : State) : Out := .next ((s.copyBlockIssue x job block).jobNeeds job (.ev (.copyBlockIssue x job block)))
/-- COPY_BLOCK_LAND (R353): a block lands or is performed at home. -/
def execCopyBlockLand (x : CtxId) (job : Nat) (block : Nat) (s : State) : Out := .next ((s.copyBlockLand x job block).jobNeeds job (.ev (.copyBlockLand x job block)))
/-- BARRIER_ARRIVAL (R217): an arrival counts at the barrier's home. -/
def execBarrierArrival (g : GangId) (bar : BitVec 11) (src : Option CtxId) (id : Nat) (s : State) : Out := .next (s.barrierArrival g bar src id)
/-- REL_PERFORM (R222): the REL increment is performed at home. -/
def execRelPerform (x : CtxId) (id : Nat) (pa : Nat) (s : State) : Out := .next (s.relPerform x id pa)
/-- FENCE_COMPLETE (R223): every counted write has reached the scope or failed. -/
def execFenceComplete (x : CtxId) (s : State) : Out := .next (s.fenceComplete x)
/-- HOLD_RELEASE (R213): a hold's condition is met. -/
def execHoldRelease (x : CtxId) (s : State) : Out := .next (s.holdRelease x)
/-- HOLD_TIMEOUT (R213): a hold has lasted 2^30 dc. -/
def execHoldTimeout (x : CtxId) (s : State) : Out := .next (s.holdTimeout x)
/-- MEMORY_TIMEOUT (R335): a freeze has lasted 2^16 dc. -/
def execMemoryTimeout (x : CtxId) (s : State) : Out := .next (s.memoryTimeout x)
/-- PROGRESS_WATCHDOG (R41): the cc count has reached 2^WDLOG. -/
def execProgressWatchdog (x : CtxId) (s : State) : Out := .next (s.progressWatchdog x)
/-- HARD_WATCHDOG (R41): no resumption point within 2^16 dc of the watchdog request. -/
def execHardWatchdog (x : CtxId) (s : State) : Out := .next (s.hardWatchdog x)
/-- SHADOW_LATCH_SQUASH (R49): a shadow latch catches a late transition in this dc. -/
def execShadowLatchSquash (core : BitVec 8) (s : State) : Out := .next (s.shadowLatchSquash core)
/-- REGULATOR_SETTLE_END (R399): a regulator settle ends. -/
def execRegulatorSettleEnd (core : BitVec 8) (s : State) : Out := .next (s.regulatorSettleEnd core)
/-- TAKE_ASYNC_REQUEST (R323): the first pending request is taken at a resumption point. -/
def execTakeAsyncRequest (x : CtxId) (s : State) : Out := .next (s.takeAsyncRequest x)
/-- PREEMPT_REQUEST (R34): the scheduler asks for pre-emption. -/
def execPreemptRequest (x : CtxId) (s : State) : Out := .next (s.preemptRequest x)
/-- PICKUP (R29): an idle context takes a ready record. -/
def execPickup (x : CtxId) (task : Nat) (s : State) : Out := .next (s.pickup x task)
/-- WRITE_BACK (R65): a context leaves its task at a suspension point. -/
def execWriteBack (x : CtxId) (s : State) : Out := .next (s.writeBack x)
/-- TASK_RELEASE (R30): an ended task releases its context. -/
def execTaskRelease (x : CtxId) (s : State) : Out := .next (s.taskRelease x)
/-- UNIT_COMPLETION (R39): a unit whose counter reached zero completes. -/
def execUnitCompletion (u : UnitRef) (s : State) : Out := .next (s.unitCompletion u)
/-- COMPLETION_ENTRY_POST (R328): a completion entry is posted. -/
def execCompletionEntryPost (u : UnitRef) (s : State) : Out := .next (s.completionEntryPost u)
/-- DOORBELL (R390): the host rings a doorbell. -/
def execDoorbell (die : BitVec 2) (q : BitVec 4) (s : State) : Out := .next (s.doorbell die q)
/-- SCHDB (R333): system software rings a doorbell. -/
def execSchdb (die : BitVec 2) (q : BitVec 4) (s : State) : Out := .next (s.schdb die q)
/-- TAKE_COMMAND (R330): the dispatcher takes one command. -/
def execTakeCommand (die : BitVec 2) (s : State) : Out := .next (s.takeCommand die)
/-- ADMIT_GANG (R331): the dispatcher offers head gangs and places one. -/
def execAdmitGang (die : BitVec 2) (s : State) : Out := .next (s.admitGang die)
/-- GANG_RESERVATION (R331): a passed-over head gang begins reserving. -/
def execGangReservation (g : GangId) (s : State) : Out := .next (s.gangReservation g)
/-- PRIORITY_PROMOTION (R332): a waiting record's effective priority rises. -/
def execPriorityPromotion (task : Nat) (s : State) : Out := .next (s.priorityPromotion task)
/-- MIGRATION_REQUEST (R337): a hot column's contexts are asked to migrate. -/
def execMigrationRequest (core : BitVec 8) (s : State) : Out := .next (s.migrationRequest core)
/-- MIGRATION (R337): the move of a hot core's occupancy. -/
def execMigration (src : BitVec 8) (dst : BitVec 8) (s : State) : Out := .next (s.migration src dst)
/-- DUTY_TAKES_EFFECT (R336): a change of duty takes effect at a window boundary. -/
def execDutyTakesEffect (x : CtxId) (s : State) : Out := .next (s.dutyTakesEffect x)
/-- THERMAL_DUTY_UPDATE (R403): the thermal controller's step. -/
def execThermalDutyUpdate (core : BitVec 8) (s : State) : Out := .next (s.thermalDutyUpdate core)
/-- GETS (R363): a load miss is served at home. -/
def execGets (core : BitVec 8) (line : Nat) (coh : Bool) (guardTag : Nat) (s : State) : Out := .next (s.gets core line coh guardTag)
/-- GETM (R363): a line drain asks for M. -/
def execGetm (core : BitVec 8) (line : Nat) (s : State) : Out := .next (s.getm core line)
/-- PUTM (R363): a line leaves an L1. -/
def execPutm (core : BitVec 8) (line : Nat) (s : State) : Out := .next (s.putm core line)
/-- INVALIDATION (R364): an invalidation or recall reaches an L1. -/
def execInvalidation (core : BitVec 8) (line : Nat) (kind : Recall) (s : State) : Out := .next (s.invalidation core line kind)
/-- INVALIDATION_ACK (R364): an acknowledgement arrives at home. -/
def execInvalidationAck (core : BitVec 8) (line : Nat) (data : Option LineData) (s : State) : Out := .next (s.ackDir core line data)
/-- RESIDENCY_ACTION (R373): Bassoon chooses a victim of a full tier and marks it moving. -/
def execResidencyAction (die : BitVec 2) (tier : BitVec 2) (s : State) : Out := .next (s.residencyAction die tier.toNat)
/-- RESIDENCY_ACTION_FINISH (R373): Bassoon carries the action out. -/
def execResidencyActionFinish (item : Item) (s : State) : Out := .next (s.residencyFinish item)
/-- SRAM_THERMAL_SHUTDOWN (R374): the SRAM layer passes its shutdown temperature. -/
def execSramThermalShutdown (die : BitVec 2) (s : State) : Out := .next (s.sramThermalShutdown die)
/-- LOOP_LOST (R401): a cooling loop is lost. -/
def execLoopLost (loopB : Bool) (s : State) : Out := .next (s.loopLost loopB)
/-- LOOP_RECOVERED (R401): a cooling loop has recovered. -/
def execLoopRecovered (loopB : Bool) (s : State) : Out := .next (s.loopRecovered loopB)
/-- TABLE_CHANGE (R401): the selected operating table takes effect. -/
def execTableChange (s : State) : Out := .next (s.tableChange)
/-- SHUTDOWN_STOP (R404): 1 ms after the orderly shutdown began. -/
def execShutdownStop (s : State) : Out := .next (s.shutdownStop)
/-- BLACKBOX_SQUASH_WINDOW (R407): a window of 2^16 dc ends. -/
def execBlackboxSquashWindow (core : BitVec 8) (s : State) : Out := .next (s.blackboxSquashWindow core)
/-- COLD_RESET (R397): power-on. -/
def execColdReset (s : State) : Out := .next (s.coldReset)
/-- WARM_RESET (R397): the reset input or firmware. -/
def execWarmReset (s : State) : Out := .next (s.warmReset)
/-- MAINTENANCE_RESET (R397): a warm reset flagged for maintenance, with the mode firmware chooses. -/
def execMaintenanceReset (mode : BitVec 2) (s : State) : Out := .next (s.maintenanceReset mode)
/-- LANE_LEND_TIMEOUT (R409): a lane lend is not complete within 2,048 dc. -/
def execLaneLendTimeout (die : BitVec 2) (pair : BitVec 5) (s : State) : Out := .next (s.laneLendTimeout die pair)
/-- MGN_WRITE (R398): an MTS to MGN. -/
def execMgnWrite (core : BitVec 8) (val : Word) (s : State) : Out := .next (s.mgnWrite core val)
/-- REGISTER_WRITE (R6): a write to a register with no row of its own. -/
def execRegisterWrite (x : CtxId) (num : BitVec 10) (val : Word) (s : State) : Out := .next (s.registerWrite x num val)
/-- HOST_WRITE (R391): a host write through BAR2 (or to a BAR0 register). -/
def execHostWrite (func : BitVec 2) (bar0 : Bool) (off : Nat) (n : Nat) (data : Nat) (s : State) : Out := .next (s.hostWrite func bar0 off n data)
/-- HOST_READ (R391): a host read. -/
def execHostRead (func : BitVec 2) (bar0 : Bool) (off : Nat) (n : Nat) (s : State) : Out := .next (s.hostRead func bar0 off n)
/-- FUNCTION_LEVEL_RESET (R391): a function-level reset. -/
def execFunctionLevelReset (func : BitVec 2) (s : State) : Out := .next (s.functionLevelReset func)
/-- ACMD (R412): a write to ACMD. -/
def execAcmd (func : BitVec 2) (s : State) : Out := .next (s.acmd func)
/-- ATTESTATION_REPORT_DONE (R412): the report is ready. -/
def execAttestationReportDone (func : BitVec 2) (s : State) : Out := .next (s.attestationReportDone func)
/-- LKCTL_UP (R386): a one is written to LKCTL.UP. -/
def execLkctlUp (die : BitVec 2) (peer : BitVec 2) (s : State) : Out := .next (s.lkctlUp die peer)
/-- DATA_FLIT (R379): the next flit of a module arrives, passing its CRC or not. -/
def execDataFlit (src : BitVec 2) (dst : BitVec 2) (m : BitVec 3) (ok : Bool) (s : State) : Out := .next (s.dataFlit src dst m ok)
/-- ACKNOWLEDGEMENT (R379): an ACK reaches the sender src. -/
def execAcknowledgement (src : BitVec 2) (dst : BitVec 2) (m : BitVec 3) (ack : BitVec 12) (s : State) : Out := .next (s.acknowledgement src dst m ack)
/-- NAK (R380): a NAK reaches the sender src. -/
def execNak (src : BitVec 2) (dst : BitVec 2) (m : BitVec 3) (ack : BitVec 12) (s : State) : Out := .next (s.nak src dst m ack)
/-- ACK_TIMER (R379): 64 flit times without an ACK sent from src. -/
def execAckTimer (src : BitVec 2) (dst : BitVec 2) (m : BitVec 3) (s : State) : Out := .next (s.ackTimer src dst m)
/-- REPLAY_TIMEOUT (R380): 2,048 dc without ACK advance at the sender src. -/
def execReplayTimeout (src : BitVec 2) (dst : BitVec 2) (m : BitVec 3) (s : State) : Out := .next (s.replayTimeout src dst m)
/-- CRC_WINDOW_CLOSE (R381): 2^16 further flits have been received at dst. -/
def execCrcWindowClose (src : BitVec 2) (dst : BitVec 2) (m : BitVec 3) (s : State) : Out := .next (s.crcWindowClose src dst m)
/-- RETRAIN_COMPLETE (R381): a retrain ends. -/
def execRetrainComplete (src : BitVec 2) (dst : BitVec 2) (m : BitVec 3) (ok : Bool) (s : State) : Out := .next (s.retrainComplete src dst m ok)
/-- LINK_DEAD (R382): the link of two dies is declared dead. -/
def execLinkDead (p : BitVec 2) (q : BitVec 2) (s : State) : Out := .next (s.linkDead p q)
/-- LINK_STATE_UPDATE (R382): a link-state update arrives. -/
def execLinkStateUpdate (die : BitVec 2) (live : BitVec 6) (version : BitVec 16) (s : State) : Out := .next (s.linkStateUpdate die live version)
/-- DRAIN_MARKER (R383): a drain marker of the peer arrives. -/
def execDrainMarker (die : BitVec 2) (peer : BitVec 2) (m : BitVec 3) (seq : BitVec 12) (s : State) : Out := .next (s.drainMarker die peer m seq)
/-- DRAIN_ROUND (R383): a drain round ends. -/
def execDrainRound (die : BitVec 2) (peer : BitVec 2) (s : State) : Out := .next (s.drainRound die peer)

/-- The meaning of an event. -/
def runEvent (e : Event) (s : State) : Out :=
  match e with
  | .spawnPost x id q lba dbg cookie => execSpawnPost x id q lba dbg cookie s
  | .nullBundle => execNullBundle s
  | .mldwFillLand x ws fill => execMldwFillLand x ws fill s
  | .scratchpadDrainRow x drain row => execScratchpadDrainRow x drain row s
  | .memoryDrainRow x drain row => execMemoryDrainRow x drain row s
  | .engineDc core => execEngineDc core s
  | .piccoloResidencyResume x => execPiccoloResidencyResume x s
  | .pageLanded core bank row page => execPageLanded core bank row page s
  | .l1Fill core line data st guardTag poison => execL1Fill core line data st guardTag poison s
  | .refillComplete item => execRefillComplete item s
  | .lineDrain x id => execLineDrain x id s
  | .atomicAtHome x id op pa n a b dst => execAtomicAtHome x id op pa n a b dst s
  | .replyArrival x id r => execReplyArrival x id r s
  | .monitorArm x id mon pa => execMonitorArm x id mon pa s
  | .spuriousMonitorEvent x mon => execSpuriousMonitorEvent x mon s
  | .copyBlockIssue x job block => execCopyBlockIssue x job block s
  | .copyBlockLand x job block => execCopyBlockLand x job block s
  | .barrierArrival g bar src id => execBarrierArrival g bar src id s
  | .relPerform x id pa => execRelPerform x id pa s
  | .fenceComplete x => execFenceComplete x s
  | .holdRelease x => execHoldRelease x s
  | .holdTimeout x => execHoldTimeout x s
  | .memoryTimeout x => execMemoryTimeout x s
  | .progressWatchdog x => execProgressWatchdog x s
  | .hardWatchdog x => execHardWatchdog x s
  | .shadowLatchSquash core => execShadowLatchSquash core s
  | .regulatorSettleEnd core => execRegulatorSettleEnd core s
  | .takeAsyncRequest x => execTakeAsyncRequest x s
  | .preemptRequest x => execPreemptRequest x s
  | .pickup x task => execPickup x task s
  | .writeBack x => execWriteBack x s
  | .taskRelease x => execTaskRelease x s
  | .unitCompletion u => execUnitCompletion u s
  | .completionEntryPost u => execCompletionEntryPost u s
  | .doorbell die q => execDoorbell die q s
  | .schdb die q => execSchdb die q s
  | .takeCommand die => execTakeCommand die s
  | .admitGang die => execAdmitGang die s
  | .gangReservation g => execGangReservation g s
  | .priorityPromotion task => execPriorityPromotion task s
  | .migrationRequest core => execMigrationRequest core s
  | .migration src dst => execMigration src dst s
  | .dutyTakesEffect x => execDutyTakesEffect x s
  | .thermalDutyUpdate core => execThermalDutyUpdate core s
  | .gets core line coh guardTag => execGets core line coh guardTag s
  | .getm core line => execGetm core line s
  | .putm core line => execPutm core line s
  | .invalidation core line kind => execInvalidation core line kind s
  | .invalidationAck core line data => execInvalidationAck core line data s
  | .residencyAction die tier => execResidencyAction die tier s
  | .residencyActionFinish item => execResidencyActionFinish item s
  | .sramThermalShutdown die => execSramThermalShutdown die s
  | .loopLost loopB => execLoopLost loopB s
  | .loopRecovered loopB => execLoopRecovered loopB s
  | .tableChange => execTableChange s
  | .shutdownStop => execShutdownStop s
  | .blackboxSquashWindow core => execBlackboxSquashWindow core s
  | .coldReset => execColdReset s
  | .warmReset => execWarmReset s
  | .maintenanceReset mode => execMaintenanceReset mode s
  | .laneLendTimeout die pair => execLaneLendTimeout die pair s
  | .mgnWrite core val => execMgnWrite core val s
  | .registerWrite x num val => execRegisterWrite x num val s
  | .hostWrite func bar0 off n data => execHostWrite func bar0 off n data s
  | .hostRead func bar0 off n => execHostRead func bar0 off n s
  | .functionLevelReset func => execFunctionLevelReset func s
  | .acmd func => execAcmd func s
  | .attestationReportDone func => execAttestationReportDone func s
  | .lkctlUp die peer => execLkctlUp die peer s
  | .dataFlit src dst m ok => execDataFlit src dst m ok s
  | .acknowledgement src dst m ack => execAcknowledgement src dst m ack s
  | .nak src dst m ack => execNak src dst m ack s
  | .ackTimer src dst m => execAckTimer src dst m s
  | .replayTimeout src dst m => execReplayTimeout src dst m s
  | .crcWindowClose src dst m => execCrcWindowClose src dst m s
  | .retrainComplete src dst m ok => execRetrainComplete src dst m ok s
  | .linkDead p q => execLinkDead p q s
  | .linkStateUpdate die live version => execLinkStateUpdate die live version s
  | .drainMarker die peer m seq => execDrainMarker die peer m seq s
  | .drainRound die peer => execDrainRound die peer s
  | .illegalEncoding mask => execIllegalEncoding mask s

/-- The state after an act; each act goes on with a next state. -/
def State.ofOut (s : State) (o : Out) : State :=
  match o with
  | .next t => t
  | _ => s
/-- What the agenda carries is performed. -/
def State.runAct (s : State) (a : Act) : State :=
  match a with
  | .ev e => s.ofOut (runEvent e s)
  | .op x id slot bundle o => s.performOp x id slot bundle o
  | .bitErrors block bits => s.strike block bits
  | .slow id b n => s.slowBlock id b n
  | .w0 x id bank row w => s.landW0 x id bank row w
  | .hostNext f => s.hostNext f
  | .cxlFailed id b write => s.cxlFailed id b write
  | .flit src dst m bytes => s.flitArrives src dst m bytes

end Sys2Proof.Machine
end

