-- ==== Sys2Proof/Machine/Dispatch.lean ====
section
/-! DEFINITION. One arm per constructor of Instr. -/

namespace Sys2Proof.Machine

def exec (i : Instr) (s : State) : Host.Outcome State Fault Refusal :=
  match i with
  | .add gd gs1 gs2 => Sys2Proof.Machine.execAdd gd gs1 gs2 s
  | .sub gd gs1 gs2 => Sys2Proof.Machine.execSub gd gs1 gs2 s
  | .mul gd gs1 gs2 => Sys2Proof.Machine.execMul gd gs1 gs2 s
  | .mulh gd gs1 gs2 => Sys2Proof.Machine.execMulh gd gs1 gs2 s
  | .mulhn gd gs1 gs2 => Sys2Proof.Machine.execMulhn gd gs1 gs2 s
  | .div gd gs1 gs2 => Sys2Proof.Machine.execDiv gd gs1 gs2 s
  | .divn gd gs1 gs2 => Sys2Proof.Machine.execDivn gd gs1 gs2 s
  | .rem gd gs1 gs2 => Sys2Proof.Machine.execRem gd gs1 gs2 s
  | .remn gd gs1 gs2 => Sys2Proof.Machine.execRemn gd gs1 gs2 s
  | .and gd gs1 gs2 => Sys2Proof.Machine.execAnd gd gs1 gs2 s
  | .or gd gs1 gs2 => Sys2Proof.Machine.execOr gd gs1 gs2 s
  | .xor gd gs1 gs2 => Sys2Proof.Machine.execXor gd gs1 gs2 s
  | .andn gd gs1 gs2 => Sys2Proof.Machine.execAndn gd gs1 gs2 s
  | .shl gd gs1 gs2 => Sys2Proof.Machine.execShl gd gs1 gs2 s
  | .shr gd gs1 gs2 => Sys2Proof.Machine.execShr gd gs1 gs2 s
  | .sha gd gs1 gs2 => Sys2Proof.Machine.execSha gd gs1 gs2 s
  | .rot gd gs1 gs2 => Sys2Proof.Machine.execRot gd gs1 gs2 s
  | .min gd gs1 gs2 => Sys2Proof.Machine.execMin gd gs1 gs2 s
  | .max gd gs1 gs2 => Sys2Proof.Machine.execMax gd gs1 gs2 s
  | .minn gd gs1 gs2 => Sys2Proof.Machine.execMinn gd gs1 gs2 s
  | .maxn gd gs1 gs2 => Sys2Proof.Machine.execMaxn gd gs1 gs2 s
  | .clz gd gs1 => Sys2Proof.Machine.execClz gd gs1 s
  | .ctz gd gs1 => Sys2Proof.Machine.execCtz gd gs1 s
  | .popc gd gs1 => Sys2Proof.Machine.execPopc gd gs1 s
  | .sel gd ps gs1 gs2 => Sys2Proof.Machine.execSel gd ps gs1 gs2 s
  | .addi gd gs1 imm => Sys2Proof.Machine.execAddi gd gs1 imm s
  | .andi gd gs1 imm => Sys2Proof.Machine.execAndi gd gs1 imm s
  | .ori gd gs1 imm => Sys2Proof.Machine.execOri gd gs1 imm s
  | .xori gd gs1 imm => Sys2Proof.Machine.execXori gd gs1 imm s
  | .shli gd gs1 n => Sys2Proof.Machine.execShli gd gs1 n s
  | .shri gd gs1 n => Sys2Proof.Machine.execShri gd gs1 n s
  | .shai gd gs1 n => Sys2Proof.Machine.execShai gd gs1 n s
  | .movi gd imm => Sys2Proof.Machine.execMovi gd imm s
  | .movhi gd imm => Sys2Proof.Machine.execMovhi gd imm s
  | .cmpi pd gs1 imm cond => Sys2Proof.Machine.execCmpi pd gs1 imm cond s
  | .cmp pd gs1 gs2 cond => Sys2Proof.Machine.execCmp pd gs1 gs2 cond s
  | .pand pd ps1 ps2 => Sys2Proof.Machine.execPand pd ps1 ps2 s
  | .por pd ps1 ps2 => Sys2Proof.Machine.execPor pd ps1 ps2 s
  | .pxor pd ps1 ps2 => Sys2Proof.Machine.execPxor pd ps1 ps2 s
  | .pandn pd ps1 ps2 => Sys2Proof.Machine.execPandn pd ps1 ps2 s
  | .pnot pd ps1 => Sys2Proof.Machine.execPnot pd ps1 s
  | .pmov pd ps1 => Sys2Proof.Machine.execPmov pd ps1 s
  | .amov ad asr => Sys2Proof.Machine.execAmov ad asr s
  | .aadd ad asr gs imm => Sys2Proof.Machine.execAadd ad asr gs imm s
  | .aget gd asr sel => Sys2Proof.Machine.execAget gd asr sel s
  | .abind ad gs1 gs2 => Sys2Proof.Machine.execAbind ad gs1 gs2 s
  | .astr ad gs imm => Sys2Proof.Machine.execAstr ad gs imm s
  | .br off => Sys2Proof.Machine.execBr off s
  | .brc gs1 gs2 off cond => Sys2Proof.Machine.execBrc gs1 gs2 off cond s
  | .jmp gs => Sys2Proof.Machine.execJmp gs s
  | .call gd off => Sys2Proof.Machine.execCall gd off s
  | .ret gs => Sys2Proof.Machine.execRet gs s
  | .loop lc gs off sm1 => Sys2Proof.Machine.execLoop lc gs off sm1 s
  | .lexit lc off => Sys2Proof.Machine.execLexit lc off s
  | .spawn gs q => Sys2Proof.Machine.execSpawn gs q s
  | .tend => Sys2Proof.Machine.execTend s
  | .trap imm => Sys2Proof.Machine.execTrap imm s
  | .chk x1 x2 kind => Sys2Proof.Machine.execChk x1 x2 kind s
  | .chkp ps1 ps2 => Sys2Proof.Machine.execChkp ps1 ps2 s
  | .mfc gd num => Sys2Proof.Machine.execMfc gd num s
  | .mtc num gs => Sys2Proof.Machine.execMtc num gs s
  | .mfs gd num => Sys2Proof.Machine.execMfs gd num s
  | .mts num gs => Sys2Proof.Machine.execMts num gs s
  | .tret => Sys2Proof.Machine.execTret s
  | .tretEnd gs => Sys2Proof.Machine.execTretEnd gs s
  | .tretYield => Sys2Proof.Machine.execTretYield s
  | .ctxsv gs => Sys2Proof.Machine.execCtxsv gs s
  | .ctxld gs => Sys2Proof.Machine.execCtxld gs s
  | .mown => Sys2Proof.Machine.execMown s
  | .mgive => Sys2Proof.Machine.execMgive s
  | .tlbiAll sc gs => Sys2Proof.Machine.execTlbiAll sc gs s
  | .tlbiVa sc gs => Sys2Proof.Machine.execTlbiVa sc gs s
  | .tlbiWalk sc gs => Sys2Proof.Machine.execTlbiWalk sc gs s
  | .vadd vd vs1 src km sat => Sys2Proof.Machine.execVadd vd vs1 src km sat s
  | .vsub vd vs1 src km sat => Sys2Proof.Machine.execVsub vd vs1 src km sat s
  | .vmul vd vs1 src km sat => Sys2Proof.Machine.execVmul vd vs1 src km sat s
  | .vmulh vd vs1 src km sat => Sys2Proof.Machine.execVmulh vd vs1 src km sat s
  | .vmin vd vs1 src km sat => Sys2Proof.Machine.execVmin vd vs1 src km sat s
  | .vmax vd vs1 src km sat => Sys2Proof.Machine.execVmax vd vs1 src km sat s
  | .vminn vd vs1 src km sat => Sys2Proof.Machine.execVminn vd vs1 src km sat s
  | .vmaxn vd vs1 src km sat => Sys2Proof.Machine.execVmaxn vd vs1 src km sat s
  | .vabs vd vs1 km sat => Sys2Proof.Machine.execVabs vd vs1 km sat s
  | .vand vd vs1 src km sat => Sys2Proof.Machine.execVand vd vs1 src km sat s
  | .vor vd vs1 src km sat => Sys2Proof.Machine.execVor vd vs1 src km sat s
  | .vxor vd vs1 src km sat => Sys2Proof.Machine.execVxor vd vs1 src km sat s
  | .vandn vd vs1 src km sat => Sys2Proof.Machine.execVandn vd vs1 src km sat s
  | .vshl vd vs1 src km sat => Sys2Proof.Machine.execVshl vd vs1 src km sat s
  | .vshr vd vs1 src km sat => Sys2Proof.Machine.execVshr vd vs1 src km sat s
  | .vsha vd vs1 src km sat => Sys2Proof.Machine.execVsha vd vs1 src km sat s
  | .vcmp kd vs1 src km cond => Sys2Proof.Machine.execVcmp kd vs1 src km cond s
  | .vsel vd vs1 vs2 km => Sys2Proof.Machine.execVsel vd vs1 vs2 km s
  | .vfadd vd vs1 vs2 km => Sys2Proof.Machine.execVfadd vd vs1 vs2 km s
  | .vfsub vd vs1 vs2 km => Sys2Proof.Machine.execVfsub vd vs1 vs2 km s
  | .vfmul vd vs1 vs2 km => Sys2Proof.Machine.execVfmul vd vs1 vs2 km s
  | .vfma vd vs1 vs2 vs3 km => Sys2Proof.Machine.execVfma vd vs1 vs2 vs3 km s
  | .vfms vd vs1 vs2 vs3 km => Sys2Proof.Machine.execVfms vd vs1 vs2 vs3 km s
  | .vfmin vd vs1 vs2 km => Sys2Proof.Machine.execVfmin vd vs1 vs2 km s
  | .vfmax vd vs1 vs2 km => Sys2Proof.Machine.execVfmax vd vs1 vs2 km s
  | .vfabs vd vs1 km => Sys2Proof.Machine.execVfabs vd vs1 km s
  | .vfneg vd vs1 km => Sys2Proof.Machine.execVfneg vd vs1 km s
  | .vfcmp kd vs1 vs2 km cond => Sys2Proof.Machine.execVfcmp kd vs1 vs2 km cond s
  | .vexp2 vd vs1 km => Sys2Proof.Machine.execVexp2 vd vs1 km s
  | .vlog2 vd vs1 km => Sys2Proof.Machine.execVlog2 vd vs1 km s
  | .vrcp vd vs1 km => Sys2Proof.Machine.execVrcp vd vs1 km s
  | .vrsq vd vs1 km => Sys2Proof.Machine.execVrsq vd vs1 km s
  | .vcvt vd vs1 km src tgt => Sys2Proof.Machine.execVcvt vd vs1 km src tgt s
  | .vcvts vd vs1 vs2 km src tgt => Sys2Proof.Machine.execVcvts vd vs1 vs2 km src tgt s
  | .vbfx vd vs1 pos len sx km => Sys2Proof.Machine.execVbfx vd vs1 pos len sx km s
  | .vbfi vd vs1 pos len km => Sys2Proof.Machine.execVbfi vd vs1 pos len km s
  | .vfsh vd vs1 vs2 amt km => Sys2Proof.Machine.execVfsh vd vs1 vs2 amt km s
  | .vpopc vd vs1 km => Sys2Proof.Machine.execVpopc vd vs1 km s
  | .vclz vd vs1 km => Sys2Proof.Machine.execVclz vd vs1 km s
  | .vperm vd vs1 vs2 km => Sys2Proof.Machine.execVperm vd vs1 vs2 km s
  | .vbcast vd src km => Sys2Proof.Machine.execVbcast vd src km s
  | .vslide vd vs1 vs2 n km => Sys2Proof.Machine.execVslide vd vs1 vs2 n km s
  | .vlut vd vs1 bank row0 sz km => Sys2Proof.Machine.execVlut vd vs1 bank row0 sz km s
  | .vcomp vd vs1 km => Sys2Proof.Machine.execVcomp vd vs1 km s
  | .vexpd vd vs1 km => Sys2Proof.Machine.execVexpd vd vs1 km s
  | .vradd gd vs1 km => Sys2Proof.Machine.execVradd gd vs1 km s
  | .vrmax gd vs1 km => Sys2Proof.Machine.execVrmax gd vs1 km s
  | .vrmin gd vs1 km => Sys2Proof.Machine.execVrmin gd vs1 km s
  | .vrfadd gd vs1 km => Sys2Proof.Machine.execVrfadd gd vs1 km s
  | .vrfmax gd vs1 km => Sys2Proof.Machine.execVrfmax gd vs1 km s
  | .vmov vd vs1 km => Sys2Proof.Machine.execVmov vd vs1 km s
  | .vmovi vd imm km => Sys2Proof.Machine.execVmovi vd imm km s
  | .vins vd gs lane => Sys2Proof.Machine.execVins vd gs lane s
  | .vext gd vs1 lane sx => Sys2Proof.Machine.execVext gd vs1 lane sx s
  | .kand kd ks1 ks2 => Sys2Proof.Machine.execKand kd ks1 ks2 s
  | .kor kd ks1 ks2 => Sys2Proof.Machine.execKor kd ks1 ks2 s
  | .kxor kd ks1 ks2 => Sys2Proof.Machine.execKxor kd ks1 ks2 s
  | .knot kd ks1 => Sys2Proof.Machine.execKnot kd ks1 s
  | .kmov form => Sys2Proof.Machine.execKmov form s
  | .kpop gd ks1 => Sys2Proof.Machine.execKpop gd ks1 s
  | .sseed gen gs kind => Sys2Proof.Machine.execSseed gen gs kind s
  | .sgen sd vs gen bp => Sys2Proof.Machine.execSgen sd vs gen bp s
  | .sand sd sa sb => Sys2Proof.Machine.execSand sd sa sb s
  | .sor sd sa sb => Sys2Proof.Machine.execSor sd sa sb s
  | .smin sd sa sb => Sys2Proof.Machine.execSmin sd sa sb s
  | .smax sd sa sb => Sys2Proof.Machine.execSmax sd sa sb s
  | .sxnor sd sa sb => Sys2Proof.Machine.execSxnor sd sa sb s
  | .smux sd sa sb ssel => Sys2Proof.Machine.execSmux sd sa sb ssel s
  | .scnt vd ss mode km => Sys2Proof.Machine.execScnt vd ss mode km s
  | .sregen sd ss gen => Sys2Proof.Machine.execSregen sd ss gen s
  | .sdly sd ss n => Sys2Proof.Machine.execSdly sd ss n s
  | .scls gd ss => Sys2Proof.Machine.execScls gd ss s
  | .mzero ct => Sys2Proof.Machine.execMzero ct s
  | .mldw ws ad imm gk mode => Sys2Proof.Machine.execMldw ws ad imm gk mode s
  | .mma ct pos ws fa kr => Sys2Proof.Machine.execMma ct pos ws fa kr s
  | .mmat ct pos ws fa kr => Sys2Proof.Machine.execMmat ct pos ws fa kr s
  | .mdrain ct tgt zc => Sys2Proof.Machine.execMdrain ct tgt zc s
  | .mdraina ct tgt gc zc cl => Sys2Proof.Machine.execMdraina ct tgt gc zc cl s
  | .mgemm bank row => Sys2Proof.Machine.execMgemm bank row s
  | .mattn bank row => Sys2Proof.Machine.execMattn bank row s
  | .mstep => Sys2Proof.Machine.execMstep s
  | .mcancel => Sys2Proof.Machine.execMcancel s
  | .mbias ct bank row => Sys2Proof.Machine.execMbias ct bank row s
  | .mscale ct bank row => Sys2Proof.Machine.execMscale ct bank row s
  | .ld gd ad sz sx imm => Sys2Proof.Machine.execLd gd ad sz sx imm s
  | .ldv vd ad km imm => Sys2Proof.Machine.execLdv vd ad km imm s
  | .lds form pos ma => Sys2Proof.Machine.execLds form pos ma s
  | .ldsg vd bank row0 vs km ma => Sys2Proof.Machine.execLdsg vd bank row0 vs km ma s
  | .ldg vd ad vs km => Sys2Proof.Machine.execLdg vd ad vs km s
  | .atadd gd ad gs1 sz imm => Sys2Proof.Machine.execAtadd gd ad gs1 sz imm s
  | .atand gd ad gs1 sz imm => Sys2Proof.Machine.execAtand gd ad gs1 sz imm s
  | .ator gd ad gs1 sz imm => Sys2Proof.Machine.execAtor gd ad gs1 sz imm s
  | .atxor gd ad gs1 sz imm => Sys2Proof.Machine.execAtxor gd ad gs1 sz imm s
  | .atmin gd ad gs1 sz imm => Sys2Proof.Machine.execAtmin gd ad gs1 sz imm s
  | .atmax gd ad gs1 sz imm => Sys2Proof.Machine.execAtmax gd ad gs1 sz imm s
  | .atminn gd ad gs1 sz imm => Sys2Proof.Machine.execAtminn gd ad gs1 sz imm s
  | .atmaxn gd ad gs1 sz imm => Sys2Proof.Machine.execAtmaxn gd ad gs1 sz imm s
  | .atswp gd ad gs1 sz imm => Sys2Proof.Machine.execAtswp gd ad gs1 sz imm s
  | .atcas gd ad gs1 gs2 sz imm => Sys2Proof.Machine.execAtcas gd ad gs1 gs2 sz imm s
  | .atfadd gd ad gs1 sz imm => Sys2Proof.Machine.execAtfadd gd ad gs1 sz imm s
  | .marm mon ad imm => Sys2Proof.Machine.execMarm mon ad imm s
  | .st gs ad sz imm => Sys2Proof.Machine.execSt gs ad sz imm s
  | .stv vs ad km lt imm => Sys2Proof.Machine.execStv vs ad km lt imm s
  | .sts vs pos km ma => Sys2Proof.Machine.execSts vs pos km ma s
  | .stss gs pos byte sz ma => Sys2Proof.Machine.execStss gs pos byte sz ma s
  | .stg vs ad vi km lt => Sys2Proof.Machine.execStg vs ad vi km lt s
  | .stz ad imm => Sys2Proof.Machine.execStz ad imm s
  | .cpy pl gn => Sys2Proof.Machine.execCpy pl gn s
  | .cpyw bank row ad gn gm fop => Sys2Proof.Machine.execCpyw bank row ad gn gm fop s
  | .cpyx pl gn fs => Sys2Proof.Machine.execCpyx pl gn fs s
  | .cpyg dst ad ibank irow gn => Sys2Proof.Machine.execCpyg dst ad ibank irow gn s
  | .jsub ad t imm => Sys2Proof.Machine.execJsub ad t imm s
  | .jcan gs => Sys2Proof.Machine.execJcan gs s
  | .tnew gd ad imm => Sys2Proof.Machine.execTnew gd ad imm s
  | .tfree gs => Sys2Proof.Machine.execTfree gs s
  | .tuse gs1 gs2 => Sys2Proof.Machine.execTuse gs1 gs2 s
  | .thint gs hint => Sys2Proof.Machine.execThint gs hint s
  | .tpin gs => Sys2Proof.Machine.execTpin gs s
  | .tunpin gs => Sys2Proof.Machine.execTunpin gs s
  | .tfetch gs tier => Sys2Proof.Machine.execTfetch gs tier s
  | .tlock ad imm gs => Sys2Proof.Machine.execTlock ad imm gs s
  | .tunlock ad imm => Sys2Proof.Machine.execTunlock ad imm s
  | .tinfo gd gs sel => Sys2Proof.Machine.execTinfo gd gs sel s
  | .kvnew gd ad imm => Sys2Proof.Machine.execKvnew gd ad imm s
  | .kvapp gs bank row tag => Sys2Proof.Machine.execKvapp gs bank row tag s
  | .kvret gs1 gs2 mask => Sys2Proof.Machine.execKvret gs1 gs2 mask s
  | .kvpos gd gs1 gs2 sel => Sys2Proof.Machine.execKvpos gd gs1 gs2 sel s
  | .kvinfo gd gs sel => Sys2Proof.Machine.execKvinfo gd gs sel s
  | .wait z lsel lval => Sys2Proof.Machine.execWait z lsel lval s
  | .bari pd gs => Sys2Proof.Machine.execBari pd gs s
  | .bara bar => Sys2Proof.Machine.execBara bar s
  | .barw bar gs => Sys2Proof.Machine.execBarw bar gs s
  | .baraw bar => Sys2Proof.Machine.execBaraw bar s
  | .bfree bar => Sys2Proof.Machine.execBfree bar s
  | .monw mon => Sys2Proof.Machine.execMonw mon s
  | .acq scope ad => Sys2Proof.Machine.execAcq scope ad s
  | .rel scope ad => Sys2Proof.Machine.execRel scope ad s
  | .fence gd scope => Sys2Proof.Machine.execFence gd scope s
  | .yield => Sys2Proof.Machine.execYield s
  | .rdv pd n => Sys2Proof.Machine.execRdv pd n s
  | .spawnPost x id q lba dbg cookie => Sys2Proof.Machine.execSpawnPost x id q lba dbg cookie s
  | .nullBundle => Sys2Proof.Machine.execNullBundle s
  | .mldwFillLand x ws fill => Sys2Proof.Machine.execMldwFillLand x ws fill s
  | .scratchpadDrainRow x drain row => Sys2Proof.Machine.execScratchpadDrainRow x drain row s
  | .memoryDrainRow x drain row => Sys2Proof.Machine.execMemoryDrainRow x drain row s
  | .engineDc core => Sys2Proof.Machine.execEngineDc core s
  | .piccoloResidencyResume x => Sys2Proof.Machine.execPiccoloResidencyResume x s
  | .pageLanded core bank row page => Sys2Proof.Machine.execPageLanded core bank row page s
  | .l1Fill core line data st guardTag poison => Sys2Proof.Machine.execL1Fill core line data st guardTag poison s
  | .refillComplete item => Sys2Proof.Machine.execRefillComplete item s
  | .lineDrain x id => Sys2Proof.Machine.execLineDrain x id s
  | .atomicAtHome x id op pa n a b dst => Sys2Proof.Machine.execAtomicAtHome x id op pa n a b dst s
  | .replyArrival x id r => Sys2Proof.Machine.execReplyArrival x id r s
  | .monitorArm x id mon pa => Sys2Proof.Machine.execMonitorArm x id mon pa s
  | .spuriousMonitorEvent x mon => Sys2Proof.Machine.execSpuriousMonitorEvent x mon s
  | .copyBlockIssue x job block => Sys2Proof.Machine.execCopyBlockIssue x job block s
  | .copyBlockLand x job block => Sys2Proof.Machine.execCopyBlockLand x job block s
  | .barrierArrival g bar src id => Sys2Proof.Machine.execBarrierArrival g bar src id s
  | .relPerform x id pa => Sys2Proof.Machine.execRelPerform x id pa s
  | .fenceComplete x => Sys2Proof.Machine.execFenceComplete x s
  | .holdRelease x => Sys2Proof.Machine.execHoldRelease x s
  | .holdTimeout x => Sys2Proof.Machine.execHoldTimeout x s
  | .memoryTimeout x => Sys2Proof.Machine.execMemoryTimeout x s
  | .progressWatchdog x => Sys2Proof.Machine.execProgressWatchdog x s
  | .hardWatchdog x => Sys2Proof.Machine.execHardWatchdog x s
  | .shadowLatchSquash core => Sys2Proof.Machine.execShadowLatchSquash core s
  | .regulatorSettleEnd core => Sys2Proof.Machine.execRegulatorSettleEnd core s
  | .takeAsyncRequest x => Sys2Proof.Machine.execTakeAsyncRequest x s
  | .preemptRequest x => Sys2Proof.Machine.execPreemptRequest x s
  | .pickup x task => Sys2Proof.Machine.execPickup x task s
  | .writeBack x => Sys2Proof.Machine.execWriteBack x s
  | .taskRelease x => Sys2Proof.Machine.execTaskRelease x s
  | .unitCompletion u => Sys2Proof.Machine.execUnitCompletion u s
  | .completionEntryPost u => Sys2Proof.Machine.execCompletionEntryPost u s
  | .doorbell die q => Sys2Proof.Machine.execDoorbell die q s
  | .schdb die q => Sys2Proof.Machine.execSchdb die q s
  | .takeCommand die => Sys2Proof.Machine.execTakeCommand die s
  | .admitGang die => Sys2Proof.Machine.execAdmitGang die s
  | .gangReservation g => Sys2Proof.Machine.execGangReservation g s
  | .priorityPromotion task => Sys2Proof.Machine.execPriorityPromotion task s
  | .migrationRequest core => Sys2Proof.Machine.execMigrationRequest core s
  | .migration src dst => Sys2Proof.Machine.execMigration src dst s
  | .dutyTakesEffect x => Sys2Proof.Machine.execDutyTakesEffect x s
  | .thermalDutyUpdate core => Sys2Proof.Machine.execThermalDutyUpdate core s
  | .gets core line coh guardTag => Sys2Proof.Machine.execGets core line coh guardTag s
  | .getm core line => Sys2Proof.Machine.execGetm core line s
  | .putm core line => Sys2Proof.Machine.execPutm core line s
  | .invalidation core line kind => Sys2Proof.Machine.execInvalidation core line kind s
  | .invalidationAck core line data => Sys2Proof.Machine.execInvalidationAck core line data s
  | .residencyAction die tier => Sys2Proof.Machine.execResidencyAction die tier s
  | .residencyActionFinish item => Sys2Proof.Machine.execResidencyActionFinish item s
  | .sramThermalShutdown die => Sys2Proof.Machine.execSramThermalShutdown die s
  | .loopLost loopB => Sys2Proof.Machine.execLoopLost loopB s
  | .loopRecovered loopB => Sys2Proof.Machine.execLoopRecovered loopB s
  | .tableChange => Sys2Proof.Machine.execTableChange s
  | .shutdownStop => Sys2Proof.Machine.execShutdownStop s
  | .blackboxSquashWindow core => Sys2Proof.Machine.execBlackboxSquashWindow core s
  | .coldReset => Sys2Proof.Machine.execColdReset s
  | .warmReset => Sys2Proof.Machine.execWarmReset s
  | .maintenanceReset mode => Sys2Proof.Machine.execMaintenanceReset mode s
  | .laneLendTimeout die pair => Sys2Proof.Machine.execLaneLendTimeout die pair s
  | .mgnWrite core val => Sys2Proof.Machine.execMgnWrite core val s
  | .registerWrite x num val => Sys2Proof.Machine.execRegisterWrite x num val s
  | .hostWrite func bar0 off n data => Sys2Proof.Machine.execHostWrite func bar0 off n data s
  | .hostRead func bar0 off n => Sys2Proof.Machine.execHostRead func bar0 off n s
  | .functionLevelReset func => Sys2Proof.Machine.execFunctionLevelReset func s
  | .acmd func => Sys2Proof.Machine.execAcmd func s
  | .attestationReportDone func => Sys2Proof.Machine.execAttestationReportDone func s
  | .lkctlUp die peer => Sys2Proof.Machine.execLkctlUp die peer s
  | .dataFlit src dst m ok => Sys2Proof.Machine.execDataFlit src dst m ok s
  | .acknowledgement src dst m ack => Sys2Proof.Machine.execAcknowledgement src dst m ack s
  | .nak src dst m ack => Sys2Proof.Machine.execNak src dst m ack s
  | .ackTimer src dst m => Sys2Proof.Machine.execAckTimer src dst m s
  | .replayTimeout src dst m => Sys2Proof.Machine.execReplayTimeout src dst m s
  | .crcWindowClose src dst m => Sys2Proof.Machine.execCrcWindowClose src dst m s
  | .retrainComplete src dst m ok => Sys2Proof.Machine.execRetrainComplete src dst m ok s
  | .linkDead p q => Sys2Proof.Machine.execLinkDead p q s
  | .linkStateUpdate die live version => Sys2Proof.Machine.execLinkStateUpdate die live version s
  | .drainMarker die peer m seq => Sys2Proof.Machine.execDrainMarker die peer m seq s
  | .drainRound die peer => Sys2Proof.Machine.execDrainRound die peer s
  | .illegalEncoding mask => Sys2Proof.Machine.execIllegalEncoding mask s

end Sys2Proof.Machine
end

