-- ==== Sys2Proof/Machine/Issue.lean ====
section
/-! DEFINITION. A core in one dc: the bundle that each context offers, the merge, and the issue of a bundle (02 R48, R49,
05 R86-R99, 06 R111, R126, R127, 17 R322, 18 R334, R336). -/

namespace Sys2Proof

namespace Machine

/-! ### Fetch (05 R84, 19 R345) -/

/-- What the fetch of a bundle gives. -/
inductive Fetched where
  | got (w : BitVec 512)
  | fault
  | miss (it : Item)
  | wait
  | poison (pa : Nat)
  deriving DecidableEq, Repr

/-- The bytes of a fetched bundle, whose line is the newest one (11 R230): an L1 that owns it, an acknowledgement that carries
it, or home. -/
def State.codeBytes (s : State) (core : BitVec 8) (pa : Nat) : List Byte × Option Nat × State :=
  let line := pa / 128
  let cut (d : LineData) : List Byte := sub (natToBytes d.toNat 128) (pa % 128) 64
  match ((s.core core).l1Find line).filter fun l => l.st == .e || l.st == .m with
  | some l => (cut l.data, if l.poison then some (line * 128 / 512) else none, s)
  | none =>
    match s.newest line with
    | some d => (cut d, none, s)
    | none =>
      let (bs, po, _, s) := s.homeRead pa 64
      (bs, po, s)

/-- The bundle at a bundle address (19 R344, R345). -/
def State.fetchBundle (s : State) (x : CtxId) (pc : BAddr) : State × Fetched :=
  let va := pc.toNat * 64
  match s.translate x va false with
  | (s, .error _) => (s, .fault)
  | (s, .ok e) =>
    let tier := leafTier e.leaf
    if !leafX e.leaf || (!(s.ctx x).sys.pl && !leafU e.leaf) then (s, .fault)
    else if tier = 7 then (s, .wait)
    else if tier = 5 ∨ tier = 6 then (s, .fault)
    else if tier = 4 then (s, .miss (flatItem (va / 4096, e)))
    else if (s.memFor x.die (e.pa va)).isNone then (s, .fault)
    else if 2 ≤ tier then (s, .miss (flatItem (va / 4096, e)))
    else if s.linkWaits x.die (e.pa va) then (s, .wait)
    else
      match s.codeBytes x.core (e.pa va) with
      | (_, some blk, s) => (s, .poison (blk * 512))
      | (bs, none, s) => (s, .got (BitVec.ofNat 512 (bytesToNat bs)))

/-! ### What a context offers -/

/-- A bundle that a context offers: its bits, the bundle, and its operations with the head's M slot (05 R97, R99). -/
structure Ready where
  w : BitVec 512
  b : Bundle
  ops : List (Slot × SlotOp)
  deriving DecidableEq, Repr

/-- The operation of a group head's M slot, in the bundles after the head (05 R97). -/
def Group.headM (g : Group) : Option SlotOp := if g.pos = 0 then none else ((g.buf.head?.map fun w => decodeBundle w.toNat).bind fun b => b.at? .M)
/-- The operations of a bundle in PRES order, with the head's M operation in its place. -/
def withHeadM (l : List (Slot × SlotOp)) (m : Option SlotOp) : List (Slot × SlotOp) :=
  match m with
  | none => l
  | some o => (l.filter fun p => p.1.idx < 3) ++ [(.M, o)] ++ l.filter fun p => 3 < p.1.idx
def offerOf (c : Ctx) (w : BitVec 512) : Ready :=
  let b := decodeBundle w.toNat
  ⟨w, b, withHeadM b.slots (c.flow.group.bind Group.headM)⟩

/-- The present slots of an offer, the head's M slot among them (18 R334). -/
def Ready.present (o : Ready) : BitVec 8 := if o.ops.any fun p => p.1 == .M then o.b.hdr.pres ||| 8 else o.b.hdr.pres
def Ready.banks (o : Ready) (c : Ctx) : List Nat := o.ops.flatMap fun p => p.2.op.portBanks c
/-- Two offers collide: a shared slot, or bank sets that overlap (18 R334). -/
def collide (a b : Ready) (ca cb : Ctx) : Bool :=
  a.present &&& b.present != 0 || (a.banks ca).any fun k => (b.banks cb).contains k

/-- Whether a bundle is a Q bundle for its context (05 R87); inside a group no bundle but the head's first is. -/
def Ctx.seesQ (c : Ctx) (b : Bundle) : Bool := c.flow.group.isNone && (b.hdr.q || b.hdr.e || c.flow.asEntry)
/-- Whether the Q conditions hold (02 R42): nothing in flight, and no group open. An accumulator-writing operation
performs in its issue cc. -/
def Ctx.quiet (c : Ctx) : Bool := c.flow.inflight.isEmpty && c.flow.group.isNone
/-- Whether a request may be taken before this bundle (02 R42, 06 R127). -/
def Ctx.atPoint (c : Ctx) (b : Option Bundle) : Bool :=
  !c.sys.pl && c.quiet && (c.flow.settle || (!(c.regs.loop.pipe && c.regs.loop.act != 0) && (c.flow.asEntry || (b.map fun b => c.seesQ b).getD false)))

/-- What a context brings to the merge in a dc. -/
inductive Prep where
  | none
  | settle
  | offer (o : Ready)
  deriving DecidableEq, Repr

/-- A context that is frozen before its bundle issues (02 R48). -/
def State.freezeAt (s : State) (x : CtxId) (why : FreezeWhy) (sl : Slot) (tval : Word) : State :=
  s.modFlow x fun f => { f with freeze := some ⟨why, sl, tval, f.pc⟩, frozen := f.frozen + 1 }
def State.oneStall (s : State) (x : CtxId) : State := s.modFlow x fun f => { f with stall := f.stall - 1 }

/-- The task whose entry awaits a lost tensor's fault takes it (12 R253, R254). -/
def State.takeLost (s : State) (x : CtxId) (id : BitVec 24) : State :=
  let s := match (s.ctx x).task with
    | some k => s.modTask k fun t => { t with lost := none }
    | none => s
  (s.syncTrap x 0x0107 0 (id.zeroExtend 64) 0 (s.ctx x).flow.pc).oneStall x

/-- A request is taken at a resumption point: a pending asynchronous request, else the migration of the core (17 R323,
18 R337). None where nothing is taken. -/
def State.takeRequests (s : State) (x : CtxId) (b : Option Bundle) : Option State :=
  let c := s.ctx x
  let held : Bool := match c.flow.hold with
    | some (.baraw _ none) => true
    | _ => false
  if held || !c.atPoint b || !(c.flow.asEntry || c.commitFits) then none
  else if c.sys.pending then
    let s := s.modFlow x fun f => { f with settle := true }
    some ((s.ofOut (runEvent (.takeAsyncRequest x) s)).oneStall x)
  else if (s.core x.core).migrate.isSome then
    let s := if c.flow.asEntry then s else s.commit x
    some (s.modCtx x fun c => { c with
      flow := { c.flow with phase := .moving, settle := false, freeze := none, frozen := 0, hold := c.flow.hold.filter fun h => !h.before }
      regs := { c.regs with loop := { c.regs.loop with drn := false } } })
  else none

/-- Whether a request must wait at a resumption point until the commit there fits under the ceiling of NS (02 R42, 03 R57). -/
def State.pointWaits (s : State) (x : CtxId) (b : Option Bundle) : Bool :=
  let c := s.ctx x
  (c.sys.pending || (s.core x.core).migrate.isSome) && c.flow.hold.isNone && c.atPoint b && !c.flow.asEntry && !c.commitFits
/-- Whether a context has anything to take at a resumption point. -/
def State.wants (s : State) (x : CtxId) : Bool := (s.ctx x).sys.pending || (s.core x.core).migrate.isSome

/-- The bundle that the context issues next is fetched and offered. -/
def State.offerNext (s : State) (x : CtxId) : State × Prep :=
  let c := s.ctx x
  let again : Option (BitVec 512) := c.flow.group.bind fun g => g.buf[g.pos]?
  let (s, got) := match again with
    | some w => (s, Fetched.got w)
    | none => s.fetchBundle x c.flow.pc
  match got with
  | .fault => (s.syncTrap x 0x0105 0 (c.flow.pc.zeroExtend 64) 0 c.flow.pc, .none)
  | .miss it => (s.park x [it], .none)
  | .wait => (s.freezeAt x .preIssue .S (BitVec.ofNat 64 (c.flow.pc.toNat * 64)), .none)
  | .poison pa => (s.consumePoison x pa, .none)
  | .got w =>
    let o := offerOf c w
    match s.takeRequests x (some o.b) with
    | some s => (s, .none)
    | none => if s.pointWaits x (some o.b) then (s.freezeAt x .preIssue .S 0, .none) else (s, .offer o)

/-- A running context that is neither stalled nor frozen: holds, traps and requests at an entry, the settle, the fetch. -/
def State.prepareRun (s : State) (x : CtxId) (may : Bool) : State × Prep :=
  let c := s.ctx x
  match c.flow.hold with
  | some h =>
    let bundle : State × Option Bundle :=
      if s.wants x && h.before && !c.flow.asEntry then
        match s.fetchBundle x c.flow.pc with
        | (s, .got w) => (s, some (decodeBundle w.toNat))
        | (s, _) => (s, none)
      else (s, none)
    match bundle.1.takeRequests x bundle.2 with
    | some s => (s, .none)
    | none => (bundle.1.modFlow x fun f => { f with held := f.held + 1 }, .none)
  | none =>
    match c.flow.pendingTrap with
    | some (code, mask, v, imm, b) =>
      (((s.modFlow x fun f => { f with pendingTrap := none }).takeTrap x code mask v imm false c.flow.pc b).oneStall x, .none)
    | none =>
      match (if c.flow.asEntry then (s.taskOf x).bind (·.lost) else none) with
      | some id => (s.takeLost x id, .none)
      | none =>
        match s.takeRequests x none with
        | some s => (s, .none)
        | none =>
          if c.flow.settle && !c.quiet then (s, .settle)
          else if s.pointWaits x none then (s.freezeAt x .preIssue .S 0, .none)
          else
            let s := s.modFlow x fun f => { f with settle := false }
            if may then s.offerNext x else (s, .none)

/-- What a context does in a dc before the merge (02 R48). `may` says whether its core and its duty let it issue; `counts`
whether the dc counts for the freeze watchdog: not in a stretch or throttled dc (18 R335). A slotted block that is late freezes
the context before anything else (20 R354). -/
def State.prepare (s : State) (x : CtxId) (may counts : Bool) : State × Prep :=
  let f := (s.ctx x).flow
  let tick (s : State) : State := if counts then s.modFlow x fun f => { f with frozen := f.frozen + 1 } else s
  match f.phase with
  | .idle | .parked | .ending _ | .moving => (s, .none)
  | .leaving _ => (tick s, .none)
  | .sys _ => ((tick s).sysStep x, .none)
  | .run =>
    if f.stall ≠ 0 then (s.oneStall x, .none)
    else
      match s.lateJob x, f.freeze with
      | some j, none => (tick (s.modFlow x fun f => { f with freeze := some ⟨.late j, .C, 0, f.pc⟩, frozen := 0 }), .none)
      | some _, some _ => (tick s, .none)
      | none, none => s.prepareRun x may
      | none, some z =>
        match z.why with
        | .late _ => (s.modFlow x fun f => { f with freeze := none, frozen := 0 }).prepareRun x may
        | .preIssue | .own => if may then s.prepareRun x may else (tick s, .none)
        | .fills | .reply => (tick s, .none)

/-! ### The checks at decode (05 R87, R95, R96, R98, 06 R111, R128, R134) -/

/-- Whether the bundle at pc is the last of an active level's body. -/
def LoopState.endsBody (l : LoopState) (pc : BAddr) : Bool :=
  [0, 1, 2, 3].any fun j => l.act.getLsbD j && l.fin.getD j 0 == pc
/-- The places of a bundle that its position makes illegal. -/
def Ready.badPlaces (o : Ready) (c : Ctx) : BitVec 9 :=
  let h := o.b.hdr
  let pos := (c.flow.group.map (·.pos)).getD 0
  let grouped := h.rep != 0 || c.flow.group.isSome
  let q : BitVec 9 := if c.seesQ o.b && !c.quiet then 0x100 else 0
  let head : BitVec 9 := if pos ≠ 0 ∧ (h.rep ≠ 0 ∨ h.lbm1 ≠ 0 ∨ h.aset ≠ 0 ∨ h.e = true ∨ h.q = true) then 0x100 else 0
  let m : BitVec 9 := if pos ≠ 0 ∧ h.pres.getLsbD 3 = true then Slot.M.mask else 0
  let inGroup (p : Slot × SlotOp) : Bool := grouped && (p.2.op.transfers || p.2.op == .tend || p.2.op.endsSegment)
  let body (p : Slot × SlotOp) : Bool := p.2.op.transfers && c.regs.loop.endsBody c.flow.pc
  let nested (p : Slot × SlotOp) : Bool :=
    match p.2.op with
    | .loop k _ _ sm1 => sm1 != 0 && c.regs.loop.pipe && c.regs.loop.plv.ult k && c.regs.loop.act.getLsbD c.regs.loop.plv.toNat
    | _ => false
  o.b.slots.foldl (fun v p => if inGroup p || body p || nested p then v ||| p.1.mask else v) (q ||| head ||| m)
/-- The slots that hold a privileged opcode at user level. -/
def Ready.privileged (o : Ready) (c : Ctx) : BitVec 9 :=
  if c.sys.pl then 0 else o.b.slots.foldl (fun v p => if p.2.op.privileged then v ||| p.1.mask else v) 0

/-! ### Issue -/

/-- What a bundle that does not issue leaves behind: its lookups in the TLBs, the L1s and the memory system (02 R44, R48); they reach
other cores too, whose copies of a table's line and whose TLB entries they take. -/
def State.rollback (s0 s : State) (x : CtxId) : State :=
  let k0 := s0.core x.core
  let back (k : Core) : Core := { k0 with l1 := k.l1, tlb := k.tlb, missing := k.missing, stale := k.stale }
  { s0 with
    mem := s.mem, dies := s.dies, agenda := s.agenda, links := s.links, fresh := s.fresh, nextId := s.nextId, fired := s.fired
    cores := s.cores.set x.core.toNat (back (s.core x.core)) x.core.isLt }

/-- The counters as WAIT reads them (10 R214). -/
def Ctx.countsNow (c : Ctx) : Nat × Nat × Nat × Nat := (c.nl, c.ns, c.nc, c.nt)
/-- The bundle's bookkeeping at the start of its issue cc. -/
def State.startIss (s : State) (x : CtxId) : State :=
  let c := s.ctx x
  { s with iss := { x := x, pc := c.flow.pc, first := some s.nextId, counts := c.countsNow } }

/-- The counters once the commit of the segment before an E bundle is made: what WAIT and MFC see in its issue cc (05 R87;
DEDUCED, log 78). -/
def State.recount (s : State) (x : CtxId) : State := s.modIss fun i => { i with counts := (s.ctx x).countsNow }

/-- Whether a slot takes effect (05 R90). -/
def Ctx.fires (c : Ctx) (o : SlotOp) : Bool := c.readP o.pnum != o.inv
/-- One slot of the bundle takes effect. -/
def State.runSlot (s : State) (sl : Slot) (o : SlotOp) : State :=
  let s := s.modIss fun i => { i with slot := sl }
  let t := s.ofOut (Machine.exec o.op s)
  if (s.ctx s.iss.x).sys.dbg then s.noteHazards t sl o else t
/-- The slots that take effect, in PRES order. -/
def State.runSlots (s : State) (l : List (Slot × SlotOp)) : State := l.foldl (fun s p => s.runSlot p.1 p.2) s

/-- The group that a bundle opens or continues, with the bundle in the loop buffer (05 R97). -/
def Ctx.openGroup (c : Ctx) (h : Header) (w : BitVec 512) : Option Group :=
  match c.flow.group with
  | some g => some (if g.pos < g.buf.length then g else { g with buf := g.buf ++ [w] })
  | none => if h.rep = 0 then none else some ⟨c.flow.pc, h.lbm1.toNat + 1, h.rep.toNat, 0, 0, [w]⟩
/-- The auto-increment set in force: the head's (05 R97). -/
def Group.aset (g : Group) : BitVec 4 := ((g.buf.head?.map fun w => (decodeHeader (w.toNat % 2 ^ 32)).aset)).getD 0

/-- The cause that a bundle reports: the lowest slot's first, with every failing slot marked (17 R322). -/
def faultMask (l : List SlotFault) : BitVec 9 := l.foldl (fun m f => m ||| f.slot.mask) 0
def lowestFault (l : List SlotFault) : Option SlotFault := slotOrder.findSome? fun sl => l.find? fun f => f.slot == sl

/-- Whether the commit that this bundle makes would pass the ceiling of NS (03 R57). -/
def State.commitBlocked (s : State) : Bool := s.iss.closes && !(s.cur.commitFits)

/-- The bundle has issued, or its cc is over with a trap: the cc counts. -/
def State.countCc (s : State) (x : CtxId) : State := s.modCtx x Ctx.accrue

/-- A bundle that holds an operation that ends its segment ends it, whatever the operation's predicate (05 R87). -/
def State.closing (s : State) (o : Ready) : State := if o.ops.any fun p => p.2.op.closesSegment then s.endsSeg else s

/-- The end of a bundle whose slots have run: a hold or a freeze before issue comes first, for the bundle has then not issued
(02 R48, 10 R213, 13 R273); then a trap, a park, a rewind, the freeze of a full NS, or its completion. `s0` is the state before
its slots. It answers whether the bundle issued. -/
def State.finishBundle (s0 s : State) (o : Ready) (fired : List (Slot × SlotOp)) : State × Bool :=
  let i := s.iss
  let x := i.x
  let back := s0.rollback s x
  match i.hold, i.block with
  | some h, _ => (back.modFlow x fun f => { f with hold := some h, held := f.held + 1, freeze := none, frozen := 0 }, false)
  | none, some (sl, v) => (back.freezeAt x (if i.own then .own else .preIssue) sl v, false)
  | none, none =>
    match lowestFault i.faults with
    | some f => ((back.countCc x).syncTrap x f.code (faultMask i.faults) f.tval f.imm i.pc, true)
    | none =>
      if !i.misses.isEmpty then (back.park x i.misses, true)
      else
        match i.poison with
        | some pa => (back.consumePoison x pa, true)
        | none =>
          let s := s.closing o
          if s.commitBlocked then (back.freezeAt x .preIssue .S 0, false)
          else
            let g := s.cur.openGroup o.b.hdr o.w
            let s := s.modFlow x fun f => { f with group := g, freeze := none, frozen := 0 }
            let s := s.completeBundle ((g.map Group.aset).getD 0) (fired.any fun p => p.2.op.externalAct)
            (match (s.ctx x).flow.phase with
              | .sys (.ctxsv _) => s
              | .sys _ => s.sysStep x
              | _ => s, true)

/-- ISSUE: an offered bundle that has won the merge. It answers the state, and whether the bundle issued rather than
freeze or hold. Where a bundle holds privileged opcodes at user level none of its slots runs, so the mask of the fault marks
those slots alone (DESIGN CHOICE, log 141). -/
def State.issue (s : State) (x : CtxId) (o : Ready) : State × Bool :=
  let s := s.startIss x
  let c := s.ctx x
  let bad := o.b.bad ||| o.badPlaces c
  let priv := o.privileged c
  if bad ≠ 0 then ((s.countCc x).ofOut (runEvent (.illegalEncoding (bad ||| priv)) (s.countCc x)), true)
  else if priv ≠ 0 then ((s.countCc x).syncTrap x 0x0002 priv 0 0 c.flow.pc, true)
  else
    let entry := c.flow.asEntry
    let commits := o.b.hdr.e && c.flow.group.isNone && !entry
    if commits && !c.commitFits then (s.freezeAt x .preIssue .S 0, false)
    else
      let s0 := if commits then (s.commit x).recount x else s
      let s1 := if (s0.ctx x).flow.asEntry then s0.modCtx x fun c => c.beginSeg c.flow.pc else s0
      let fired := o.ops.filter fun p => c.fires p.2
      let s2 := if o.b.isNull && o.ops.isEmpty then s1.ofOut (runEvent .nullBundle s1) else s1.runSlots fired
      s0.finishBundle (s2.detect c.flow.inflight) o fired

/-! ### The core in a dc (02 R48, R49, 18 R334) -/

/-- Whether a dc is a stretch dc of a core: an even one of a window, or the one after an issue in quarantine (02 R49, 14 R277). -/
def Core.stretch (k : Core) (dc : Nat) : Bool :=
  (match k.window with
    | none => false
    | some w => decide (dc - w ≤ 8) && decide ((dc - w) % 2 = 0)) ||
  (k.margin.quar && decide (0 < dc) && k.lastIssue == some (dc - 1))
/-- Whether a core may issue in this dc: no stretch dc, no settle (02 R49, 14 R276, R277). -/
def Core.mayIssue (k : Core) (dc : Nat) : Bool :=
  !k.stretch dc &&
  (match k.margin.settleUntil with
    | none => true
    | some e => decide (e < dc ∨ dc < k.margin.settleFrom))
/-- Whether a context's duty lets it offer in this dc (18 R336). -/
def Ctx.inDuty (c : Ctx) (dc : Nat) : Bool := decide (dc % 16 < c.sys.duty.toNat)

/-- An issue without a squash: the dc that a quarantined core follows with a stretch dc, and the end of the bundle's squashes
(14 R275, R277). -/
def State.issued (s : State) (x : CtxId) : State :=
  (s.modCore x.core fun k => { k with lastIssue := some s.dc }).modCtx x fun c => { c with squashes := 0, redo := false }
/-- The dc of a reissue is dc 1 of a stretch window (02 R49, 14 R275, R276). -/
def State.reissued (s : State) (c : BitVec 8) : State := s.modCore c fun k => { k with window := some (s.dc - 1) }
/-- One bundle of a core issues, or is squashed where a latch has caught a late transition (02 R49). -/
def State.issueOr (s : State) (latch : Bool) (x : CtxId) (o : Ready) : State × Bool × Bool :=
  match s.issue x o with
  | (t, false) => (t, false, false)
  | (t, true) => if latch then (s, true, true) else ((if (s.ctx x).redo then t.reissued x.core else t).issued x, true, false)

/-- The priority of the task that a context runs (18 R334 step 3). -/
def State.priOf (s : State) (x : CtxId) : Nat := ((s.taskOf x).map fun t => t.pri.toNat).getD 0
/-- Which of two colliding offers issues, and whether the tie pointer decides (18 R334): true names ctx1. -/
def State.mergeWinner (s : State) (c : BitVec 8) (o0 o1 : Ready) : Bool × Bool :=
  let p0 := s.priOf ⟨c, false⟩
  let p1 := s.priOf ⟨c, true⟩
  if o0.b.hdr.mpri ≠ o1.b.hdr.mpri then (o0.b.hdr.mpri.ult o1.b.hdr.mpri, false)
  else if p0 ≠ p1 then (decide (p0 < p1), false)
  else ((s.core c).tie, true)

/-- The merge of two offers, and their issue: the contexts whose bundles a latch squashed. A colliding bundle that would
freeze or hold is no offer. -/
def State.mergeTwo (s : State) (latch : Bool) (c : BitVec 8) (o0 o1 : Ready) : State × List Bool :=
  let x0 : CtxId := ⟨c, false⟩
  let x1 : CtxId := ⟨c, true⟩
  let squashed (a b : Bool) : List Bool := (if a then [false] else []) ++ (if b then [true] else [])
  if collide o0 o1 (s.ctx x0) (s.ctx x1) then
    match s.issue x0 o0, s.issue x1 o1 with
    | (t, false), _ => let (t, _, q) := t.issueOr latch x1 o1; (t, squashed false q)
    | _, (t, false) => let (t, _, q) := t.issueOr latch x0 o0; (t, squashed q false)
    | _, _ =>
      let (one, tie) := s.mergeWinner c o0 o1
      let s := if tie then s.modCore c fun k => { k with tie := !k.tie } else s
      if one then let (t, _, q) := s.issueOr latch x1 o1; (t, squashed false q)
      else let (t, _, q) := s.issueOr latch x0 o0; (t, squashed q false)
  else
    let (t, _, q0) := s.issueOr latch x0 o0
    let (t, _, q1) := t.issueOr latch x1 o1
    (t, squashed q0 q1)

/-- A null cc of the settle (06 R126). -/
def State.settleCc (s : State) (x : CtxId) (p : Prep) (live : Bool) : State :=
  match p with
  | .settle => if live then s.modCtx x Ctx.nullCc else s
  | _ => s

/-- One core in one dc. -/
def State.coreTurn (s : State) (c : BitVec 8) : State :=
  let k := s.core c
  let x0 : CtxId := ⟨c, false⟩
  let x1 : CtxId := ⟨c, true⟩
  let may (s : State) (x : CtxId) : Bool := k.mayIssue s.dc && (s.ctx x).inDuty s.dc
  let counts (s : State) (x : CtxId) : Bool := !k.stretch s.dc && (s.ctx x).inDuty s.dc
  let s := s.modCore c fun k => { k with latch := false }
  let (s, p0) := s.prepare x0 (may s x0) (counts s x0)
  let (s, p1) := s.prepare x1 (may s x1) (counts s x1)
  let s := (s.settleCc x0 p0 (!k.latch && may s x0)).settleCc x1 p1 (!k.latch && may s x1)
  let (s, gone) := match p0, p1 with
    | .offer o0, .offer o1 => s.mergeTwo k.latch c o0 o1
    | .offer o0, _ => let (t, _, q) := s.issueOr k.latch x0 o0; (t, if q then [false] else [])
    | _, .offer o1 => let (t, _, q) := s.issueOr k.latch x1 o1; (t, if q then [true] else [])
    | _, _ => (s, [])
  if gone.isEmpty then s else s.squash c gone

end Machine
end Sys2Proof
end

