-- ==== Sys2Proof/Machine/Records.lean ====
section
/-! DEFINITION. The records of work and of memory as bytes on system pages: continuation records, tensor records, records and
page lists of KV sequences (02 R27, 12 R244, R256, R257). -/

namespace Sys2Proof.Machine

/-- A field of a record: its low bit, its width, its value, and what a write of system software makes of the record where the
field is RW. -/
structure RecField (α : Type) where
  lo : Nat
  width : Nat
  get : α → Nat
  set : Option (α → Nat → α) := none

/-- A record as one number, every bit that no field names zero. -/
def recImage {α : Type} (fs : List (RecField α)) (r : α) : Nat :=
  fs.foldl (fun n f => n + f.get r % 2 ^ f.width * 2 ^ f.lo) 0
/-- The bits that system software may write. -/
def recMask {α : Type} (fs : List (RecField α)) : Nat :=
  fs.foldl (fun n f => if f.set.isSome then n + (2 ^ f.width - 1) * 2 ^ f.lo else n) 0
/-- A record with its RW fields taken from a number. -/
def recTake {α : Type} (fs : List (RecField α)) (r : α) (n : Nat) : α :=
  fs.foldl (fun r f =>
    match f.set with
    | some g => g r (n / 2 ^ f.lo % 2 ^ f.width)
    | none => r) r

/-- The continuation record (02 R27). -/
def taskFields : List (RecField Task) :=
  [⟨448, 57, fun t => t.lbp.toNat, some fun t n => { t with lbp := BitVec.ofNat 57 n }⟩,
   ⟨384, 64, fun t => t.loopw.toNat, some fun t n => { t with loopw := BitVec.ofNat 64 n }⟩,
   ⟨320, 57, fun t => t.spovf.toNat, some fun t n => { t with spovf := BitVec.ofNat 57 n }⟩,
   ⟨309, 11, fun t => t.spb.toNat, some fun t n => { t with spb := BitVec.ofNat 11 n }⟩,
   ⟨297, 12, fun t => t.sps.toNat, some fun t n => { t with sps := BitVec.ofNat 12 n }⟩,
   ⟨254, 2, fun t => t.pri.toNat, some fun t n => { t with pri := BitVec.ofNat 2 n }⟩,
   ⟨250, 4, fun t => t.state.toNat, some fun t n => { t with state := BitVec.ofNat 4 n }⟩,
   ⟨249, 1, fun t => if t.img then 1 else 0, some fun t n => { t with img := n == 1 }⟩,
   ⟨232, 16, fun t => t.fcode.toNat, some fun t n => { t with fcode := BitVec.ofNat 16 n }⟩,
   ⟨192, 32, fun t => min t.wdc (2 ^ 32 - 1), some fun t n => { t with wdc := n }⟩,
   ⟨168, 24, fun t => t.gang.lid, some fun t n => if n = t.gang.lid % 2 ^ 24 then t else { t with gang := { t.gang with lid := n } }⟩,
   ⟨152, 16, fun t => t.gang.wave.toNat, some fun t n => { t with gang := { t.gang with wave := BitVec.ofNat 16 n } }⟩,
   ⟨136, 16, fun t => t.gang.gang.toNat, some fun t n => { t with gang := { t.gang with gang := BitVec.ofNat 16 n } }⟩,
   ⟨130, 6, fun t => t.member.toNat, some fun t n => { t with member := BitVec.ofNat 6 n }⟩,
   ⟨128, 2, fun t => t.die.toNat, some fun t n => { t with die := BitVec.ofNat 2 n }⟩,
   ⟨76, 45, fun t => t.ctxb.toNat / 4096, some fun t n => { t with ctxb := BitVec.ofNat 57 (n * 4096) }⟩,
   ⟨0, 51, fun t => t.entry.toNat, some fun t n => { t with entry := BitVec.ofNat 51 n }⟩]

/-- The tensor record (12 R244). -/
def tensorFields : List (RecField Tensor) :=
  let rin (i : Nat) : RecField Tensor :=
    ⟨512 + 24 * i, 24, fun t => (t.rin.getD i 0).toNat, some fun t n => { t with rin := t.rin.set i (BitVec.ofNat 24 n) }⟩
  [⟨664, 3, fun t => t.ctier.toNat, none⟩, ⟨648, 16, fun t => t.wcnt, none⟩, ⟨608, 40, fun t => t.csize, none⟩] ++
  (List.range 4).map rin ++
  [⟨448, 57, fun t => t.rarg.toNat, some fun t n => { t with rarg := BitVec.ofNat 57 n }⟩,
   ⟨416, 32, fun t => t.rcost.toNat, some fun t n => { t with rcost := BitVec.ofNat 32 n }⟩,
   ⟨409, 3, fun t => t.hint.toNat, some fun t n => { t with hint := BitVec.ofNat 3 n }⟩,
   ⟨406, 3, fun t => t.rmax.toNat, some fun t n => { t with rmax := BitVec.ofNat 3 n }⟩,
   ⟨403, 3, fun t => t.rdep, none⟩,
   ⟨352, 51, fun t => t.rcp.toNat, some fun t n => { t with rcp := BitVec.ofNat 51 n }⟩,
   ⟨320, 32, fun t => t.nud.toNat, none⟩, ⟨304, 16, fun t => t.cur, none⟩,
   ⟨288, 16, fun t => t.ulen, some fun t n => { t with ulen := n }⟩,
   ⟨224, 57, fun t => t.ulp.toNat, some fun t n => { t with ulp := BitVec.ofNat 57 n }⟩,
   ⟨160, 57, fun t => t.guard.toNat, some fun t n => { t with guard := BitVec.ofNat 57 n }⟩,
   ⟨96, 57, fun t => t.base, none⟩, ⟨88, 8, fun t => t.lock, none⟩, ⟨80, 8, fun t => t.pin.toNat, none⟩,
   ⟨77, 3, fun t => t.geom.toNat, none⟩,
   ⟨72, 5, fun t => t.fmt.toNat, some fun t n => { t with fmt := BitVec.ofNat 5 n }⟩,
   ⟨32, 40, fun t => t.size, none⟩, ⟨30, 1, fun t => if t.dirty then 1 else 0, none⟩,
   ⟨26, 4, fun t => t.st.toNat, none⟩, ⟨24, 2, fun t => t.home.toNat, none⟩, ⟨0, 24, fun t => t.id.toNat, none⟩]

/-- The record of a KV sequence (12 R256). -/
def kvFields : List (RecField KvSeq) :=
  [⟨320, 32, KvSeq.nlive, none⟩, ⟨288, 32, KvSeq.pageBytes, none⟩, ⟨224, 57, fun q => q.ptp, none⟩,
   ⟨160, 57, fun q => q.guard.toNat, some fun q n => { q with guard := BitVec.ofNat 57 n }⟩,
   ⟨128, 8, KvSeq.tagmap, none⟩, ⟨112, 16, fun q => q.maxpg, none⟩, ⟨96, 16, fun q => q.pages.length, none⟩,
   ⟨64, 32, fun q => q.nextpos, none⟩, ⟨46, 8, fun q => q.bias.toNat, none⟩, ⟨41, 5, fun q => q.code.toNat, none⟩,
   ⟨39, 2, fun q => q.dimc.toNat, none⟩, ⟨32, 7, fun q => q.heads, none⟩, ⟨31, 1, fun _ => 1, none⟩,
   ⟨30, 1, fun q => if q.ovf then 1 else 0, none⟩, ⟨26, 4, fun q => if q.inUse then 1 else 0, none⟩,
   ⟨24, 2, fun q => q.home.toNat, none⟩, ⟨0, 24, fun q => q.id.toNat, none⟩]

/-- An entry of a page list (12 R257). -/
def pageFields : List (RecField KvPage) :=
  [⟨64, 57, fun p => p.va, none⟩, ⟨63, 1, fun _ => 1, none⟩, ⟨62, 1, fun p => if p.ret then 1 else 0, none⟩,
   ⟨59, 3, fun p => p.tag.toNat, none⟩, ⟨54, 5, fun p => p.nocc, none⟩, ⟨53, 1, fun p => if p.closed then 1 else 0, none⟩,
   ⟨32, 3, fun p => p.ctier.toNat, none⟩, ⟨0, 32, fun p => p.firstpos, none⟩]

/-! ### Records in memory -/

/-- The bytes of a record as they stand at home, an L1's newer data brought there first. -/
def State.recBytes (s : State) (pa n : Nat) : State × Nat :=
  let s := (linesOf pa n).foldl (fun s l => s.pullLine l) s
  (s, s.peekNat pa n)
/-- Bytes of a record written at home. -/
def State.writeRec (s : State) (pa n v : Nat) : State := s.writeHome pa (natToBytes v n)
/-- A record of n bytes and its bytes in memory brought together: what hardware changed since they last agreed stands in both;
where it changed nothing, a write of system software to an RW field is taken over, and one to any other bit is undone. A record that
has had no place, because the HBM of its die was full, is given one (20 R368). -/
def State.syncRec {α : Type} (s : State) (fs : List (RecField α)) (n : Nat) (r : α) (p : RecPlace) : State × α × RecPlace :=
  let (p, s) := if p.pa.isNone && s.tierFits p.die 1 1 then s.placeRecord p.die p.root else (p, s)
  match p.pa with
  | none => (s.wantRoom p.die 1, r, p)
  | some pa =>
    let (s, m) := s.recBytes pa n
    let soft := Nat.land (recMask fs) (2 ^ (8 * n) - 1 - Nat.xor (recImage fs r) p.img % 2 ^ (8 * n))
    let new := recImage fs r - Nat.land (recImage fs r) soft + Nat.land m soft
    let r := recTake fs r new
    (if m = new then s else s.writeRec pa n new, r, { p with img := recImage fs r })

/-- The page list of a sequence as it stands: the entries of opened pages, zeros behind them; what system software wrote there is
undone (12 R257). -/
def State.syncList (s : State) (q : KvSeq) : State :=
  let entry (i : Nat) : Nat := framePa q.listAt (16 * i)
  let n := q.pages.length
  let s := (s.ownedLines q.listAt).foldl (fun s l => s.bringHome l) s
  let s := q.pages.zipIdx.foldl (fun s p =>
    let (s, m) := s.recBytes (entry p.2) 16
    if m = recImage pageFields p.1 then s else s.writeRec (entry p.2) 16 (recImage pageFields p.1)) s
  let stray := s.mem.cells.filterMap fun c => (frameIdx q.listAt (c.1 / 4096)).bind fun f =>
    let i := (f * 4096 + c.1 % 4096) / 16
    if n ≤ i ∧ i < q.maxpg then some i else none
  stray.eraseDups.foldl (fun s i => s.writeRec (entry i) 16 0) s

/-- Every record of the machine brought together with its bytes. -/
def State.syncRecords (s : State) : State :=
  let s := s.work.tasks.foldl (fun s t =>
    match t.recAt with
    | none => s
    | some p =>
      let (s, r, p) := s.syncRec taskFields 64 t p
      s.modTask t.key fun _ => { r with recAt := some p }) s
  let s := s.tensors.foldl (fun s t =>
    match t.recAt with
    | none => s
    | some p =>
      let (s, r, p) := s.syncRec tensorFields 128 t p
      s.modTensor t.id fun z => { r with dirty := z.dirty, recAt := some p }) s
  s.kvs.foldl (fun s q =>
    let s := match q.recAt with
      | none => s
      | some p =>
        let (s, r, p) := s.syncRec kvFields 128 q p
        s.modKv q.id fun _ => { r with recAt := some p }
    if q.listAt.isEmpty then s else s.syncList q) s

end Sys2Proof.Machine
end

