-- ==== Sys2Proof/Machine/Cycle.lean ====
section
/-! DEFINITION. The die clock: within one dc the inputs that are due, the cores, their engines, the scheduled events and
the enabled ones, then the next dc (01 R12-R15, 02 R48, 95). The order of events inside a dc is the model's (log 16). -/

namespace Sys2Proof.Machine

/-! ### Events that the state enables -/

def State.occupied (s : State) : List CtxId := s.occ.flatMap fun c => [⟨c, false⟩, ⟨c, true⟩]

/-- The events whose conditions hold. -/
def eventsDue (l : List (Bool × Event)) : List Event := (l.filter (·.1)).map (·.2)
/-- The events of one context whose conditions hold. -/
def State.ctxEvents (s : State) (x : CtxId) : List Event :=
  let c := s.ctx x
  if c.task.isNone then []
  else
    eventsDue [(s.piccoloDue x, .piccoloResidencyResume x), (s.fenceDue x, .fenceComplete x), (s.holdDue x, .holdRelease x),
      (c.flow.holdExpired, .holdTimeout x), (c.flow.frozenOut, .memoryTimeout x), (s.watchdogDue x, .progressWatchdog x),
      (c.hardDue s.dc, .hardWatchdog x), (s.writeBackDue x, .writeBack x), (s.releaseDue x, .taskRelease x)]
/-- Units that complete, and their completion entries (02 R39). -/
def State.unitEvents (s : State) : List Event :=
  s.work.completing.map fun c => if c.stage = 0 then .unitCompletion c.unit else .completionEntryPost c.unit
/-- The dispatcher of a die (18 R330, R331). -/
def State.dieEvents (s : State) (d : BitVec 2) : List Event :=
  eventsDue [(s.commandDue d, .takeCommand d), (s.admitDue d, .admitGang d)] ++
  ((s.heads d).filterMap fun h => if s.reservationDue h.gang then some (.gangReservation h.gang) else none)
/-- Records whose effective priority rises (18 R332). -/
def State.promotions (s : State) : List Event :=
  s.work.tasks.filterMap fun t => if s.promotionDue t then some (.priorityPromotion t.key) else none
/-- Cores whose occupancy may move (18 R337). -/
def State.moves (s : State) : List Event :=
  s.occ.filterMap fun c => if s.migrationDue c then (s.core c).migrate.map fun e => .migration c e else none
/-- The enabled events of this dc that have not happened in it. -/
def State.enabled (s : State) : List Event :=
  (s.occupied.flatMap s.ctxEvents ++ s.moves ++ s.unitEvents ++ [0#2, 1#2, 2#2, 3#2].flatMap s.dieEvents ++ s.promotions).filter
    fun e => !s.fired.contains e
/-- The next pickup of a die, where one has not happened there in this dc (02 R29). -/
def State.pickups (s : State) : Option (Event × State) :=
  [0#2, 1#2, 2#2, 3#2].findSome? fun d =>
    match s.nextPickup d with
    | some (x, k, t) => if s.fired.contains (.pickup x k) then none else some (.pickup x k, t)
    | none => none

/-! ### The end of a dc -/

/-- The cores whose engine work takes this dc (08 R157). -/
def State.engineDue (s : State) (c : BitVec 8) : Bool :=
  let k := s.core c
  (k.ctx0.engineReady || k.ctx1.engineReady) && k.stepDc != some s.dc && k.engDc != some s.dc

/-- What happens every 2^16 dc: the squash windows of the black box, the thermal controller, the sensors (22 R401, R403,
R407). -/
def State.thermalPeriod (s : State) : State :=
  let cores : List (BitVec 8) := (List.range 256).map (BitVec.ofNat 8)
  let s := cores.foldl (fun s c => s.runAct (.ev (.blackboxSquashWindow c))) s
  let s := cores.foldl (fun s c => s.runAct (.ev (.thermalDutyUpdate c))) s
  [0#2, 1#2, 2#2, 3#2].foldl (fun s d => s.readSensors d) s
/-- A duty window begins (18 R336). -/
def State.windowStart (s : State) : State :=
  s.occupied.foldl (fun s x => if (s.ctx x).task.isSome then s.runAct (.ev (.dutyTakesEffect x)) else s) s.idleDuty
/-- The black-box entries of the dc stand in their rings; copies of their lines leave the L1s (22 R405, R406). -/
def State.flushBox (s : State) : State :=
  [0#2, 1#2, 2#2, 3#2].foldl (fun t d =>
    (List.range (s.die d).bbBuf.length).foldl (fun t i =>
      let pa := bbBase d + 32 * (((s.die d).bbNext.toNat + i) % 4096)
      t.pushLine (pa / 128) pa (t.peek pa 32)) t) s.bbFlush
/-- The dc ends: core-port stores stand in scratchpad, the black box, the records and the RO fields of the queue descriptors are
written (08 R161, 22 R406, 00 R6). -/
def State.endDc (s : State) : State :=
  let s := if s.dc % 65536 = 65535 then s.thermalPeriod else s
  (s.occ.foldl (fun s c => s.landSp c) s).flushBox.syncRecords.syncQueues
/-- A dc begins with every occupied core to act (18 R336). -/
def State.beginDc (s : State) : State :=
  let s := { s with dc := s.dc + 1, turn := s.occ, fired := [] }
  let s := s.occupied.foldl (fun s x => s.sendReady x) s
  if s.dc % 16 = 0 then s.windowStart else s
def State.nextDc (s : State) : State := s.endDc.beginDc

/-! ### One step -/

/-- The first element that is due and of a kind, and the rest. -/
def takeIf (p : Act → Bool) (dc : Nat) : List (Nat × Act) → Option (Act × List (Nat × Act))
  | [] => none
  | (d, a) :: t => if d ≤ dc && p a then some (a, t) else (takeIf p dc t).map fun r => (r.1, (d, a) :: r.2)
/-- The first element that is due, and the rest. -/
def takeDue (dc : Nat) (l : List (Nat × Act)) : Option (Act × List (Nat × Act)) := takeIf (fun _ => true) dc l
/-- What happens before the cores issue: a table takes effect for its whole dc (14 R276, 22 R401), then an MTS of a margin, and
after both an escalation (22 R399); a block that lands in memory in its dc freezes no context (20 R354). -/
def State.early (s : State) (a : Act) : Bool :=
  match a with
  | .ev .tableChange | .ev (.mgnWrite ..) => true
  | .ev (.copyBlockLand _ id b) => (s.job? id).any fun j => !j.landed.contains b && j.due.any (fun p => p.1 == b && decide (p.2 ≤ s.dc)) &&
      match j.dst with
      | .mem .. => true
      | .sp _ => false
  | _ => false
/-- The next early act: a table change first. -/
def State.takeEarly (s : State) : Option (Act × List (Nat × Act)) :=
  (takeIf (· == .ev .tableChange) s.dc s.agenda).or (takeIf s.early s.dc s.agenda)
/-- A reset (22 R397). -/
def Act.isReset : Act → Bool
  | .ev .coldReset | .ev .warmReset | .ev (.maintenanceReset _) => true
  | _ => false
/-- The first reset among the inputs. -/
def takeReset : List (Nat × Act) → Option (Act × List (Nat × Act))
  | [] => none
  | (d, a) :: t => if a.isReset then some (a, t) else (takeReset t).map fun r => (r.1, (d, a) :: r.2)

/-- One thing happens: an input, an early act, the turn of a core, an array dc, a scheduled event, an enabled event, or the end of the
dc. -/
def State.cycle (s : State) : State :=
  match takeDue s.dc s.inputs with
  | some (a, l) => { s with inputs := l }.runAct a
  | none =>
    match s.takeEarly with
    | some (a, l) => { s with agenda := l }.runAct a
    | none =>
      match s.turn with
      | c :: t => { s with turn := t }.coreTurn c
      | [] =>
        match s.occ.find? s.engineDue with
        | some c => s.runAct (.ev (.engineDc c))
        | none =>
          match takeDue s.dc s.agenda with
          | some (a, l) => { s with agenda := l }.runAct a
          | none =>
            match s.enabled with
            | e :: _ => { s with fired := e :: s.fired }.runAct (.ev e)
            | [] =>
              match s.pickups with
              | some (e, t) => { t with fired := e :: t.fired }.runAct (.ev e)
              | none => s.nextDc

/-- Without power only a reset can happen (22 R404 step 5). -/
def State.dark (s : State) : Out :=
  match takeReset s.inputs with
  | some (a, l) => .next ({ s with inputs := l }.runAct a)
  | none => .fault .poweredDown

/-! ### A bundle placed for the next step -/

/-- The frame that holds the placed bundle: the first frame of die 0's HBM but 16. -/
def placedFrame : Nat := 16
/-- The translation of the page that holds the bundle at a bundle address: readable, executable, open to users. -/
def placedEntry (spid : BitVec 12) (va : Nat) : TlbEntry :=
  ⟨spid, va / 4096 * 4096, 4096, BitVec.ofNat 64 (placedFrame * 4096 + 0x3F3), 0⟩
/-- Context 0 of core 0 at a segment entry of its task, free to issue (log 17). -/
def Ctx.placed (c : Ctx) (task : Nat) : Ctx :=
  { c with
    task := some task
    flow := { pc := c.flow.pc, phase := .run }
    sys := { c.sys with duty := 16, troot := c.sys.troot ||| 1, pre := false, quar := false, wdog := false, cperr := 0 } }
def Core.placed (k : Core) (task : Nat) : Core :=
  let c := k.ctx0.placed task
  { k with
    ctx0 := c, ctx1 := { k.ctx1 with flow := { k.ctx1.flow with phase := .idle } }
    l1 := [], tlb := [placedEntry (rootSpid c.sys.troot) (c.flow.pc.toNat * 64)]
    window := none, latch := false, migrate := none, margin := { k.margin with settleUntil := none, quar := false } }
/-- The record of a solo task of no launch that runs there, where the context runs none. -/
def State.placedTask (s : State) : Nat × State :=
  match (s.ctx ⟨0, false⟩).task with
  | some k => (k, s)
  | none =>
    let k := s.work.nextTask
    let t : Task := { noTask ((s.ctx ⟨0, false⟩).sys.troot ||| 1) 0 with key := k, state := 2 }
    (k, { s with work := { s.work with
      nextTask := k + 1, tasks := s.work.tasks ++ [t], gangs := s.work.gangs ++ [⟨t.gang, 0, 0, 1, 0, true, false, [], [k], true⟩] } })
/-- A bundle's 64 bytes at the program counter of context 0 of core 0, whose turn it is. -/
def State.placeBundle (s : State) (w : BitVec 512) : State :=
  let (k, s) := s.placedTask
  let s := s.modCore 0 fun c => c.placed k
  let pc := (s.ctx ⟨0, false⟩).flow.pc
  let pa := placedFrame * 4096 + pc.toNat * 64 % 4096
  { s with
    mem := { s.mem with
      cells := cellsWriteAll s.mem.cells (bytesAt pa (natToBytes w.toNat 64)), poison := [], flips := [], cache := []
      dead := s.mem.dead.filter (· != placedFrame), lost := [] }
    dies := s.dies.map fun (z : Die) => { z with dir := [] }
    power := { s.power with on := true }
    inputs := s.inputs.filter fun p => s.dc < p.1
    turn := [0], occ := insertCore 0 s.occ }

end Sys2Proof.Machine
end

