-- ==== Sys2Proof/Machine/Step.lean ====
section
/-! DEFINITION. One step of the machine, and a state whose next step runs a given instruction. -/

namespace Sys2Proof.Machine

/-- One step: one thing happens within the dc in progress, or the next dc begins. -/
def step (s : State) : Out := if s.power.on then .next s.cycle else s.dark

/-- The state with an instruction where the next step fetches: a bundle that holds it alone (log 17). -/
def State.withFetchWord (s : State) (nbits w : Nat) : State :=
  s.placeBundle (BitVec.ofNat 512 (if nbits = 512 then w else bundleOfSlot (slotOfWidth nbits) w))

end Sys2Proof.Machine
end

