-- ==== Sys2Proof/Safety.lean ====
section
/-! DEFINITION. What statements about runs are said in: a slot that meets no trouble, an act that completes, the canonical
form of every memory, and what stays the same. -/

namespace Sys2Proof.Machine

/-- The slot met nothing that keeps its bundle from completing: no fault, no residency miss, no freeze, no hold, no consumed
error (09 R184, 02 R48, 10 R213, 14 R282). -/
def Untroubled (s t : State) : Prop :=
  t.iss.faults = s.iss.faults ∧ t.iss.misses = s.iss.misses ∧ t.iss.block = s.iss.block ∧ t.iss.hold = s.iss.hold
    ∧ t.iss.poison = s.iss.poison

/-- The instruction runs and its slot completes: exec answers a next state, and the slot met no trouble. -/
def Completes (i : Instr) (s t : State) : Prop := exec i s = .next t ∧ Untroubled s t

/-- The instruction runs, and all it does is to put one result in flight: readable `lat` cc after the issue (05 R100). No
register, no flag, no byte of memory and no counter changes with its issue. -/
def Posts (i : Instr) (s : State) (lat : Nat) (r : Res) : Prop := exec i s = .next (s.post lat r)

/-- Every byte of memory reads as before. -/
def SameMemory (s t : State) : Prop := ∀ a, cellsRead t.mem.cells a = cellsRead s.mem.cells a

/-- Every memory of the machine is in canonical form: main memory, and the scratchpad of every core. -/
def State.Canonical (s : State) : Prop := Memory.wf s.mem = true ∧ ∀ c, cellsWf (s.core c).sp = true

/-- A step that cannot fail: the machine has power, or a reset waits among its inputs (22 R404). -/
def State.Safe (s : State) : Prop := s.power.on = true ∨ (takeReset s.inputs).isSome = true

end Sys2Proof.Machine
end

