-- ==== Sys2Proof/Certificates/Slice0/Obligations.lean ====
section
/-! DEFINITION. The statements about the machine that the provers prove. -/

open Sys2Proof Sys2Proof.Machine

/-! ### S-slot arithmetic, comparisons, predicates, addresses (06 R113-R120) -/

/-- R113, R114, R100: the result of every three-register and one-register operation of the S slot, and of SEL, with its
latency. The product is taken over 128 bits, the quotient is truncated toward zero, division by zero gives all ones and its
remainder the dividend; nothing else changes. -/
def ScalarArithmeticResults : Prop :=
  ∀ (s : State) (gd r1 r2 : GReg) (ps : PReg),
    let a := s.gval r1
    let b := s.gval r2
    Posts (.add gd r1 r2) s 1 (.g gd (a + b)) ∧ Posts (.sub gd r1 r2) s 1 (.g gd (a - b))
    ∧ Posts (.mul gd r1 r2) s 3 (.g gd (a * b))
    ∧ Posts (.mulh gd r1 r2) s 3 (.g gd ((a.signExtend 128 * b.signExtend 128).extractLsb' 64 64))
    ∧ Posts (.mulhn gd r1 r2) s 3 (.g gd ((a.zeroExtend 128 * b.zeroExtend 128).extractLsb' 64 64))
    ∧ Posts (.div gd r1 r2) s 18 (.g gd (if b = 0 then BitVec.allOnes 64 else a.sdiv b))
    ∧ Posts (.divn gd r1 r2) s 18 (.g gd (if b = 0 then BitVec.allOnes 64 else a / b))
    ∧ Posts (.rem gd r1 r2) s 18 (.g gd (if b = 0 then a else a.srem b))
    ∧ Posts (.remn gd r1 r2) s 18 (.g gd (if b = 0 then a else a % b))
    ∧ Posts (.and gd r1 r2) s 1 (.g gd (a &&& b)) ∧ Posts (.or gd r1 r2) s 1 (.g gd (a ||| b))
    ∧ Posts (.xor gd r1 r2) s 1 (.g gd (a ^^^ b)) ∧ Posts (.andn gd r1 r2) s 1 (.g gd (a &&& ~~~b))
    ∧ Posts (.shl gd r1 r2) s 1 (.g gd (a <<< (b.extractLsb' 0 6).toNat))
    ∧ Posts (.shr gd r1 r2) s 1 (.g gd (a >>> (b.extractLsb' 0 6).toNat))
    ∧ Posts (.sha gd r1 r2) s 1 (.g gd (a.sshiftRight (b.extractLsb' 0 6).toNat))
    ∧ Posts (.rot gd r1 r2) s 1 (.g gd (a.rotateLeft (b.extractLsb' 0 6).toNat))
    ∧ Posts (.min gd r1 r2) s 1 (.g gd (BitVec.ofInt 64 (min a.toInt b.toInt)))
    ∧ Posts (.max gd r1 r2) s 1 (.g gd (BitVec.ofInt 64 (max a.toInt b.toInt)))
    ∧ Posts (.minn gd r1 r2) s 1 (.g gd (BitVec.ofNat 64 (min a.toNat b.toNat)))
    ∧ Posts (.maxn gd r1 r2) s 1 (.g gd (BitVec.ofNat 64 (max a.toNat b.toNat)))
    ∧ Posts (.popc gd r1) s 1 (.g gd (BitVec.ofNat 64 ((List.range 64).countP a.getLsbD)))
    ∧ Posts (.sel gd ps r1 r2) s 1 (.g gd (if s.pval ps then a else b))

/-- R113: CLZ and CTZ count the zeros above the highest one and below the lowest one, 64 where there is none. -/
def ScalarZeroCounts : Prop :=
  ∀ (s : State) (gd r1 : GReg),
    let a := s.gval r1
    (∃ n, Posts (.clz gd r1) s 1 (.g gd (BitVec.ofNat 64 n)) ∧ n ≤ 64 ∧ (∀ i, 64 - n ≤ i → i < 64 → a.getLsbD i = false)
      ∧ (n < 64 → a.getLsbD (63 - n) = true))
    ∧ (∃ n, Posts (.ctz gd r1) s 1 (.g gd (BitVec.ofNat 64 n)) ∧ n ≤ 64 ∧ (∀ i, i < n → a.getLsbD i = false)
      ∧ (n < 64 → a.getLsbD n = true))

/-- R116: the immediate operations; MOVI and MOVHI build any constant, the high part taking the low bits as they stand at
issue. -/
def ScalarImmediateResults : Prop :=
  ∀ (s : State) (gd r1 : GReg) (imm : BitVec 36) (n : BitVec 6) (m : BitVec 42) (h : BitVec 22),
    let a := s.gval r1
    let i := imm.signExtend 64
    Posts (.addi gd r1 imm) s 1 (.g gd (a + i)) ∧ Posts (.andi gd r1 imm) s 1 (.g gd (a &&& i))
    ∧ Posts (.ori gd r1 imm) s 1 (.g gd (a ||| i)) ∧ Posts (.xori gd r1 imm) s 1 (.g gd (a ^^^ i))
    ∧ Posts (.shli gd r1 n) s 1 (.g gd (a <<< n.toNat)) ∧ Posts (.shri gd r1 n) s 1 (.g gd (a >>> n.toNat))
    ∧ Posts (.shai gd r1 n) s 1 (.g gd (a.sshiftRight n.toNat)) ∧ Posts (.movi gd m) s 1 (.g gd (m.signExtend 64))
    ∧ ∃ v, Posts (.movhi gd h) s 1 (.g gd v) ∧ v.extractLsb' 42 22 = h ∧ v.extractLsb' 0 42 = (s.gval gd).extractLsb' 0 42

/-- Integer arithmetic, counts of zeros and immediates. -/
def Obligations.ScalarIntegerResults : Prop := ScalarArithmeticResults ∧ ScalarZeroCounts ∧ ScalarImmediateResults

/-- What each condition of R117 says of two registers, in integers. -/
def condSays (c : Cond) (a b : Word) : Prop :=
  match c with
  | .eq => a.toNat = b.toNat
  | .ne => a.toNat ≠ b.toNat
  | .lt => a.toInt < b.toInt
  | .ge => b.toInt ≤ a.toInt
  | .le => a.toInt ≤ b.toInt
  | .gt => b.toInt < a.toInt
  | .ltn => a.toNat < b.toNat
  | .gen => b.toNat ≤ a.toNat
  | .len => a.toNat ≤ b.toNat
  | .gtn => b.toNat < a.toNat
  | .bs => ∃ i, a.getLsbD i = true ∧ b.getLsbD i = true
  | .bc => ∀ i, ¬(a.getLsbD i = true ∧ b.getLsbD i = true)

/-- R117: CMP and CMPI write true to pd exactly when the condition holds, signed, unsigned or by bits. -/
def ComparisonResults : Prop :=
  ∀ (s : State) (pd : PReg) (r1 r2 : GReg) (imm : BitVec 27) (c : Cond),
    (∃ b, Posts (.cmp pd r1 r2 c) s 1 (.p pd b) ∧ (b = true ↔ condSays c (s.gval r1) (s.gval r2)))
    ∧ (∃ b, Posts (.cmpi pd r1 imm c) s 1 (.p pd b) ∧ (b = true ↔ condSays c (s.gval r1) (imm.signExtend 64)))

/-- R118: the predicate operations. -/
def PredicateResults : Prop :=
  ∀ (s : State) (pd p q : PReg),
    Posts (.pand pd p q) s 1 (.p pd (s.pval p && s.pval q)) ∧ Posts (.por pd p q) s 1 (.p pd (s.pval p || s.pval q))
    ∧ Posts (.pxor pd p q) s 1 (.p pd (s.pval p ^^ s.pval q)) ∧ Posts (.pandn pd p q) s 1 (.p pd (s.pval p && !s.pval q))
    ∧ Posts (.pnot pd p) s 1 (.p pd (!s.pval p)) ∧ Posts (.pmov pd p) s 1 (.p pd (s.pval p))

/-- R120: the address-register operations: the identifier and the offset of the value that ad receives, and its stride;
offsets wrap modulo 2^40 and the identifier of AADD stays. -/
def AddressRegisterResults : Prop :=
  ∀ (s : State) (ad asr : AReg) (gd gs g2 : GReg) (imm : BitVec 16) (im : BitVec 24),
    let a := s.cur.readA asr
    let st := s.cur.readStride asr
    exec (.amov ad asr) s = .next ((s.post 1 (.a ad a)).post 1 (.stride ad st))
    ∧ (∃ v, exec (.aadd ad asr gs imm) s = .next ((s.post 1 (.a ad v)).post 1 (.stride ad st)) ∧ addrId v = addrId a
        ∧ ((addrOff v).toNat : Int) = ((addrOff a).toNat + (s.gval gs).toNat + imm.toInt * st.toInt) % 2 ^ 40)
    ∧ Posts (.aget gd asr .whole) s 1 (.g gd a)
    ∧ (∃ v, Posts (.aget gd asr .offset) s 1 (.g gd v) ∧ v.toNat = (addrOff a).toNat)
    ∧ (∃ v, Posts (.aget gd asr .ident) s 1 (.g gd v) ∧ v.toNat = (addrId a).toNat)
    ∧ (∃ v, Posts (.aget gd asr .stride) s 1 (.g gd v) ∧ v.toInt = st.toInt)
    ∧ (∃ v, Posts (.abind ad gs g2) s 1 (.a ad v) ∧ (addrId v).toNat = (s.gval gs).toNat % 2 ^ 24
        ∧ (addrOff v).toNat = (s.gval g2).toNat % 2 ^ 40)
    ∧ (∃ t : BitVec 40, Posts (.astr ad gs im) s 1 (.stride ad t)
        ∧ ((t.toNat : Nat) : Int) = ((s.gval gs).toNat + im.toInt) % 2 ^ 40)

/-- Comparisons, predicate logic and address registers. -/
def Obligations.PredicateAndAddressResults : Prop := ComparisonResults ∧ PredicateResults ∧ AddressRegisterResults

/-! ### Control transfer, loops, checks, control registers (06 R121-R133) -/

/-- The bundle goes on to a target, 2 dc later, and the slot does nothing else (05 R101, 06 R122). -/
def GoesTo (i : Instr) (s : State) (t : BAddr) : Prop :=
  exec i s = .next { s with iss := { s.iss with target := some t, cost := 2 } }

/-- R121: where BR, a BRC whose condition holds, JMP, CALL and RET go, modulo 2^51; CALL writes the link; a BRC whose
condition does not hold changes nothing. -/
def TransferTargets : Prop :=
  ∀ (s : State) (off : BitVec 32) (o24 : BitVec 24) (gs g2 gd : GReg) (c : Cond) (t : BAddr),
    (((t.toNat : Nat) : Int) = (s.iss.pc.toNat + off.toInt) % 2 ^ 51 →
      GoesTo (.br off) s t
      ∧ exec (.call gd off) s = .next { s.post 1 (.g gd (BitVec.ofNat 64 ((s.iss.pc.toNat + 1) % 2 ^ 51))) with
          iss := { s.iss with target := some t, cost := 2 } })
    ∧ (((t.toNat : Nat) : Int) = (s.iss.pc.toNat + o24.toInt) % 2 ^ 51 → condSays c (s.gval gs) (s.gval g2) →
      GoesTo (.brc gs g2 o24 c) s t)
    ∧ (¬ condSays c (s.gval gs) (s.gval g2) → exec (.brc gs g2 o24 c) s = .next s)
    ∧ (t.toNat = (s.gval gs).toNat % 2 ^ 51 → GoesTo (.jmp gs) s t ∧ GoesTo (.ret gs) s t)

/-- A change of the loop engine, of a loop counter and of the stage predicates, and of the next bundle: all else stays. -/
def LoopOnly (s t : State) : Prop :=
  ∃ (l : LoopState) (lc : Vector (BitVec 32) 4) (p : BitVec 96) (tg : Option BAddr) (cost : Nat),
    t = { s.modCtx s.iss.x fun c => { c with regs := { c.regs with loop := l, lc := lc, p := p } } with
      iss := { s.iss with target := tg, cost := cost } }

/-- R125: LOOP on level K. The deeper levels end, the count is loaded; a count of zero goes past the body as a taken branch
and leaves the level inactive; any other activates the level over its body, pipelined with stage 0 alone live where it
has more than one stage. The Start and End of every other level, the other counters and p0 to p87 stay, and so do
PLV and SM1 unless the level is pipelined itself. -/
def LoopTakesEffect : Prop :=
  ∀ (s : State) (k : CReg) (gs : GReg) (off : BitVec 12) (sm1 : BitVec 3),
    let n := (s.gval gs).toNat % 2 ^ 32
    let r := s.cur.regs
    ∃ t, exec (.loop k gs off sm1) s = .next t ∧ LoopOnly s t
      ∧ (t.cur.readLc k).toNat = n ∧ (∀ j : CReg, j ≠ k → t.cur.readLc j = s.cur.readLc j)
      ∧ (∀ j : CReg, t.cur.regs.loop.act.getLsbD j.toNat =
          if j.toNat < k.toNat then r.loop.act.getLsbD j.toNat else decide (j = k ∧ n ≠ 0))
      ∧ (∀ i : PReg, i.toNat < 88 → t.cur.readP i = s.cur.readP i)
      ∧ t.cur.regs.loop.drn = r.loop.drn
      ∧ (∀ j : CReg, j ≠ k ∨ n = 0 → t.cur.regs.loop.start[j.toNat]'j.isLt = r.loop.start[j.toNat]'j.isLt
          ∧ t.cur.regs.loop.fin[j.toNat]'j.isLt = r.loop.fin[j.toNat]'j.isLt)
      ∧ (n = 0 → t.iss.target = some (s.iss.pc + off.zeroExtend 51 + 1) ∧ t.iss.cost = 2 ∧ t.cur.regs.p = r.p)
      ∧ (n ≠ 0 → t.iss.target = s.iss.target ∧ t.iss.cost = s.iss.cost
          ∧ t.cur.regs.loop.start[k.toNat]'k.isLt = s.iss.pc + 1
          ∧ t.cur.regs.loop.fin[k.toNat]'k.isLt = s.iss.pc + off.zeroExtend 51
          ∧ (sm1 ≠ 0 → t.cur.regs.loop.pipe = true ∧ t.cur.regs.loop.plv = k ∧ t.cur.regs.loop.sm1 = sm1
              ∧ ∀ i : PReg, 88 ≤ i.toNat → t.cur.readP i = decide (i = 88)))
      ∧ ((n = 0 ∨ sm1 = 0) → t.cur.regs.p = r.p ∧ t.cur.regs.loop.plv = r.loop.plv ∧ t.cur.regs.loop.sm1 = r.loop.sm1
          ∧ t.cur.regs.loop.pipe = (r.loop.pipe && decide (r.loop.plv.toNat < k.toNat)))

/-- R128: LEXIT ends its level and every deeper one and transfers; the counters, the predicates, the shallower levels, every
Start and End, PLV, SM1 and DRN stay. -/
def LexitTakesEffect : Prop :=
  ∀ (s : State) (k : CReg) (off : BitVec 32) (u : BAddr), ((u.toNat : Nat) : Int) = (s.iss.pc.toNat + off.toInt) % 2 ^ 51 →
    ∃ t, exec (.lexit k off) s = .next t ∧ LoopOnly s t ∧ t.iss.target = some u ∧ t.iss.cost = 2
      ∧ t.cur.regs.lc = s.cur.regs.lc ∧ t.cur.regs.p = s.cur.regs.p
      ∧ (∀ j : CReg, t.cur.regs.loop.act.getLsbD j.toNat = (s.cur.regs.loop.act.getLsbD j.toNat && decide (j.toNat < k.toNat)))
      ∧ t.cur.regs.loop.pipe = (s.cur.regs.loop.pipe && decide (s.cur.regs.loop.plv.toNat < k.toNat))
      ∧ t.cur.regs.loop = { s.cur.regs.loop with act := t.cur.regs.loop.act, pipe := t.cur.regs.loop.pipe }

/-- The registers after a level has ended: its active bit, the drain bit and, where it was the pipelined one, PIPE are zero. -/
def Sys2Proof.Machine.LoopState.ended (l : LoopState) (k : CReg) : LoopState :=
  { l with act := l.act &&& ~~~(1#4 <<< k.toNat), drn := false, pipe := l.pipe && l.plv != k }
/-- A shallower active level that ends at the same bundle as level k. -/
def EndsWith (r : Regs) (k j : CReg) : Prop :=
  j.toNat < k.toNat ∧ r.loop.act.getLsbD j.toNat = true ∧ r.loop.fin[j.toNat]'j.isLt = r.loop.fin[k.toNat]'k.isLt

/-- R126, R127: the pass end of a level that is not pipelined: the count falls by one and never wraps. With iterations left the
body starts again; or, a request draining it, DRN ends and the context settles before the body. With none left the level ends:
the pass of the highest shallower level that ends here ends too, or the bundle after the body follows. -/
def PlainPassEnd : Prop :=
  ∀ (r : Regs) (k : CReg) (fuel : Nat), ¬(r.loop.pipe = true ∧ r.loop.plv = k) →
    let lc := (r.lc[k.toNat]'k.isLt).toNat
    let q := r.setLc k (BitVec.ofNat 32 (lc - 1))
    (1 < lc → r.loop.drn = false → r.passEnd k (fuel + 1) = (q, r.loop.start[k.toNat]'k.isLt, false))
    ∧ (1 < lc → r.loop.drn = true →
        r.passEnd k (fuel + 1) = ({ q with loop := { r.loop with drn := false } }, r.loop.start[k.toNat]'k.isLt, true))
    ∧ (lc ≤ 1 →
        ((∀ j, ¬ EndsWith r k j) →
          r.passEnd k (fuel + 1) = ({ q with loop := r.loop.ended k }, r.loop.fin[k.toNat]'k.isLt + 1, false))
        ∧ ∀ j, EndsWith r k j → (∀ i, EndsWith r k i → i.toNat ≤ j.toNat) →
          r.passEnd k (fuel + 1) = ({ q with loop := r.loop.ended k } : Regs).passEnd j fuel)

/-- R126, R127: the pass end of the pipelined level. With p88 true the count falls by one and never wraps; each stage predicate
up to p(88 + SM1) takes the one below it, and p88 becomes true where iterations are left and no request drains the level. A
stage still live starts the body again. With none live, a request draining the level and iterations left, p88 is set, DRN ends
and the context settles before the body; else the level ends. -/
def PipelinedPassEnd : Prop :=
  ∀ (r : Regs) (k : CReg) (fuel : Nat), r.loop.pipe = true → r.loop.plv = k →
    let lc := (r.lc[k.toNat]'k.isLt).toNat
    let lc' := if r.p.getLsbD 88 then lc - 1 else lc
    let top := 88 + r.loop.sm1.toNat
    let first := decide (0 < lc') && !r.loop.drn
    ∃ q : Regs, q = { r.setLc k (BitVec.ofNat 32 lc') with p := q.p }
      ∧ (∀ i, i < 96 → q.p.getLsbD i = if i = 88 then first else if 88 < i ∧ i ≤ top then r.p.getLsbD (i - 1) else r.p.getLsbD i)
      ∧ (let live := ∃ i, 88 ≤ i ∧ i ≤ top ∧ q.p.getLsbD i = true
         (live → r.passEnd k (fuel + 1) = (q, r.loop.start[k.toNat]'k.isLt, false))
         ∧ (¬ live → 0 < lc' → r.loop.drn = true →
             r.passEnd k (fuel + 1) = ({ q with loop := { r.loop with drn := false }, p := q.p ||| (1#96 <<< 88) },
               r.loop.start[k.toNat]'k.isLt, true))
         ∧ (¬ live → (lc' = 0 ∨ r.loop.drn = false) →
             ((∀ j, ¬ EndsWith r k j) →
               r.passEnd k (fuel + 1) = ({ q with loop := r.loop.ended k }, r.loop.fin[k.toNat]'k.isLt + 1, false))
             ∧ ∀ j, EndsWith r k j → (∀ i, EndsWith r k i → i.toNat ≤ j.toNat) →
               r.passEnd k (fuel + 1) = ({ q with loop := r.loop.ended k } : Regs).passEnd j fuel))

/-- R126, R121: outside a repeat group the bundle after the last one of the innermost active level's body is what its pass end
gives, the context settling where that is a drain end; a transfer goes to its target and leaves the loop engine alone. -/
def BodyEnds : Prop :=
  ∀ (c : Ctx) (k : CReg) (cost : Nat) (g : BAddr) (q : Regs) (nb : BAddr) (drained : Bool),
    (c.flow.group = none → c.regs.loop.act.getLsbD k.toNat = true → (∀ j : CReg, k.toNat < j.toNat → c.regs.loop.act.getLsbD j.toNat = false) →
      c.regs.loop.fin[k.toNat]'k.isLt = c.flow.pc → c.regs.passEnd k 4 = (q, nb, drained) →
      c.nextBundle none cost = { c with regs := q, flow := { c.flow with pc := nb, settle := drained } })
    ∧ c.nextBundle (some g) cost = { c with flow := { c.flow with pc := g, stall := cost, group := none } }

/-- LOOP, LEXIT and the pass ends. -/
def Obligations.LoopEngine : Prop :=
  LoopTakesEffect ∧ LexitTakesEffect ∧ PlainPassEnd ∧ PipelinedPassEnd ∧ BodyEnds

/-- R129 to R132: SPAWN with room in NS is counted and its launch command held with the segment; TEND and TRAP end with
their bundles, TRAP's committing; CHK and CHKP with equal operands do nothing. -/
def ControlCompletes : Prop :=
  ∀ (s : State) (gs : GReg) (q : BitVec 4) (imm : BitVec 16) (x1 x2 : BitVec 6) (kind : ChkKind) (p1 p2 : PReg),
    ((s.gval gs).toNat % 64 = 0 → s.cur.ns < 96 →
      exec (.spawn gs q) s = .next (({ s with nextId := s.nextId + 1 }.modCtx s.iss.x fun c => { c with
        counts := { c.counts with ns := c.counts.ns ++ [s.nextId] }
        seg := { c.seg with staged := c.seg.staged ++ [Staged.after s.nextId (.ev
          (.spawnPost s.iss.x s.nextId q ((s.gval gs).extractLsb' 0 57) s.cur.sys.dbg s.cur.tregs.taskid))] } })))
    ∧ exec .tend s = .next { s with iss := { s.iss with ending := .tend } }
    ∧ exec (.trap imm) s = .next { s with iss := { s.iss with ends := true, ending := .trap imm } }
    ∧ ((match kind with
        | .g => s.cur.readG x1 = s.cur.readG x2
        | .v => s.cur.readV x1 = s.cur.readV x2
        | .a => s.cur.readA (x1.extractLsb' 0 4) = s.cur.readA (x2.extractLsb' 0 4)
            ∧ s.cur.readStride (x1.extractLsb' 0 4) = s.cur.readStride (x2.extractLsb' 0 4)
        | .k => s.cur.readK (x1.extractLsb' 0 4) = s.cur.readK (x2.extractLsb' 0 4)) → exec (.chk x1 x2 kind) s = .next s)
    ∧ (s.pval p1 = s.pval p2 → exec (.chkp p1 p2) s = .next s)

/-- Transfers, SPAWN, TEND, TRAP and checks that pass. -/
def Obligations.ControlTransfer : Prop := TransferTargets ∧ ControlCompletes

/-- The slot raises a cause, and does nothing else. -/
def Raises (i : Instr) (s : State) (code : BitVec 16) (tval : Word) : Prop :=
  exec i s = .next { s with iss := { s.iss with faults := s.iss.faults ++ [⟨s.iss.slot, code, tval, 0⟩] } }

/-- R129, R132, R133, R60, R62: what S-slot operations raise: a misaligned SPAWN, a CHK or CHKP of unequal operands, an MTC
of an illegal field. -/
def ScalarFaults : Prop :=
  ∀ (s : State) (gs : GReg) (q : BitVec 4) (x1 x2 : BitVec 6) (p1 p2 : PReg) (num : BitVec 8),
    let v := s.gval gs
    (v.toNat % 64 ≠ 0 → Raises (.spawn gs q) s 0x0004 v)
    ∧ (s.cur.readG x1 ≠ s.cur.readG x2 → Raises (.chk x1 x2 .g) s 0x0012 0)
    ∧ (s.cur.readV x1 ≠ s.cur.readV x2 → Raises (.chk x1 x2 .v) s 0x0012 0)
    ∧ (s.cur.readA (x1.extractLsb' 0 4) ≠ s.cur.readA (x2.extractLsb' 0 4)
        ∨ s.cur.readStride (x1.extractLsb' 0 4) ≠ s.cur.readStride (x2.extractLsb' 0 4) → Raises (.chk x1 x2 .a) s 0x0012 0)
    ∧ (s.cur.readK (x1.extractLsb' 0 4) ≠ s.cur.readK (x2.extractLsb' 0 4) → Raises (.chk x1 x2 .k) s 0x0012 0)
    ∧ (s.pval p1 ≠ s.pval p2 → Raises (.chkp p1 p2) s 0x0012 0)
    ∧ (0x11 ≤ num.toNat → num.toNat ≤ 0x2F → (28 ≤ v.toNat % 32 ∨ 5 ≤ v.toNat / 2 ^ 16 % 8) → Raises (.mtc num gs) s 0x0005 0)
    ∧ (num = 0x30 → v.toNat % 4 = 3 → Raises (.mtc num gs) s 0x0001 0)
    ∧ (num = 0x31 → (v.toNat % 8 = 0 ∨ 5 ≤ v.toNat % 8) → Raises (.mtc num gs) s 0x0001 0)

/-- R58, R60, R62, R133: MTC of legal fields puts its value in flight for the next cc; landed, it is what MFC then reads of
a format slot, of SLEN, of RDMAX, of a loop counter and of a generator, reserved bits as zero and an LFS of zero as one; a read-only register and
every other register stays. -/
def ControlRegisterWrites : Prop :=
  ∀ (s : State) (c : Ctx) (x : CtxId) (num : BitVec 8) (gs : GReg) (v : Word),
    (let u := s.gval gs
     (0x11 ≤ num.toNat → num.toNat ≤ 0x2F → u.toNat % 32 < 28 ∧ u.toNat / 2 ^ 16 % 8 < 5) →
      (num = 0x30 → u.toNat % 4 ≠ 3) → (num = 0x31 → u.toNat % 8 ≠ 0 ∧ u.toNat % 8 < 5) → Posts (.mtc num gs) s 1 (.creg num u))
    ∧ (0x11 ≤ num.toNat → num.toNat ≤ 0x2F →
        ((c.land (.creg num v)).readCreg x num).toNat = v.toNat / 2 ^ 16 % 8 * 2 ^ 16 + v.toNat / 2 ^ 8 % 2 ^ 8 * 2 ^ 8 + v.toNat % 2 ^ 5)
    ∧ ((c.land (.creg 0x30 v)).readCreg x 0x30).toNat = v.toNat % 4
    ∧ ((c.land (.creg 0x31 v)).readCreg x 0x31).toNat = v.toNat % 8
    ∧ (0x50 ≤ num.toNat → num.toNat ≤ 0x53 → ((c.land (.creg num v)).readCreg x num).toNat = v.toNat % 2 ^ 32)
    ∧ (0x40 ≤ num.toNat → num.toNat ≤ 0x4F → let w := (c.land (.creg num v)).readCreg x num
        w.getLsbD 63 = v.getLsbD 63 ∧ w.extractLsb' 0 10 = v.extractLsb' 0 10 ∧ w.extractLsb' 26 4 = (c.readCreg x num).extractLsb' 26 4
          ∧ w.extractLsb' 30 33 = 0 ∧ w.extractLsb' 10 16 = if v.extractLsb' 10 16 = 0 then 1 else v.extractLsb' 10 16)
    ∧ (∀ n m : BitVec 8, n ≠ m → (c.land (.creg n v)).readCreg x m = c.readCreg x m)
    ∧ (num ∈ [(0x00 : BitVec 8), 0x01, 0x02, 0x03, 0x04, 0x08, 0x09, 0x0A, 0x0B, 0x10, 0x34, 0x35, 0x36, 0x38, 0x39] →
        c.land (.creg num v) = c)

/-- R58, R133, R57: what MFC writes of the read-only registers: the identity of the task and of the context, the carve-out,
the counts of outstanding operations, the replay count. -/
def ControlRegisterReads : Prop :=
  ∀ (s : State) (gd : GReg), let c := s.cur
    Posts (.mfc gd 0x00) s 1 (.g gd (c.tregs.vcore.zeroExtend 64)) ∧ Posts (.mfc gd 0x01) s 1 (.g gd (c.tregs.gsize.zeroExtend 64))
    ∧ Posts (.mfc gd 0x02) s 1 (.g gd c.tregs.taskid)
    ∧ Posts (.mfc gd 0x03) s 1 (.g gd (BitVec.ofNat 64 (s.iss.x.core.toNat * 2 + s.iss.x.ctx.toNat)))
    ∧ Posts (.mfc gd 0x04) s 1 (.g gd (c.tregs.lbp.zeroExtend 64))
    ∧ Posts (.mfc gd 0x08) s 1 (.g gd (BitVec.ofNat 64 (c.flow.inflight.countP (·.nl))))
    ∧ Posts (.mfc gd 0x09) s 1 (.g gd (BitVec.ofNat 64 c.counts.ns.length))
    ∧ Posts (.mfc gd 0x0A) s 1 (.g gd (BitVec.ofNat 64 c.counts.nc.length))
    ∧ Posts (.mfc gd 0x0B) s 1 (.g gd (BitVec.ofNat 64 c.counts.nt.length))
    ∧ Posts (.mfc gd 0x10) s 1 (.g gd 0)
    ∧ Posts (.mfc gd 0x34) s 1 (.g gd (c.tregs.spbase.zeroExtend 64)) ∧ Posts (.mfc gd 0x35) s 1 (.g gd (c.tregs.spsize.zeroExtend 64))
    ∧ Posts (.mfc gd 0x36) s 1 (.g gd (c.tregs.spovf.zeroExtend 64)) ∧ Posts (.mfc gd 0x38) s 1 (.g gd (c.regs.fstat.zeroExtend 64))
    ∧ Posts (.mfc gd 0x39) s 1 (.g gd (c.replays.zeroExtend 64))
    ∧ (∀ num, ∃ v, Posts (.mfc gd num) s 1 (.g gd v))

/-- MTC and MFC. -/
def Obligations.ControlRegisters : Prop := ControlRegisterWrites ∧ ControlRegisterReads

/-! ### Privileged operations (17 R310-R320) -/

/-- R314, R134: at user level every privileged operation raises the privilege fault of its slot and does nothing else. -/
def PrivilegedAtUserLevel : Prop :=
  ∀ (s : State) (gd gs : GReg) (num : BitVec 10) (sc : BitVec 1), s.cur.sys.pl = false →
    ∀ i ∈ [Instr.mfs gd num, .mts num gs, .tret, .tretEnd gs, .tretYield, .ctxsv gs, .ctxld gs, .mown, .mgive, .tlbiAll sc gs,
        .tlbiVa sc gs, .tlbiWalk sc gs], Raises i s 0x0002 0

/-- What S-slot operations raise, their privilege check among it. -/
def Obligations.ScalarFaultCauses : Prop := ScalarFaults ∧ PrivilegedAtUserLevel

/-- The numbers that the chapters assign to system registers (R311, R333, R338, R367, R386, R388, R391, R398, R401, R405, R408). -/
def assigned (n : Nat) : Prop :=
  n ≤ 0x00E ∨ (0x100 ≤ n ∧ n ≤ 0x102) ∨ (0x110 ≤ n ∧ n ≤ 0x120) ∨ (0x140 ≤ n ∧ n ≤ 0x144) ∨ (0x148 ≤ n ∧ n ≤ 0x14C)
    ∨ (0x160 ≤ n ∧ n ≤ 0x183) ∨ (0x188 ≤ n ∧ n ≤ 0x189) ∨ (0x1A0 ≤ n ∧ n ≤ 0x1A2) ∨ (0x1C0 ≤ n ∧ n ≤ 0x23F)

/-- R311 to R313, R315, R325, R333: what MFS at system level writes of each register of the context, readable in the next
cc; a number that no chapter assigns raises the illegal-operation fault. -/
def SystemRegisterReads : Prop :=
  ∀ (s : State) (gd : GReg), s.cur.sys.pl = true →
    let y := s.cur.sys
    let b (x : Bool) (n : Nat) : Nat := if x then 2 ^ n else 0
    Posts (.mfs gd 0x000) s 1 (.g gd (BitVec.ofNat 64 (b y.dbg 2 + b y.mowned 1 + 1)))
    ∧ Posts (.mfs gd 0x001) s 1 (.g gd y.tcause) ∧ Posts (.mfs gd 0x002) s 1 (.g gd (y.tepc.zeroExtend 64))
    ∧ Posts (.mfs gd 0x003) s 1 (.g gd (y.tbun.zeroExtend 64)) ∧ Posts (.mfs gd 0x004) s 1 (.g gd y.tval)
    ∧ Posts (.mfs gd 0x005) s 1 (.g gd (BitVec.ofNat 64 (b y.tvecEn 63 + y.tvecBase.toNat)))
    ∧ Posts (.mfs gd 0x006) s 1 (.g gd y.tscr[0]) ∧ Posts (.mfs gd 0x007) s 1 (.g gd y.tscr[1])
    ∧ Posts (.mfs gd 0x008) s 1 (.g gd y.tscr[2]) ∧ Posts (.mfs gd 0x009) s 1 (.g gd y.tscr[3])
    ∧ Posts (.mfs gd 0x00A) s 1 (.g gd (y.flatb.zeroExtend 64)) ∧ Posts (.mfs gd 0x00B) s 1 (.g gd (y.flats.zeroExtend 64))
    ∧ Posts (.mfs gd 0x00C) s 1 (.g gd (y.msave.zeroExtend 64)) ∧ Posts (.mfs gd 0x00D) s 1 (.g gd (y.ctxb.zeroExtend 64))
    ∧ Posts (.mfs gd 0x00E) s 1 (.g gd (BitVec.ofNat 64 (y.cperr.toNat * 2 ^ 8 + b y.wdog 2 + b y.quar 1 + b y.pre 0)))
    ∧ Posts (.mfs gd 0x102) s 1 (.g gd (y.duty.zeroExtend 64)) ∧ Posts (.mfs gd 0x120) s 1 (.g gd y.troot)
    ∧ (∀ num : BitVec 10, (assigned num.toNat → ∃ v, Posts (.mfs gd num) s 1 (.g gd v))
        ∧ (¬ assigned num.toNat → Raises (.mfs gd num) s 0x0001 0))

/-- R315, R310: MTS at system level to a register of the context: the faults of TVEC, FLATB, MSAVE and of a number that no
chapter assigns; any other value is
put in flight, and what has landed reads back in the register's writable bits. A register of the die is reached by an act
that leaves with the bundle. -/
def SystemRegisterWrites : Prop :=
  ∀ (s : State) (gs : GReg) (num : BitVec 10) (y : SysRegs), s.cur.sys.pl = true →
    let v := s.gval gs
    (¬ assigned num.toNat → Raises (.mts num gs) s 0x0001 0)
    ∧ (v.toNat % 16 ≠ 0 → Raises (.mts 0x005 gs) s 0x0001 0)
    ∧ (v.toNat % 4096 ≠ 0 → Raises (.mts 0x00A gs) s 0x0001 0 ∧ Raises (.mts 0x00C gs) s 0x0001 0)
    ∧ (v.toNat % 16 = 0 → Posts (.mts 0x005 gs) s 1 (.sreg 0x005 v))
    ∧ (v.toNat % 4096 = 0 → Posts (.mts 0x00A gs) s 1 (.sreg 0x00A v) ∧ Posts (.mts 0x00C gs) s 1 (.sreg 0x00C v))
    ∧ (num.toNat ≤ 0x00E → num ∉ [(0x005 : BitVec 10), 0x00A, 0x00C] → Posts (.mts num gs) s 1 (.sreg num v))
    ∧ ((y.write 0x000 v).dbg = v.getLsbD 2 ∧ (y.write 0x002 v).tepc.toNat = v.toNat % 2 ^ 51
        ∧ (y.write 0x005 v).tvecEn = v.getLsbD 63 ∧ (y.write 0x005 v).tvecBase.toNat = v.toNat % 2 ^ 51
        ∧ (y.write 0x006 v).tscr[0] = v ∧ (y.write 0x007 v).tscr[1] = v ∧ (y.write 0x008 v).tscr[2] = v ∧ (y.write 0x009 v).tscr[3] = v
        ∧ (y.write 0x00A v).flatb.toNat = v.toNat % 2 ^ 57 ∧ (y.write 0x00B v).flats.toNat = v.toNat % 2 ^ 40
        ∧ (y.write 0x00C v).msave.toNat = v.toNat % 2 ^ 57)
    ∧ (∀ n ∈ [(0x001 : BitVec 10), 0x003, 0x004, 0x00D, 0x00E], y.write n v = y)
    ∧ (num ∈ [(0x101 : BitVec 10), 0x110, 0x11F, 0x140, 0x141, 0x142, 0x143, 0x144, 0x148, 0x149, 0x14A, 0x14B, 0x14C, 0x189, 0x1A0, 0x1A2,
          0x200, 0x23F] →
        exec (.mts num gs) s = .next { s with iss := { s.iss with acts := s.iss.acts ++ [.ev (.registerWrite s.iss.x num v)] } })
    ∧ exec (.mts 0x100 gs) s = .next { s with iss := { s.iss with
        acts := s.iss.acts ++ [.ev (.schdb s.iss.x.die (v.extractLsb' 0 4))] } }

/-- MFS and MTS. -/
def Obligations.SystemRegisters : Prop := SystemRegisterReads ∧ SystemRegisterWrites

/-- The bundle commits, and an operation of the system level follows its commit. -/
def EndsIn (i : Instr) (s : State) (w : SysWait) : Prop :=
  exec i s = .next { s with iss := { s.iss with ends := true, ending := .sys w } }

/-- R316: TRET at system level commits, and then, the array not being owned, returns: to user level at TEPC, a segment
entry, after 2 dc; or it ends the task with the code of gs; or the task leaves as a pre-empted one, and the rest of its gang
receives the pre-emption request (02 R34). The task's registers stay, but that a task that leaves has no more to drain for a
request that it takes with it (06 R127). -/
def Obligations.TrapReturns : Prop :=
  ∀ (s : State) (gs : GReg) (x : CtxId), s.cur.sys.pl = true →
    EndsIn .tret s .tretResume ∧ EndsIn (.tretEnd gs) s (.tretEnd ((s.gval gs).extractLsb' 0 16)) ∧ EndsIn .tretYield s .tretYield
    ∧ ((s.ctx x).sys.mowned = false →
        ((s.ctx x).flow.phase = .sys .tretResume →
          ∃ f : Flow, s.sysStep x = s.modCtx x (fun c => { c with sys := { c.sys with pl := false }, flow := f })
            ∧ f.pc = (s.ctx x).sys.tepc ∧ f.asEntry = true ∧ f.stall = 2 ∧ f.phase = .run ∧ f.hold = (s.ctx x).flow.savedHold
            ∧ f.pendingTrap = (s.ctx x).flow.savedTrap ∧ f.inflight = (s.ctx x).flow.inflight)
        ∧ (∀ code, (s.ctx x).flow.phase = .sys (.tretEnd code) →
          ((s.sysStep x).ctx x).sys.pl = false ∧ ((s.sysStep x).ctx x).flow.phase = .ending 6
            ∧ ((s.sysStep x).ctx x).regs = (s.ctx x).regs
            ∧ ∀ k t, (s.ctx x).task = some k → s.task? k = some t →
                (s.sysStep x).task? k = some { t with fcode := code, entry := (s.ctx x).sys.tepc })
        ∧ ((s.ctx x).flow.phase = .sys .tretYield →
          ∃ (f : Flow) (r : Regs), (s.sysStep x).ctx x = { s.ctx x with sys := { (s.ctx x).sys with pl := false }, flow := f, regs := r }
            ∧ r = { (s.ctx x).regs with loop := { (s.ctx x).regs.loop with
                drn := (s.ctx x).regs.loop.drn && ((s.ctx x).sys.wdog || (s.ctx x).sys.cperr != 0) } }
            ∧ f.pc = (s.ctx x).sys.tepc ∧ f.asEntry = true ∧ f.phase = .leaving .preempt
            ∧ ((∀ g, s.gangOf x = some g → g.solo = true) →
                s.sysStep x = s.modCtx x (fun c => { c with sys := { c.sys with pl := false }, flow := f, regs := r }))
            ∧ (∀ g, s.gangOf x = some g → g.solo = false → ∀ k ∈ g.members, ∀ y, s.ctxOfTask k = some y → y ≠ x →
                (s.ctx y).flow.phase = .run → ((s.sysStep x).ctx y).sys.pre = true)))

/-- R317, R318: CTXSV and CTXLD of a misaligned address raise the alignment fault; of an aligned one they, and every TLBI,
commit their bundle, end its segment and act then, a TLBI once it has nothing left to wait for. TLBI of an address removes every entry of the core's L1 TLB that holds
it, with .die those of the die's L2 TLB too; .walk empties the die's walk caches; .all clears everything it names. A lock's
entries stay. -/
def ContextAndTlbOperations : Prop :=
  ∀ (s : State) (gs : GReg) (sc : BitVec 1) (x : CtxId) (va : Word), s.cur.sys.pl = true →
    let a := s.gval gs
    (a.toNat % 4096 ≠ 0 → Raises (.ctxsv gs) s 0x0004 a ∧ Raises (.ctxld gs) s 0x0004 a)
    ∧ (a.toNat % 4096 = 0 → EndsIn (.ctxsv gs) s (.ctxsv a) ∧ EndsIn (.ctxld gs) s (.ctxld a))
    ∧ EndsIn (.tlbiAll sc gs) s (.tlbi 0 (sc == 1) a []) ∧ EndsIn (.tlbiVa sc gs) s (.tlbi 1 (sc == 1) a [])
    ∧ EndsIn (.tlbiWalk sc gs) s (.tlbi 2 (sc == 1) a [])
    ∧ (∀ (kind : BitVec 2) (die : Bool), (s.ctx x).flow.phase = .sys (.tlbi kind die va []) → kind ≠ 3 →
        let t := s.sysStep x
        (t.ctx x).flow.phase = .run ∧ (t.ctx x).locks = (s.ctx x).locks
        ∧ (kind = 0 → (t.core x.core).tlb = [])
        ∧ (kind = 1 → ∀ e, e ∈ (t.core x.core).tlb ↔ e ∈ (s.core x.core).tlb ∧ ¬(e.page ≤ va.toNat % 2 ^ 57 ∧ va.toNat % 2 ^ 57 < e.page + e.size))
        ∧ (kind = 0 → die = true → (t.die x.die).l2tlb = [] ∧ (t.die x.die).walk = [])
        ∧ (kind = 1 → die = true → ∀ e ∈ (t.die x.die).l2tlb, ¬(e.page ≤ va.toNat % 2 ^ 57 ∧ va.toNat % 2 ^ 57 < e.page + e.size))
        ∧ (kind = 2 → (t.die x.die).walk = [] ∧ (t.core x.core).tlb = (s.core x.core).tlb))

/-- R319, R320, R165, R177: MOWN with the array already owned and MGIVE with it not owned do nothing; a save area that is not
on a page raises the alignment fault; MOWN waits for every counted matrix operation of the task but engine work that can stop at
its step boundary, MGIVE for all of them. MOWN then stops that work, stores the tiles and the weight-buffer descriptor in the
save area, and leaves tiles of +0.0, empty slots and an empty macro word, the array owned. MGIVE gives it back with the tiles,
the slots with their cursors and the macro word that the bytes of the save area hold, the slots refetched and the work
restarted. -/
def ArrayOwnership : Prop :=
  ∀ (s u : State) (bs : List Byte), s.cur.sys.pl = true →
    let c := s.cur
    let mine (id : Nat) : Prop := c.canStop = true ∧ ∃ w, c.work = some w ∧ w.id = id
    let waits (i : Instr) : Prop := exec i s = .next { s with iss := { s.iss with block := some (s.iss.slot, 0), own := true } }
    (c.sys.mowned = true → exec .mown s = .next s) ∧ (c.sys.mowned = false → exec .mgive s = .next s)
    ∧ (c.sys.mowned = false → c.sys.msave.toNat % 4096 ≠ 0 → Raises .mown s 0x0004 (c.sys.msave.zeroExtend 64))
    ∧ (c.sys.mowned = false → c.sys.msave.toNat % 4096 = 0 → s.iss.block = none → (∃ id ∈ c.counts.nt, ¬ mine id) → waits .mown)
    ∧ (c.sys.mowned = true → s.iss.block = none → c.counts.nt ≠ [] → waits .mgive)
    ∧ (c.sys.mowned = false → c.sys.msave.toNat % 4096 = 0 → (∀ id ∈ c.counts.nt, mine id) →
        (s.stopWork s.iss.x).sysWrite s.iss.x.die c.sys.troot c.sys.msave.toNat
          (tileBytes (s.stopWork s.iss.x).cur.regs ++ (s.stopWork s.iss.x).cur.weightDesc) (.bitErrors 0 []) = (u, .done) →
        exec .mown s = .next ((u.keepMacro s.iss.x c.sys.msave.toNat).modCur fun c => { c with
          regs := { c.regs with tiles := Vector.replicate 4 0 }, w := c.w.map fun (w : WSlot) => { w with state := 0 }
          macw := {}, sys := { c.sys with mowned := true } }))
    ∧ (c.sys.mowned = true → c.counts.nt = [] →
        s.sysRead s.iss.x.die c.sys.troot c.sys.msave.toNat 65664 (.bitErrors 0 []) = (u, .got bs) →
        let field (o n : Nat) : Nat := bytesToNat ((bs.drop o).take n)
        ∃ t, exec .mgive s = .next ((t.refetchAll s.iss.x).restartWork s.iss.x)
          ∧ t = (u.modCtx s.iss.x fun c => { c with
              regs := { c.regs with tiles := (t.ctx s.iss.x).regs.tiles, cur := (t.ctx s.iss.x).regs.cur }
              w := (t.ctx s.iss.x).w, macw := (t.ctx s.iss.x).macw, counts := (t.ctx s.iss.x).counts
              sys := { c.sys with mowned := false } })
          ∧ (t.ctx s.iss.x).counts = { (u.ctx s.iss.x).counts with memDrains := (t.ctx s.iss.x).counts.memDrains }
          ∧ (∀ i : CReg, (t.ctx s.iss.x).readTile i = BitVec.ofNat 131072 (field (16384 * i.toNat) 16384))
          ∧ (∀ i : CReg, let w := (t.ctx s.iss.x).wslot i
              let e := field (65536 + 24 * i.toNat) 24
              w.src.toNat = e / 2 ^ 128 ∧ w.state.toNat = e / 2 ^ 126 % 4 ∧ w.mode.toNat = e / 2 ^ 124 % 4 ∧ w.code.toNat = e / 2 ^ 119 % 32
                ∧ w.bias.toNat = e / 2 ^ 111 % 256 ∧ w.geom.toNat = e / 2 ^ 108 % 8 ∧ w.rows.toNat = e / 2 ^ 91 % 2 ^ 17
                ∧ ((t.ctx s.iss.x).regs.cur[i.toNat]'i.isLt).toNat = e / 2 ^ 74 % 2 ^ 17 ∧ w.len.toNat = e / 2 ^ 57 % 2 ^ 17)
          ∧ (let m := (t.ctx s.iss.x).macw
             let e := field 65632 8
             (m.run = true ↔ e / 2 ^ 63 = 1) ∧ m.op.toNat = e / 2 ^ 61 % 4 ∧ m.bank.toNat = e / 2 ^ 55 % 64 ∧ m.row.toNat = e / 2 ^ 44 % 2 ^ 11
               ∧ m.step.toNat = e % 2 ^ 32))

/-- CTXSV, CTXLD, TLBI, MOWN and MGIVE. -/
def Obligations.SystemOperations : Prop := ContextAndTlbOperations ∧ ArrayOwnership

/-! ### V-slot operations (07 R135-R155) -/

/-- The instruction puts one vector result in flight: lane n of vd becomes `f n` where the mask is one, `lat` cc later. -/
def LaneResult (i : Instr) (s : State) (lat : Nat) (vd : VReg) (m : Mask) (f : Nat → BitVec 32) : Prop :=
  ∃ d : VWord, Posts i s lat (.v vd m d) ∧ ∀ n, n < 64 → lane d n = f n

/-- An integer held to 32 signed or unsigned bits. -/
def clamp32 (sat : Sat) (signed unsigned : Int) : BitVec 32 :=
  match sat with
  | .wrap => BitVec.ofInt 32 signed
  | .ss => if signed < -2 ^ 31 then BitVec.ofInt 32 (-2 ^ 31) else if 2 ^ 31 ≤ signed then BitVec.ofInt 32 (2 ^ 31 - 1) else BitVec.ofInt 32 signed
  | .us => if unsigned < 0 then 0 else if 2 ^ 32 ≤ unsigned then BitVec.allOnes 32 else BitVec.ofInt 32 unsigned

/-- R139, R138: the integer lane operations of two operands, the second a register or a sign-extended immediate, and VABS:
their lanes under the write mask, readable 2 cc later. -/
def VectorIntegerResults : Prop :=
  ∀ (s : State) (vd v1 : VReg) (src : VSrc) (km : KReg) (sat : Sat),
    let a (n : Nat) := lane (s.cur.readV v1) n
    let b (n : Nat) := match src with
      | .reg v => lane (s.cur.readV v) n
      | .imm k => k.signExtend 32
    let m := s.cur.readK km
    LaneResult (.vadd vd v1 src km sat) s 2 vd m (fun n => clamp32 sat ((a n).toInt + (b n).toInt) ((a n).toNat + (b n).toNat))
    ∧ LaneResult (.vsub vd v1 src km sat) s 2 vd m (fun n => clamp32 sat ((a n).toInt - (b n).toInt) ((a n).toNat - (b n).toNat))
    ∧ LaneResult (.vmul vd v1 src km sat) s 2 vd m (fun n => a n * b n)
    ∧ LaneResult (.vmulh vd v1 src km sat) s 2 vd m (fun n => ((a n).signExtend 64 * (b n).signExtend 64).extractLsb' 32 32)
    ∧ LaneResult (.vmin vd v1 src km sat) s 2 vd m (fun n => BitVec.ofInt 32 (min (a n).toInt (b n).toInt))
    ∧ LaneResult (.vmax vd v1 src km sat) s 2 vd m (fun n => BitVec.ofInt 32 (max (a n).toInt (b n).toInt))
    ∧ LaneResult (.vminn vd v1 src km sat) s 2 vd m (fun n => BitVec.ofNat 32 (min (a n).toNat (b n).toNat))
    ∧ LaneResult (.vmaxn vd v1 src km sat) s 2 vd m (fun n => BitVec.ofNat 32 (max (a n).toNat (b n).toNat))
    ∧ LaneResult (.vand vd v1 src km sat) s 2 vd m (fun n => a n &&& b n) ∧ LaneResult (.vor vd v1 src km sat) s 2 vd m (fun n => a n ||| b n)
    ∧ LaneResult (.vxor vd v1 src km sat) s 2 vd m (fun n => a n ^^^ b n) ∧ LaneResult (.vandn vd v1 src km sat) s 2 vd m (fun n => a n &&& ~~~(b n))
    ∧ LaneResult (.vshl vd v1 src km sat) s 2 vd m (fun n => a n <<< ((b n).toNat % 32))
    ∧ LaneResult (.vshr vd v1 src km sat) s 2 vd m (fun n => a n >>> ((b n).toNat % 32))
    ∧ LaneResult (.vsha vd v1 src km sat) s 2 vd m (fun n => (a n).sshiftRight ((b n).toNat % 32))
    ∧ (sat ≠ .us → LaneResult (.vabs vd v1 km sat) s 2 vd m (fun n => clamp32 sat ((a n).toInt.natAbs : Nat) 0))

/-- R139, R142, R155, R140: VSEL writes every lane, choosing by the mask; VCMP writes all 64 bits of kd, zero where the mask
is zero; the mask operations. -/
def SelectCompareMaskResults : Prop :=
  ∀ (s : State) (vd v1 v2 : VReg) (src : VSrc) (kd km k2 : KReg) (c : Cond) (gd gs : GReg),
    let m := s.cur.readK km
    let m2 := s.cur.readK k2
    LaneResult (.vsel vd v1 v2 km) s 2 vd (BitVec.allOnes 64)
      (fun n => if m.getLsbD n then lane (s.cur.readV v1) n else lane (s.cur.readV v2) n)
    ∧ (∃ r : Mask, Posts (.vcmp kd v1 src km c) s 2 (.k kd r) ∧ ∀ n, n < 64 → (r.getLsbD n = true ↔
        m.getLsbD n = true ∧ condSays c ((lane (s.cur.readV v1) n).signExtend 64) ((s.cur.srcLane src n).signExtend 64)))
    ∧ Posts (.kand kd km k2) s 1 (.k kd (m &&& m2)) ∧ Posts (.kor kd km k2) s 1 (.k kd (m ||| m2))
    ∧ Posts (.kxor kd km k2) s 1 (.k kd (m ^^^ m2)) ∧ Posts (.knot kd km) s 1 (.k kd (~~~m))
    ∧ Posts (.kmov (.kk kd km)) s 1 (.k kd m) ∧ Posts (.kmov (.kg kd gs)) s 1 (.k kd (s.gval gs)) ∧ Posts (.kmov (.gk gd km)) s 1 (.g gd m)
    ∧ Posts (.kpop gd km) s 2 (.g gd (BitVec.ofNat 64 ((List.range 64).countP m.getLsbD)))

/-- Integer lanes, compares, selects and masks. -/
def Obligations.VectorIntegerAndMaskResults : Prop := VectorIntegerResults ∧ SelectCompareMaskResults

/-- R144, R141, R142: the binary32 operations round the exact result once and give the canonical NaN; VFABS and VFNEG are bit
operations; VFCMP's conditions, all but .ne and .un false on a NaN. -/
def Obligations.VectorFloatResults : Prop :=
  ∀ (s : State) (vd v1 v2 v3 : VReg) (kd km : KReg) (c : FCond),
    let a (n : Nat) := lane (s.cur.readV v1) n
    let b (n : Nat) := lane (s.cur.readV v2) n
    let d (n : Nat) := lane (s.cur.readV v3) n
    let m := s.cur.readK km
    let nan (n : Nat) := (f32 (a n)).isNaN || (f32 (b n)).isNaN
    LaneResult (.vfadd vd v1 v2 km) s 4 vd m (fun n => toF32 ((f32 (a n)).add (f32 (b n))))
    ∧ LaneResult (.vfsub vd v1 v2 km) s 4 vd m (fun n => toF32 ((f32 (a n)).add (f32 (b n)).neg))
    ∧ LaneResult (.vfmul vd v1 v2 km) s 4 vd m (fun n => toF32 ((f32 (a n)).mul (f32 (b n))))
    ∧ LaneResult (.vfma vd v1 v2 v3 km) s 4 vd m (fun n => toF32 (((f32 (a n)).mul (f32 (b n))).add (f32 (d n))))
    ∧ LaneResult (.vfms vd v1 v2 v3 km) s 4 vd m (fun n => toF32 (((f32 (a n)).mul (f32 (b n))).add (f32 (d n)).neg))
    ∧ (∃ f, LaneResult (.vfmin vd v1 v2 km) s 4 vd m f ∧ ∀ n, (nan n = true → f n = 0x7FC00000)
        ∧ (nan n = false → (f n = a n ∨ f n = b n) ∧ (f32 (a n)).lt (f32 (f n)) = false ∧ (f32 (b n)).lt (f32 (f n)) = false))
    ∧ (∃ f, LaneResult (.vfmax vd v1 v2 km) s 4 vd m f ∧ ∀ n, (nan n = true → f n = 0x7FC00000)
        ∧ (nan n = false → (f n = a n ∨ f n = b n) ∧ (f32 (f n)).lt (f32 (a n)) = false ∧ (f32 (f n)).lt (f32 (b n)) = false))
    ∧ LaneResult (.vfabs vd v1 km) s 4 vd m (fun n => BitVec.ofNat 32 ((a n).toNat % 2 ^ 31))
    ∧ LaneResult (.vfneg vd v1 km) s 4 vd m (fun n => a n + 0x80000000)
    ∧ (∃ r : Mask, Posts (.vfcmp kd v1 v2 km c) s 4 (.k kd r) ∧ ∀ n, n < 64 → (m.getLsbD n = false → r.getLsbD n = false)
        ∧ (m.getLsbD n = true → r.getLsbD n = match c with
            | .eq => (f32 (a n)).eqv (f32 (b n))
            | .ne => !(f32 (a n)).eqv (f32 (b n))
            | .lt => (f32 (a n)).lt (f32 (b n))
            | .ge => !nan n && !(f32 (a n)).lt (f32 (b n))
            | .le => !nan n && !(f32 (b n)).lt (f32 (a n))
            | .gt => (f32 (b n)).lt (f32 (a n))
            | .un => nan n
            | .ord => !nan n))

/-- The number that a finite value stands for. -/
def Sys2Proof.XVal.rat : XVal → ℚ
  | .fin s m e => (if s then -1 else 1) * m * (2 : ℚ) ^ e
  | .inf _ | .nan _ => 0
/-- A real number rounds to a binary32 code (04 R76, NE): the infinity of its sign from half a unit above the largest number,
else the nearest number, of two the even one, with its sign. -/
def RoundsTo (v : ℝ) (y : BitVec 32) : Prop :=
  (v < 0 → y.msb = true) ∧ (0 < v → y.msb = false)
    ∧ (2 ^ 128 - 2 ^ 103 ≤ |v| → y.toNat % 2 ^ 31 = 0x7F800000)
    ∧ (|v| < 2 ^ 128 - 2 ^ 103 → y.toNat % 2 ^ 31 < 0x7F800000
        ∧ ∀ z : BitVec 32, z.toNat % 2 ^ 31 < 0x7F800000 → |v - (f32 y).rat| ≤ |v - (f32 z).rat|
          ∧ ((f32 z).rat ≠ (f32 y).rat → |v - (f32 y).rat| = |v - (f32 z).rat| → y.toNat % 2 = 0))

/-- R145: VEXP2, VLOG2, VRCP and VRSQ write a function of the input lane alone, the same in every state, with the stated values
at NaN, the infinities, the zeros and negative numbers, and +infinity for 2^a from a = 128. At every other number VRCP and
VRSQ give the exact value rounded once, so the reciprocal of a small subnormal is the infinity of its sign; 2^n of an integer
and log2 of a power of two come out exact; and any other 2^a and log2 a is the rounding of a number within 2^-200 of the
exact one in proportion, within 2^-150 of it (that this is the rounding of the exact number is log 8's). -/
def VectorFunctionResults : Prop :=
  ∃ e l r q : BitVec 32 → BitVec 32,
    (∀ (s : State) (vd v1 : VReg) (km : KReg),
      let a (n : Nat) := lane (s.cur.readV v1) n
      let m := s.cur.readK km
      LaneResult (.vexp2 vd v1 km) s 8 vd m (fun n => e (a n)) ∧ LaneResult (.vlog2 vd v1 km) s 8 vd m (fun n => l (a n))
      ∧ LaneResult (.vrcp vd v1 km) s 8 vd m (fun n => r (a n)) ∧ LaneResult (.vrsq vd v1 km) s 8 vd m (fun n => q (a n)))
    ∧ (∀ x, (f32 x).isNaN = true → e x = 0x7FC00000 ∧ l x = 0x7FC00000 ∧ r x = 0x7FC00000 ∧ q x = 0x7FC00000)
    ∧ (e 0x7F800000 = 0x7F800000 ∧ l 0x7F800000 = 0x7F800000 ∧ r 0x7F800000 = 0 ∧ q 0x7F800000 = 0)
    ∧ (e 0xFF800000 = 0 ∧ l 0xFF800000 = 0x7FC00000 ∧ r 0xFF800000 = 0x80000000 ∧ q 0xFF800000 = 0x7FC00000)
    ∧ (e 0 = 0x3F800000 ∧ l 0 = 0xFF800000 ∧ r 0 = 0x7F800000 ∧ q 0 = 0x7F800000)
    ∧ (e 0x80000000 = 0x3F800000 ∧ l 0x80000000 = 0xFF800000 ∧ r 0x80000000 = 0xFF800000 ∧ q 0x80000000 = 0xFF800000)
    ∧ (∀ n : Int, -149 ≤ n → n ≤ 127 → e (toF32 (.ofInt n)) = toF32 (.fin false 1 n) ∧ l (toF32 (.fin false 1 n)) = toF32 (.ofInt n))
    ∧ (∀ x sg m k, f32 x = .fin sg m k → m ≠ 0 →
        let v : ℝ := (XVal.fin sg m k).rat
        RoundsTo (1 / v) (r x)
        ∧ (sg = true → l x = 0x7FC00000 ∧ q x = 0x7FC00000)
        ∧ (sg = false → RoundsTo (1 / Real.sqrt v) (q x) ∧ ∃ t : ℝ, |t - Real.logb 2 v| ≤ 1 / 2 ^ 150 ∧ RoundsTo t (l x))
        ∧ (∃ t : ℝ, |t - (2 : ℝ) ^ v| ≤ (2 : ℝ) ^ v / 2 ^ 200 ∧ RoundsTo t (e x))
        ∧ (128 ≤ v → e x = 0x7F800000))

/-- R147, R146: VCVT and VCVTS decode the low bits of each lane, scale by the shift, round once into the target format, and
write the code zero-extended. A conversion of a format to itself with no shift returns the code. -/
def ConversionResults : Prop :=
  ∀ (s : State) (vd v1 v2 : VReg) (km : KReg) (src tgt : CvtFmt),
    let f := s.cur.cvtFmt src
    let g := s.cur.cvtFmt tgt
    let a (n : Nat) := lane (s.cur.readV v1) n
    let sh (n : Nat) : Int := ((lane (s.cur.readV v2) n).extractLsb' 0 8).toInt
    let one (x : BitVec 32) (k : Int) : BitVec 32 :=
      if f = g ∧ k = 0 ∧ (f.decode x.toNat).isNaN = false then BitVec.ofNat 32 (x.toNat % 2 ^ f.width)
      else BitVec.ofNat 32 (roundTo ((f.decode x.toNat).scale k) g .ne)
    LaneResult (.vcvt vd v1 km src tgt) s 3 vd (s.cur.readK km) (fun n => one (a n) 0)
    ∧ LaneResult (.vcvts vd v1 v2 km src tgt) s 3 vd (s.cur.readK km) (fun n => one (a n) (sh n))

/-- Function units and conversions. -/
def Obligations.FunctionAndConversionResults : Prop := VectorFunctionResults ∧ ConversionResults

/-- R149, R151, R153: bit fields bit by bit, permutes, slides, broadcasts and moves; VBFI and VINS count as reads of vd before they
write it. -/
def PermuteAndBitFieldResults : Prop :=
  ∀ (s : State) (vd v1 v2 : VReg) (pos : BitPos) (len : BitVec 6) (amt : FunAmt) (km : KReg) (gs gd : GReg) (n6 ln : BitVec 6) (imm : BitVec 32),
    let a (n : Nat) := lane (s.cur.readV v1) n
    let b (n : Nat) := lane (s.cur.readV v2) n
    let m := s.cur.readK km
    let P (n : Nat) : Nat := match pos with
      | .reg v => (lane (s.cur.readV v) n).toNat % 32
      | .imm k => k.toNat
    let A (n : Nat) : Nat := match amt with
      | .reg v => (lane (s.cur.readV v) n).toNat % 64
      | .imm k => k.toNat
    let L := len.toNat
    (1 ≤ L → L ≤ 32 → (∃ f, LaneResult (.vbfx vd v1 pos len 0 km) s 2 vd m f ∧ ∀ n i, i < 32 →
        (f n).getLsbD i = (decide (i < L) && (a n).getLsbD (P n + i)))
      ∧ (∃ f, LaneResult (.vbfx vd v1 pos len 1 km) s 2 vd m f ∧ ∀ n i, i < 32 →
        (f n).getLsbD i = (a n).getLsbD (P n + min i (L - 1)))
      ∧ (∃ f, LaneResult (.vbfi vd v1 pos len km) s 2 vd m f ∧ ∀ n i, i < 32 →
        (f n).getLsbD i = if P n ≤ i ∧ i < P n + L then (a n).getLsbD (i - P n) else (lane (s.cur.readV vd) n).getLsbD i))
    ∧ LaneResult (.vfsh vd v1 v2 amt km) s 2 vd m (fun n => BitVec.ofNat 32 (((b n).toNat * 2 ^ 32 + (a n).toNat) / 2 ^ A n))
    ∧ LaneResult (.vpopc vd v1 km) s 2 vd m (fun n => BitVec.ofNat 32 ((List.range 32).countP (a n).getLsbD))
    ∧ (∃ f : Nat → Nat, LaneResult (.vclz vd v1 km) s 2 vd m (fun n => BitVec.ofNat 32 (f n)) ∧ ∀ n, f n ≤ 32
        ∧ (∀ i, 32 - f n ≤ i → i < 32 → (a n).getLsbD i = false) ∧ (f n < 32 → (a n).getLsbD (31 - f n) = true))
    ∧ LaneResult (.vperm vd v1 v2 km) s 3 vd m (fun n => a ((b n).toNat % 64))
    ∧ LaneResult (.vbcast vd (.g gs) km) s 3 vd m (fun _ => (s.gval gs).extractLsb' 0 32)
    ∧ LaneResult (.vbcast vd (.lane v1 ln) km) s 3 vd m (fun _ => a ln.toNat)
    ∧ LaneResult (.vslide vd v1 v2 n6 km) s 3 vd m (fun n => if n + n6.toNat < 64 then a (n + n6.toNat) else b (n + n6.toNat - 64))
    ∧ LaneResult (.vmov vd v1 km) s 2 vd m a ∧ LaneResult (.vmovi vd imm km) s 2 vd m (fun _ => imm)
    ∧ LaneResult (.vins vd gs ln) s 2 vd (BitVec.allOnes 64)
        (fun n => if n = ln.toNat then (s.gval gs).extractLsb' 0 32 else lane (s.cur.readV vd) n)
    ∧ HazardLoc.v vd ∈ Instr.readLocs (.vbfi vd v1 pos len km) ∧ HazardLoc.v vd ∈ Instr.readLocs (.vins vd gs ln)
    ∧ Posts (.vext gd v1 ln 0) s 2 (.g gd ((a ln.toNat).zeroExtend 64)) ∧ Posts (.vext gd v1 ln 1) s 2 (.g gd ((a ln.toNat).signExtend 64))

/-- R151: VCOMP packs the lanes that the mask selects, VEXPD spreads them; both write every lane. -/
def CompressExpandResults : Prop :=
  ∀ (s : State) (vd v1 : VReg) (km : KReg),
    let a (n : Nat) := lane (s.cur.readV v1) n
    let m := s.cur.readK km
    let below (n : Nat) := (List.range n).countP m.getLsbD
    (∃ f, LaneResult (.vcomp vd v1 km) s 3 vd (BitVec.allOnes 64) f ∧ (∀ j, j < 64 → m.getLsbD j = true → f (below j) = a j)
      ∧ ∀ n, below 64 ≤ n → f n = 0)
    ∧ LaneResult (.vexpd vd v1 km) s 3 vd (BitVec.allOnes 64) (fun n => if m.getLsbD n then a (below n) else 0)

/-- Permutes, moves, bit fields, compress and expand. -/
def Obligations.PermutationResults : Prop := PermuteAndBitFieldResults ∧ CompressExpandResults

/-- R154, R83: the reductions over the lanes of the mask: the exact signed sum, the extremes sign-extended, and the binary32
operations rounded at each node of the pairwise tree, the identity standing in for a masked lane. -/
def ReductionResults : Prop :=
  ∀ (s : State) (gd : GReg) (v1 : VReg) (km : KReg),
    let a (n : Nat) := lane (s.cur.readV v1) n
    let m := s.cur.readK km
    let on (n : Nat) (u : BitVec 32) : BitVec 32 := if m.getLsbD n then a n else u
    Posts (.vradd gd v1 km) s 6 (.g gd (BitVec.ofInt 64 (((List.range 64).map fun n => (on n 0).toInt).sum)))
    ∧ (∃ x : Int, Posts (.vrmax gd v1 km) s 6 (.g gd (BitVec.ofInt 64 x)) ∧ (∀ n, n < 64 → (on n 0x80000000).toInt ≤ x)
        ∧ ∃ n, n < 64 ∧ x = (on n 0x80000000).toInt)
    ∧ (∃ x : Int, Posts (.vrmin gd v1 km) s 6 (.g gd (BitVec.ofInt 64 x)) ∧ (∀ n, n < 64 → x ≤ (on n 0x7FFFFFFF).toInt)
        ∧ ∃ n, n < 64 ∧ x = (on n 0x7FFFFFFF).toInt)
    ∧ (∃ t : Nat → Nat → BitVec 32, Posts (.vrfadd gd v1 km) s 12 (.g gd ((t 6 0).zeroExtend 64)) ∧ (∀ n, n < 64 → t 0 n = on n 0x80000000)
        ∧ ∀ l n, l < 6 → t (l + 1) n = toF32 ((f32 (t l (2 * n))).add (f32 (t l (2 * n + 1)))))
    ∧ (∃ t : Nat → Nat → BitVec 32, Posts (.vrfmax gd v1 km) s 12 (.g gd ((t 6 0).zeroExtend 64)) ∧ (∀ n, n < 64 → t 0 n = on n 0xFF800000)
        ∧ ∀ l n, l < 6 → t (l + 1) n = f32Max (t l (2 * n)) (t l (2 * n + 1)))

/-- R152: a VLUT whose table rows no one else claims: each active lane receives the little-endian 32-bit entry of its index
as the scratchpad holds it, no lower slot having won one of the banks. -/
def LookupResults : Prop :=
  ∀ (s : State) (vd v1 : VReg) (bank : BitVec 6) (row0 : BitVec 11) (sz : BitVec 4) (km : KReg),
    (∀ r, row0.toNat ≤ r → r < row0.toNat + 2 ^ (sz.toNat - 6) → s.rowBarred s.iss.x r = false) → s.iss.ports = [] →
    ∃ d t, exec (.vlut vd v1 bank row0 sz km) s = .next t ∧ Untroubled s t
      ∧ (∃ i, t = { s.post 6 (.v vd (s.cur.readK km) d) with iss := i })
      ∧ ∀ n, n < 64 →
        let e := (lane (s.cur.readV v1) n).toNat % 2 ^ sz.toNat
        let at_ (k : Nat) := linPos (bank.toNat + e % 64 / 16) (row0.toNat + e / 64) (e % 16 * 4 + k)
        let sp := (s.core s.iss.x.core).sp
        (lane d n).toNat = (cellsRead sp (at_ 0)).toNat + 256 * (cellsRead sp (at_ 1)).toNat + 65536 * (cellsRead sp (at_ 2)).toNat
          + 16777216 * (cellsRead sp (at_ 3)).toNat

/-- Reductions and the lookup table. -/
def Obligations.ReductionAndLookupResults : Prop := ReductionResults ∧ LookupResults

/-! ### Stochastic streams (13 R262-R273) -/

/-- SLEN in bits. -/
def Sys2Proof.Machine.State.slenNow (s : State) : Nat := if s.cur.regs.slen = 0 then 64 else if s.cur.regs.slen = 1 then 256 else 1024
/-- The unit is free, and every operand has the current length. -/
def StreamReady (s : State) (ops : List SReg) : Prop :=
  (s.core s.iss.x.core).ocarina ≤ s.dc ∧ ∀ r ∈ ops, (s.cur.readS r).len = s.cur.regs.slen
/-- The unit taken for the dc that the operation occupies it. -/
def Sys2Proof.Machine.State.unitTaken (s : State) : State :=
  s.modCore s.iss.x.core fun c => { c with ocarina := s.dc + (s.slenNow + 255) / 256 }
/-- A stream result in flight: bit b of lane j is `f j b` below the length and zero above, with the class and the length code;
the unit is taken, and nothing else changes. -/
def StreamResult (i : Instr) (s : State) (sd : SReg) (cls : BitVec 8) (f : Nat → Nat → Bool) : Prop :=
  ∃ d : SWord, exec i s = .next (s.unitTaken.post ((s.slenNow + 255) / 256 + 2) (.s sd ⟨d, cls, s.cur.regs.slen⟩))
    ∧ ∀ j b, j < 64 → b < 1024 → (streamLane d j).getLsbD b = (decide (b < s.slenNow) && f j b)
/-- Bit b of lane j of a stream register. -/
def Sys2Proof.Machine.State.sbit (s : State) (r : SReg) (j b : Nat) : Bool := (streamLane (s.cur.readS r).data j).getLsbD b
/-- The ones of a lane below the length. -/
def Sys2Proof.Machine.State.sones (s : State) (r : SReg) (j : Nat) : Nat := (List.range s.slenNow).countP (s.sbit r j)

/-- R270, R265, R266, R273: the gates of two streams of the current length whose classes relate as required, with the unit
free. -/
def StreamGateResults : Prop :=
  ∀ (s : State) (sd sa sb sl : SReg),
    let a := s.cur.readS sa
    let b := s.cur.readS sb
    let l := s.cur.readS sl
    (StreamReady s [sa, sb] → a.cls ≠ b.cls →
      StreamResult (.sand sd sa sb) s sd a.cls (fun j n => s.sbit sa j n && s.sbit sb j n)
      ∧ StreamResult (.sor sd sa sb) s sd a.cls (fun j n => s.sbit sa j n || s.sbit sb j n)
      ∧ StreamResult (.sxnor sd sa sb) s sd a.cls (fun j n => s.sbit sa j n == s.sbit sb j n))
    ∧ (StreamReady s [sa, sb] → a.cls = b.cls →
      StreamResult (.smin sd sa sb) s sd a.cls (fun j n => s.sbit sa j n && s.sbit sb j n)
      ∧ StreamResult (.smax sd sa sb) s sd a.cls (fun j n => s.sbit sa j n || s.sbit sb j n))
    ∧ (StreamReady s [sa, sb, sl] → l.cls ≠ a.cls → l.cls ≠ b.cls →
      StreamResult (.smux sd sa sb sl) s sd a.cls (fun j n => if s.sbit sl j n then s.sbit sb j n else s.sbit sa j n))

/-- R266, R267, R321: with the unit free, an operand of another length raises the stream-length fault with its number (of
several the first, log 125), and operands of the right length whose classes break the rule raise the correlation fault with
the classes; the register stays. -/
def StreamFaults : Prop :=
  ∀ (s : State) (sd sa sb sl : SReg), (s.core s.iss.x.core).ocarina ≤ s.dc →
    let a := s.cur.readS sa
    let b := s.cur.readS sb
    let l := s.cur.readS sl
    let clash (x y : SVal) : Word := BitVec.ofNat 64 (x.cls.toNat * 2 ^ 8 + y.cls.toNat)
    (a.len ≠ s.cur.regs.slen → ∀ i ∈ [Instr.sand sd sa sb, .sor sd sa sb, .sxnor sd sa sb, .smin sd sa sb, .smax sd sa sb,
        .smux sd sa sb sl], Raises i s 0x0011 (sa.zeroExtend 64))
    ∧ (a.len ≠ s.cur.regs.slen → ∀ (vd : VReg) (mode : ScntMode) (km : KReg) (gen : BitVec 4) (n : BitVec 10),
        ∀ i ∈ [Instr.scnt vd sa mode km, .sregen sd sa gen, .sdly sd sa n], Raises i s 0x0011 (sa.zeroExtend 64))
    ∧ (a.len = s.cur.regs.slen → b.len ≠ s.cur.regs.slen → ∀ i ∈ [Instr.sand sd sa sb, .sor sd sa sb, .sxnor sd sa sb, .smin sd sa sb,
        .smax sd sa sb, .smux sd sa sb sl], Raises i s 0x0011 (sb.zeroExtend 64))
    ∧ (StreamReady s [sa, sb] → l.len ≠ s.cur.regs.slen → Raises (.smux sd sa sb sl) s 0x0011 (sl.zeroExtend 64))
    ∧ (StreamReady s [sa, sb] → a.cls = b.cls → ∀ i ∈ [Instr.sand sd sa sb, .sor sd sa sb, .sxnor sd sa sb], Raises i s 0x0010 (clash a b))
    ∧ (StreamReady s [sa, sb] → a.cls ≠ b.cls → ∀ i ∈ [Instr.smin sd sa sb, .smax sd sa sb], Raises i s 0x0010 (clash a b))
    ∧ (StreamReady s [sa, sb, sl] → (l.cls = a.cls ∨ l.cls = b.cls) → Raises (.smux sd sa sb sl) s 0x0010 (clash a l))

/-- R273: while the unit is occupied every stream operation freezes its context before its bundle issues, whatever its
operands, and does nothing else. -/
def StreamBusy : Prop :=
  ∀ (s : State) (sd sa sb sl : SReg) (vs vd : VReg) (gen : BitVec 4) (gs gd : GReg) (km : KReg) (bp kind : BitVec 1) (n : BitVec 10)
    (mode : ScntMode), s.dc < (s.core s.iss.x.core).ocarina → s.iss.block = none →
    ∀ i ∈ [Instr.sseed gen gs kind, .sgen sd vs gen bp, .sand sd sa sb, .sor sd sa sb, .smin sd sa sb, .smax sd sa sb, .sxnor sd sa sb,
        .smux sd sa sb sl, .scnt vd sa mode km, .sregen sd sa gen, .sdly sd sa n, .scls gd sa],
      exec i s = .next { s with iss := { s.iss with block := some (s.iss.slot, 0) } }

/-- Stream gates, and what keeps stream operations from their unit or raises a cause. -/
def Obligations.StreamLogic : Prop := StreamGateResults ∧ StreamFaults ∧ StreamBusy

/-- R263: the comparison numbers of a generator for a length of 2^w bits, and their scale. -/
def GenNumbers (k : GenK) (w : Nat) (r : Nat → Nat) (scale : Nat) : Prop :=
  if k.lfsr then
    scale = 65536 ∧ ∃ x : Nat → BitVec 16, x 0 = k.lfs ∧ (∀ i, r i = (x (i + 1)).toNat)
      ∧ ∀ i, x (i + 1) = (x i <<< 1) + (if ((x i).getLsbD 15 ^^ (x i).getLsbD 13 ^^ (x i).getLsbD 12 ^^ (x i).getLsbD 10) then 1 else 0)
  else scale = 2 ^ w ∧ ∀ i, i < 2 ^ w → r i < 2 ^ w ∧ ∀ b, b < w → (r i).testBit b = (i.testBit (w - 1 - b) ^^ k.key.getLsbD b)

/-- R263, R265, R269, R272: SGEN's bit i of lane j is one exactly when number i lies below the threshold, the largest
integer of at most the scale that the scaled value reaches, zero for a NaN; SREGEN's threshold is its count in
proportion. The class is the generator's. -/
def StreamGeneratorResults : Prop :=
  ∀ (s : State) (sd ss : SReg) (vs : VReg) (gen : BitVec 4) (bp : BitVec 1), s.cur.regs.slen ≠ 3 →
    let k := s.cur.readGen gen
    ∃ (w scale : Nat) (r : Nat → Nat), s.slenNow = 2 ^ w ∧ GenNumbers k w r scale
      ∧ (StreamReady s [] → ∃ T : Nat → Nat, StreamResult (.sgen sd vs gen bp) s sd (gen ++ k.sgc) (fun j b => decide (r b < T j))
          ∧ ∀ j, let x := f32 (lane (s.cur.readV vs) j)
            let d := if bp = 1 then (x.add (.ofInt 1)).scale (-1) else x
            (x.isNaN = true → T j = 0)
            ∧ (x.isNaN = false → ∀ t : Nat, 0 < t → (t ≤ T j ↔ t ≤ scale ∧ (d.mul (.ofInt scale)).lt (.ofInt t) = false)))
      ∧ (StreamReady s [ss] → StreamResult (.sregen sd ss gen) s sd (gen ++ k.sgc)
          (fun j b => decide (r b < s.sones ss j * scale / s.slenNow)))

/-- R264, R271, R272: SSEED's new generator, SCNT's counts, SDLY's rotation with its class, SCLS's tag. -/
def StreamOtherResults : Prop :=
  ∀ (s : State) (sd ss : SReg) (vd : VReg) (gen : BitVec 4) (gs gd : GReg) (km : KReg) (n : BitVec 10) (mode : ScntMode),
    let k := s.cur.readGen gen
    let v := s.gval gs
    let x := s.cur.readS ss
    (StreamReady s [] →
      Posts (.sseed gen gs 0) s 1 (.gen gen ⟨false, k.sgc + 1, k.lfs, v.extractLsb' 0 10⟩)
      ∧ Posts (.sseed gen gs 1) s 1 (.gen gen ⟨true, k.sgc + 1, if v.toNat % 2 ^ 16 = 0 then 1 else v.extractLsb' 0 16, k.key⟩)
      ∧ Posts (.scls gd ss) s 1 (.g gd (BitVec.ofNat 64 (x.len.toNat * 2 ^ 8 + x.cls.toNat))))
    ∧ (s.cur.regs.slen ≠ 3 → StreamReady s [ss] →
        StreamResult (.sdly sd ss n) s sd (x.cls ^^^ 8)
          (fun j b => s.sbit ss j ((b + s.slenNow - n.toNat % s.slenNow) % s.slenNow))
        ∧ ∃ d, exec (.scnt vd ss mode km) s = .next (s.unitTaken.post ((s.slenNow + 255) / 256 + 2) (.v vd (s.cur.readK km) d))
          ∧ ∀ j, j < 64 → lane d j = match mode with
            | .n => BitVec.ofNat 32 (s.sones ss j)
            | .u => toF32 ((XVal.ofInt (s.sones ss j)).scale (-(Nat.log2 s.slenNow : Int)))
            | .b => toF32 ((XVal.ofInt (2 * s.sones ss j - s.slenNow)).scale (-(Nat.log2 s.slenNow : Int))))

/-- Generators, counts, regeneration, delay and class. -/
def Obligations.StreamUnits : Prop := StreamGeneratorResults ∧ StreamOtherResults

/-! ### Loads, stores and atomics (09 R182-R198) -/

/-- The operations with one memory operand: what they access (address value, displacement, bytes, alignment). -/
def memOperands (gd gs g2 : GReg) (ad : AReg) (sz : BitVec 2) (az : BitVec 3) (sx : BitVec 1) (i35 : BitVec 35)
    (i22 : BitVec 22) (i30 : BitVec 30) (i23 : BitVec 23) (i32 : BitVec 32) (mon : BitVec 12) : List (Instr × Int × Nat × Nat × Want) :=
  let n := 2 ^ az.toNat
  let at_ (i : Instr) : Instr × Int × Nat × Nat × Want := (i, i23.toInt, n, n, ⟨true, true, false⟩)
  [(.ld gd ad sz sx i35, i35.toInt, 2 ^ sz.toNat, 1, ⟨false, true, false⟩), (.st gs ad sz i22, i22.toInt, 2 ^ sz.toNat, 1, ⟨true, true, false⟩)
  , (.stz ad i30, i30.toInt, 128, 128, ⟨true, true, false⟩), (.marm mon ad i32, i32.toInt, 1, 1, ⟨false, true, false⟩)]
  ++ [Instr.atadd gd ad gs az i23, .atand gd ad gs az i23, .ator gd ad gs az i23, .atxor gd ad gs az i23, .atmin gd ad gs az i23
     , .atmax gd ad gs az i23, .atminn gd ad gs az i23, .atmaxn gd ad gs az i23, .atswp gd ad gs az i23, .atcas gd ad gs g2 az i23
     , .atfadd gd ad gs az i23].map at_

/-- R182, R184: a memory operand of a tensor that does not exist, or any byte of which lies outside it, raises the bound
fault; one that is misaligned for a STZ or an atomic raises the alignment fault with its address. Nothing else happens. -/
def MemoryOperandFaults : Prop :=
  ∀ (s : State) (gd gs g2 : GReg) (ad : AReg) (sz : BitVec 2) (az : BitVec 3) (sx : BitVec 1) (i35 : BitVec 35) (i22 : BitVec 22)
    (i30 : BitVec 30) (i23 : BitVec 23) (i32 : BitVec 32) (mon : BitVec 12),
    ∀ p ∈ memOperands gd gs g2 ad sz az sx i35 i22 i30 i23 i32 mon,
      let off : Int := (addrOff (s.cur.readA ad)).toNat + p.2.1
      (s.extent? s.iss.x (addrId (s.cur.readA ad)) = none → Raises p.1 s 0x0003 (BitVec.ofInt 64 off))
      ∧ ∀ e, s.extent? s.iss.x (addrId (s.cur.readA ad)) = some e →
        ((off < 0 ∨ (e.size : Int) < off + p.2.2.1) → Raises p.1 s 0x0003 (BitVec.ofInt 64 (e.base + off)))
        ∧ (0 ≤ off → off + p.2.2.1 ≤ e.size → (e.base + off.toNat) % p.2.2.2.1 ≠ 0 →
            Raises p.1 s 0x0004 (BitVec.ofNat 64 (e.base + off.toNat)))

/-- The bytes of a load that the L1 of the core answers: no line of the store buffer, nothing owed to them, every line in the
L1 and not poisoned, none of a non-coherent page. -/
def HitsL1 (s : State) (pas : List Nat) : Prop :=
  s.cur.sb = [] ∧ ∀ pa ∈ pas, s.owes s.iss.x pa 1 = false
    ∧ ∃ l, (s.core s.iss.x.core).l1Find (pa / 128) = some l ∧ l.st ≠ .nc ∧ l.poison = false
/-- The byte of the L1 at a physical address. -/
def Sys2Proof.Machine.State.l1Byte (s : State) (pa : Nat) : Byte :=
  (((s.core s.iss.x.core).l1Find (pa / 128)).map fun l => l.data.extractLsb' (8 * (pa % 128)) 8).getD 0

/-- R186, R187, R190: an LD whose operand passes its checks (leaving the translation state `u`) and whose bytes the L1 holds:
its result, little-endian and extended, is readable 14 cc later; no register, no memory and no other field of the machine
changes with the issue. -/
def LoadHitsL1 : Prop :=
  ∀ (s u : State) (gd : GReg) (ad : AReg) (sz : BitVec 2) (sx : BitVec 1) (imm : BitVec 35) (va : Nat) (ps : Pages),
    let n := 2 ^ sz.toNat
    s.operand (s.cur.readA ad) imm.toInt n 1 ⟨false, true, false⟩ = (u, some (va, ps)) → u.cur.nl < 48 →
    HitsL1 u ((List.range n).map fun i => pagePa ps (va + i)) →
    ∃ bs, exec (.ld gd ad sz sx imm) s = .next (u.postLoad 14 (.loadG gd bs (sx == 1))) ∧ Untroubled u (u.postLoad 14 (.loadG gd bs (sx == 1)))
      ∧ bs.map (·.byte) = (List.range n).map (fun i => u.l1Byte (pagePa ps (va + i)))
      ∧ ∀ c : Ctx, gd ≠ 0 → ((c.land (.loadG gd bs (sx == 1))).readG gd).toNat =
          let v := bytesToNat ((List.range n).map fun i => u.l1Byte (pagePa ps (va + i)))
          if sx = 1 ∧ 2 ^ (8 * n - 1) ≤ v then 2 ^ 64 - 2 ^ (8 * n) + v else v

/-- R190: an LD whose bytes lie in one line that the segment store buffer holds, no own write owed to them. The open line answers it
where it holds them all. Where it holds a part of them and nothing of the line is committed, the L1 gives the rest. Where it
holds none of them, the newest committed line that holds any answers where it holds them all. In every other case the context
freezes before its bundle issues. -/
def LoadForwarded : Prop :=
  ∀ (s u : State) (gd : GReg) (ad : AReg) (sz : BitVec 2) (sx : BitVec 1) (imm : BitVec 35) (va line : Nat) (ps : Pages) (k : SbLine)
    (older newer : List SbLine),
    let n := 2 ^ sz.toNat
    let pas := (List.range n).map fun i => pagePa ps (va + i)
    let holds (l : SbLine) (pa : Nat) : Prop := unitBits l.mask (pa % 128) = 3
    let lacks (l : SbLine) (pa : Nat) : Prop := unitBits l.mask (pa % 128) = 0
    let here := u.cur.sb.filter fun l => l.line == line
    let opens := here.filter fun l => !l.committed
    let comm := here.filter fun l => l.committed
    let answers (f : Nat → Byte) : Prop := ∃ bs : List PByte, exec (.ld gd ad sz sx imm) s = .next (u.postLoad 14 (.loadG gd bs (sx == 1)))
      ∧ bs.map (·.byte) = pas.map f
    let waits : Prop := exec (.ld gd ad sz sx imm) s = .next { u with iss := { u.iss with block := some (u.iss.slot, BitVec.ofNat 64 va) } }
    s.operand (s.cur.readA ad) imm.toInt n 1 ⟨false, true, false⟩ = (u, some (va, ps)) → u.cur.nl < 48 → u.iss.block = none →
    (∀ pa ∈ pas, pa / 128 = line ∧ u.owes u.iss.x pa 1 = false) →
    (opens = [k] → (∀ pa ∈ pas, holds k pa) → answers fun pa => lineByte k.data (pa % 128))
    ∧ (opens = [k] → (∃ pa ∈ pas, ¬ holds k pa) → (∃ pa ∈ pas, ¬ lacks k pa) →
        (comm = [] → (∃ l, (u.core u.iss.x.core).l1Find line = some l ∧ l.st ≠ .nc ∧ l.poison = false) →
          answers fun pa => let m := nibMask (unitBits k.mask (pa % 128))
            (u.l1Byte pa &&& ~~~m) ||| (lineByte k.data (pa % 128) &&& m))
        ∧ (comm ≠ [] → waits))
    ∧ ((opens = [] ∨ ∃ o, opens = [o] ∧ ∀ pa ∈ pas, lacks o pa) → comm = older ++ k :: newer →
        (∀ l ∈ newer, ∀ pa ∈ pas, lacks l pa) → (∃ pa ∈ pas, ¬ lacks k pa) →
        ((∀ pa ∈ pas, holds k pa) → answers fun pa => lineByte k.data (pa % 128)) ∧ ((∃ pa ∈ pas, ¬ holds k pa) → waits))

/-- R187: an LD some of whose lines the L1 does not hold: the lines are asked for, the load is in flight with the bytes that the
L1 holds and without the others, and the bundle notes the slot and the address for the freeze that follows it: its context is
frozen while a load of it waits for a line. -/
def LoadMissesL1 : Prop :=
  (∀ (s u : State) (gd : GReg) (ad : AReg) (sz : BitVec 2) (sx : BitVec 1) (imm : BitVec 35) (va : Nat) (ps : Pages),
    let n := 2 ^ sz.toNat
    let pas := (List.range n).map fun i => pagePa ps (va + i)
    let k := u.core u.iss.x.core
    s.operand (s.cur.readA ad) imm.toInt n 1 ⟨false, true, false⟩ = (u, some (va, ps)) → u.cur.nl < 48 → u.cur.sb = [] →
    (∀ pa ∈ pas, u.owes u.iss.x pa 1 = false ∧ ((k.l1Find (pa / 128) = none ∧ pa / 128 ∉ k.stale)
      ∨ ∃ l, k.l1Find (pa / 128) = some l ∧ l.st ≠ .nc ∧ l.poison = false)) →
    (∃ pa ∈ pas, k.l1Find (pa / 128) = none) →
    ∃ (bs : List PByte) (v : State), exec (.ld gd ad sz sx imm) s = .next (v.postLoad 14 (.loadG gd bs (sx == 1)))
      ∧ v.iss = { u.iss with late := u.iss.late <|> some (u.iss.slot, BitVec.ofNat 64 va) } ∧ v.mem = u.mem ∧ (∀ z, v.ctx z = u.ctx z)
      ∧ bs.map (·.pa) = pas ∧ (∀ b ∈ bs, b.val = if k.l1Find (b.pa / 128) = none then none else some (u.l1Byte b.pa))
      ∧ ∀ pa ∈ pas, k.l1Find (pa / 128) = none → pa / 128 ∈ (v.core u.iss.x.core).missing)
  ∧ ∀ (c : Ctx) (p : Slot × Word) (b : BAddr),
    (c.loadWaits (fun _ => true) = false → c.freezeFills b (some p) = c)
    ∧ (c.loadWaits (fun _ => true) = true → c.flow.replies = [] → c.freezeFills b (some p) =
        { c with flow := { c.flow with missed := some p, freeze := some ⟨.fills, p.1, p.2, b⟩ } })

/-- R186, R194 (R184, R193 for what precedes): a vector load whose lanes pass their checks and whose bytes can be read, and
a vector store whose lanes pass theirs, complete: the load puts its elements in flight; both leave the rest to the shared
operation that the elements go through. -/
def VectorMemoryCompletes : Prop :=
  ∀ (s u v : State) (vd vs vi : VReg) (ad : AReg) (km : KReg) (lt : LaneTy) (i34 : BitVec 34) (i18 : BitVec 18) (e : Extent) (f : FmtSlot)
    (es : List EltAt) (ps : Pages) (rs : List LoadElt),
    let a := s.cur.readA ad
    let o : Int := (addrOff a).toNat
    let m := s.cur.readK km
    let ix (w : VReg) (i : Nat) : BitVec 32 := lane (s.cur.readV w) i
    (s.vecOperand a (o + i34.toInt) true false (rowElts m (o + i34.toInt)) = (u, some (e, f, es, ps)) → u.cur.nl < 48 →
      u.loadElts e f es ps (BitVec.ofInt 64 (e.base + (o + i34.toInt))) = (v, some rs) →
      exec (.ldv vd ad km i34) s = .next (v.postLoad 14 (.loadV vd rs)))
    ∧ (s.vecOperand a o false false (gatherElts m (addrOff a).toNat (ix vi)) = (u, some (e, f, es, ps)) → u.cur.nl < 48 →
      u.loadElts e f es ps (BitVec.ofInt 64 (e.base + o)) = (v, some rs) →
      exec (.ldg vd ad vi km) s = .next (v.postLoad 14 (.loadV vd rs)))
    ∧ (s.vecOperand a (o + i18.toInt) true true (rowElts m (o + i18.toInt)) = (u, some (e, f, es, ps)) →
      exec (.stv vs ad km lt i18) s = .next (u.storeElts a e f es ps (BitVec.ofInt 64 (e.base + (o + i18.toInt))) lt (u.cur.readV vs)))
    ∧ (s.vecOperand a o false true (gatherElts m (addrOff a).toNat (ix vi)) = (u, some (e, f, es, ps)) →
      exec (.stg vs ad vi km lt) s = .next (u.storeElts a e f es ps (BitVec.ofInt 64 (e.base + o)) lt (u.cur.readV vs)))

/-- R186, R188, R81: the elements of a vector load whose bytes and shift bytes the L1 holds: each lane receives its element's
bits as its page's format delivers them, an integer format without a scale sign- or zero-extended, any other as the
binary32 of the value times its block's scale; the machine is unchanged. -/
def VectorLoadDelivers : Prop :=
  ∀ (u : State) (e : Extent) (f : FmtSlot) (es : List EltAt) (ps : Pages) (tval : Word),
    HitsL1 u (es.flatMap fun q => ((List.range q.n).map fun i => pagePa ps (q.va + i)) ++ q.plane.toList.map (pagePa ps)) →
    ∃ rs, u.loadElts e f es ps tval = (u, some rs) ∧ rs.map (·.lane) = es.map (·.lane)
      ∧ rs.map (·.value) = es.map fun q =>
          let stored := bytesToNat ((List.range q.n).map fun i => u.l1Byte (pagePa ps (q.va + i)))
          let bits := if f.width = 4 then (if q.hi then stored / 16 % 16 else stored % 16) else stored % 2 ^ f.width
          let shift : Int := match q.plane with
            | some v => (u.l1Byte (pagePa ps v)).toInt
            | none => 0
          if f.num.isInt = true ∧ f.geom = 0 then
            (if f.num.kind = .sint ∧ 2 ^ (f.width - 1) ≤ bits then BitVec.ofNat 32 (2 ^ 32 - 2 ^ f.width + bits) else BitVec.ofNat 32 bits)
          else toF32 ((f.num.decode bits).scale shift)

/-- Loads that hit the L1, that the store buffer answers and that miss, vector and gathered loads, and what they deliver. -/
def Obligations.LoadsFromMemory : Prop :=
  LoadHitsL1 ∧ LoadForwarded ∧ LoadMissesL1 ∧ VectorMemoryCompletes ∧ VectorLoadDelivers

/-- Bytes that a store puts at physical addresses, as far as the choice of their lines goes. -/
def putsAt (pas : List Nat) : List Put := pas.map fun pa => ⟨0, pa, 3, 0⟩
/-- The store buffer takes these bytes: no own write of an earlier segment owed to them, and lines for all of them. -/
def BufferTakes (s : State) (pas : List Nat) : Prop :=
  (∀ pa ∈ pas, s.storeOwes s.iss.x pa 1 = false)
    ∧ let new := ((pas.map (· / 128)).eraseDups.filter fun l => (s.joinLine s.iss.x l (putsAt pas)).isNone).length
      (s.cur.sb.filter fun l => !l.committed).length + new ≤ 64 ∧ s.cur.sb.length + new ≤ 64
/-- A change of the store buffer of the issuing context, and of nothing else but the model's counter of numbers. -/
def BufferOnly (s t : State) : Prop :=
  ∃ sb n, t = { s.modCur (fun c => { c with sb := sb }) with nextId := n }
/-- The open line of a physical byte holds it, in the units named. -/
def BufferHolds (t : State) (pa : Nat) (units : BitVec 2) (b : Byte) : Prop :=
  ∃ l, t.cur.openLine (pa / 128) = some l ∧ unitBits l.mask (pa % 128) &&& units = units
    ∧ lineByte l.data (pa % 128) &&& nibMask units = b &&& nibMask units

/-- R194, R189: an ST or an STZ whose operand passes its checks and whose bytes the buffer takes completes: its bytes stand
in open lines of the segment store buffer, lowest first; no other field of the machine changes, no byte of memory, no
register. -/
def StoreEntersBuffer : Prop :=
  ∀ (s u : State) (gs : GReg) (ad : AReg) (sz : BitVec 2) (i22 : BitVec 22) (i30 : BitVec 30) (va : Nat) (ps : Pages),
    let n := 2 ^ sz.toNat
    (s.operand (s.cur.readA ad) i22.toInt n 1 ⟨true, true, false⟩ = (u, some (va, ps)) →
      BufferTakes u ((List.range n).map fun i => pagePa ps (va + i)) →
      ∃ t, exec (.st gs ad sz i22) s = .next t ∧ BufferOnly u t ∧ Untroubled u t
        ∧ ∀ i, i < n → (∀ j, j < n → pagePa ps (va + j) = pagePa ps (va + i) → j = i) →
            BufferHolds t (pagePa ps (va + i)) 3 ((s.gval gs).extractLsb' (8 * i) 8))
    ∧ (s.operand (s.cur.readA ad) i30.toInt 128 128 ⟨true, true, false⟩ = (u, some (va, ps)) →
      BufferTakes u ((List.range 128).map fun i => pagePa ps (va + i)) →
      ∃ t, exec (.stz ad i30) s = .next t ∧ BufferOnly u t ∧ Untroubled u t
        ∧ ∀ i, i < 128 → BufferHolds t (pagePa ps (va + i)) 3 0)

/-- R193, R194, R189: the elements of a vector store without block shifts, whose bytes the buffer takes: each stands there as
the code that its lane rounds to, in the bytes or the half byte of the element, where no other element names the same
place; nothing else of the machine changes. -/
def VectorStoreEntersBuffer : Prop :=
  ∀ (u : State) (a : Word) (e : Extent) (f : FmtSlot) (es : List EltAt) (ps : Pages) (tval : Word) (lt : LaneTy) (v : VWord),
    (∀ q ∈ es, q.plane = none) → BufferTakes u (es.flatMap fun q => (List.range q.n).map fun i => pagePa ps (q.va + i)) →
    let t := u.storeElts a e f es ps tval lt v
    BufferOnly u t ∧ Untroubled u t
      ∧ ∀ q ∈ es, (∀ r ∈ es, ∀ i j, i < q.n → j < r.n → pagePa ps (q.va + i) = pagePa ps (r.va + j) → (r = q ∧ i = j) ∨ (f.width = 4 ∧ r.hi ≠ q.hi)) →
          let code := roundTo (match lt with
            | .f32 => f32 (lane v q.lane)
            | .i32 => XVal.ofInt (lane v q.lane).toInt
            | .u32 => .fin false (lane v q.lane).toNat 0) f.num .ne
          ∀ i, i < q.n → BufferHolds t (pagePa ps (q.va + i)) (if f.width = 4 then (if q.hi then 2 else 1) else 3)
            (BitVec.ofNat 8 ((if f.width = 4 then code * 17 else code) / 2 ^ (8 * i)))

/-- Stores into the segment store buffer. -/
def Obligations.StoresToMemory : Prop := StoreEntersBuffer ∧ VectorStoreEntersBuffer

/-- R189: a store whose bytes need a sixty-fifth open line raises the store-buffer overflow fault, nothing owed to them. -/
def StoreBufferOverflow : Prop :=
  ∀ (s u : State) (gs : GReg) (ad : AReg) (sz : BitVec 2) (i22 : BitVec 22) (va : Nat) (ps : Pages),
    let n := 2 ^ sz.toNat
    let pas := (List.range n).map fun i => pagePa ps (va + i)
    s.operand (s.cur.readA ad) i22.toInt n 1 ⟨true, true, false⟩ = (u, some (va, ps)) → (∀ pa ∈ pas, u.storeOwes u.iss.x pa 1 = false) →
    64 < (u.cur.sb.filter fun l => !l.committed).length + ((pas.map (· / 128)).eraseDups.filter fun l => (u.joinLine u.iss.x l (putsAt pas)).isNone).length →
    exec (.st gs ad sz i22) s = .next { u with iss := { u.iss with faults := u.iss.faults ++ [⟨u.iss.slot, 0x0006, BitVec.ofNat 64 va, 0⟩] } }

/-- A scratchpad operand is open to the slot: the row barred to nobody, no lower slot at the port, no `.ma` hold. -/
def SpOpen (s : State) (bank row n : Nat) (ma : BitVec 1) : Prop :=
  s.rowBarred s.iss.x row = false ∧ s.iss.ports = [] ∧ (ma = 1 → s.engineBusy s.iss.x.core (if n = 1 then [bank] else bankSet bank n) = false)
/-- One byte of the scratchpad of the issuing core: bank, row, byte. -/
def Sys2Proof.Machine.State.spByte (s : State) (bank row byte : Nat) : Byte := cellsRead (s.core s.iss.x.core).sp (linPos bank row byte)

/-- R186, R188, R162: the scratchpad loads: a vector row across four banks, n bytes of one bank, and a gather of rows, as the
scratchpad holds them at issue; what changes is the load in flight, and the port's record of the bundle. -/
def ScratchpadLoads : Prop :=
  ∀ (s : State) (vd vs : VReg) (gd : GReg) (km : KReg) (pos : SpPos) (byte : BitVec 6) (sz : BitVec 2) (sx ma : BitVec 1) (b6 : BitVec 6)
    (row0 : BitVec 11) (bank row : Nat), s.cur.nl < 48 →
    let w (b r i : Nat) : Nat := (s.spByte (b + 4 * i / 64) r (4 * i % 64)).toNat + 2 ^ 8 * (s.spByte (b + 4 * i / 64) r (4 * i % 64 + 1)).toNat
      + 2 ^ 16 * (s.spByte (b + 4 * i / 64) r (4 * i % 64 + 2)).toNat + 2 ^ 24 * (s.spByte (b + 4 * i / 64) r (4 * i % 64 + 3)).toNat
    (s.cur.spPos pos = some (bank, row) → SpOpen s bank row 4 ma →
      ∃ d i, exec (.lds (.vec vd km) pos ma) s = .next { s.postLoad 6 (.v vd (s.cur.readK km) d) with iss := i }
        ∧ Untroubled s { s with iss := i } ∧ ∀ n, n < 64 → (lane d n).toNat = w bank row n)
    ∧ (s.cur.spPos pos = some (bank, row) → SpOpen s bank row 1 ma →
      ∃ v i, exec (.lds (.scalar gd byte sz sx) pos ma) s = .next { s.postLoad 6 (.g gd v) with iss := i } ∧ Untroubled s { s with iss := i }
        ∧ v = extendN (bytesToNat ((List.range (2 ^ sz.toNat)).map fun k => s.spByte bank row (byte.toNat + k))) (2 ^ sz.toNat) (sx == 1))
    ∧ (let rowOf (i : Nat) : Nat := (row0.toNat + (lane (s.cur.readV vs) i).toNat) % 2048
       (∀ i, i < 64 → (s.cur.readK km).getLsbD i = true → s.rowBarred s.iss.x (rowOf i) = false) → s.iss.ports = [] →
       (ma = 1 → s.engineBusy s.iss.x.core (bankSet b6.toNat 4) = false) →
      ∃ d i, exec (.ldsg vd b6 row0 vs km ma) s = .next { s.postLoad 8 (.v vd (s.cur.readK km) d) with iss := i }
        ∧ Untroubled s { s with iss := i } ∧ ∀ n, n < 64 → (lane d n).toNat = w b6.toNat (rowOf n) n)

/-- R194, R104: STS and STSS hand the end of their cc the bytes of the active lanes, or of the register, with their linear
positions; nothing else changes but the port's record of the bundle. The bytes are then in the scratchpad, the others as
before. -/
def ScratchpadStores : Prop :=
  ∀ (s : State) (vs : VReg) (gs : GReg) (km : KReg) (pos : SpPos) (byte : BitVec 6) (sz : BitVec 2) (ma : BitVec 1) (bank row : Nat),
    s.cur.spPos pos = some (bank, row) → s.iss.spWrites = [] →
    (SpOpen s bank row 4 ma →
      ∃ i, exec (.sts vs pos km ma) s = .next { s with iss := i } ∧ Untroubled s { s with iss := i }
        ∧ ∀ l a, cellsWf l = true → cellsRead (cellsWriteAll l i.spWrites) a =
            match (List.range 256).find? fun q => (s.cur.readK km).getLsbD (q / 4) && decide (linPos (bank + q / 64) row (q % 64) = a) with
            | some q => (s.cur.readV vs).extractLsb' (8 * q) 8
            | none => cellsRead l a)
    ∧ (SpOpen s bank row 1 ma → byte.toNat + 2 ^ sz.toNat ≤ 64 →
      ∃ i, exec (.stss gs pos byte sz ma) s = .next { s with iss := i } ∧ Untroubled s { s with iss := i }
        ∧ ∀ l a, cellsWf l = true → cellsRead (cellsWriteAll l i.spWrites) a =
            match (List.range (2 ^ sz.toNat)).find? fun k => decide (linPos bank row (byte.toNat + k) = a) with
            | some k => (s.gval gs).extractLsb' (8 * k) 8
            | none => cellsRead l a)

/-- Loads from and stores to the scratchpad. -/
def Obligations.ScratchpadAccesses : Prop := ScratchpadLoads ∧ ScratchpadStores

/-- A scratchpad access of a row that another context's carve-out or another gang's claim holds raises the
scratchpad-protection fault (R64, R184); an indirect position past the last row raises the bound fault. -/
def ScratchpadFaults : Prop :=
  ∀ (s : State) (vd vs : VReg) (gd gs : GReg) (km : KReg) (pos : SpPos) (byte : BitVec 6) (sz : BitVec 2) (sx ma : BitVec 1),
    ∀ i ∈ [Instr.lds (.vec vd km) pos ma, .lds (.scalar gd byte sz sx) pos ma, .sts vs pos km ma, .stss gs pos byte sz ma],
      (∀ bank row, s.cur.spPos pos = some (bank, row) → s.rowBarred s.iss.x row = true →
        Raises i s 0x0106 (BitVec.ofNat 64 (row * 4096 + bank % 64 * 64)))
      ∧ (s.cur.spPos pos = none → ∃ v, Raises i s 0x0003 v)

/-- What memory and scratchpad operands raise. -/
def Obligations.MemoryFaults : Prop := MemoryOperandFaults ∧ StoreBufferOverflow ∧ ScratchpadFaults

/-- The atomics with their operation; all but ATCAS take g0 as the second source. -/
def atomics (gd gs g2 : GReg) (ad : AReg) (sz : BitVec 3) (imm : BitVec 23) : List (Instr × AtomicOp × GReg) :=
  [(.atadd gd ad gs sz imm, .add, 0), (.atand gd ad gs sz imm, .and, 0), (.ator gd ad gs sz imm, .or, 0), (.atxor gd ad gs sz imm, .xor, 0)
  , (.atmin gd ad gs sz imm, .min, 0), (.atmax gd ad gs sz imm, .max, 0), (.atminn gd ad gs sz imm, .minn, 0)
  , (.atmaxn gd ad gs sz imm, .maxn, 0), (.atswp gd ad gs sz imm, .swp, 0), (.atcas gd ad gs g2 sz imm, .cas, g2), (.atfadd gd ad gs sz imm, .fadd, 0)]

/-- R196, R197: an atomic whose operand passes its checks, with nothing of an engine owed to its bytes: with destination g0
it counts in NS and is held as a posted act, with any other it is held as an act whose reply the context will wait for;
either way its bundle ends the segment, and no register and no byte changes before the commit. -/
def AtomicsIssue : Prop :=
  ∀ (s u : State) (gd gs g2 : GReg) (ad : AReg) (sz : BitVec 3) (imm : BitVec 23) (va : Nat) (ps : Pages),
    ∀ p ∈ atomics gd gs g2 ad sz imm,
      let n := 2 ^ sz.toNat
      let pa := pagePa ps va
      s.operand (s.cur.readA ad) imm.toInt n n ⟨true, true, false⟩ = (u, some (va, ps)) → u.engineOwes u.iss.x pa n = false → u.iss.x = s.iss.x →
      let act (dst : Option GReg) : Act := .ev (.atomicAtHome s.iss.x u.nextId p.2.1 pa n (s.pairVal gs sz) (s.pairVal p.2.2 sz) dst)
      (gd = 0 → u.cur.ns < 96 →
        exec p.1 s = .next { u.modCur (fun c => { c with
            counts := { c.counts with ns := c.counts.ns ++ [u.nextId] }, posted := c.posted ++ [(u.nextId, pa, n)]
            seg := { c.seg with staged := c.seg.staged ++ [Staged.act u.nextId (act none)] } }) with
          nextId := u.nextId + 1, iss := { u.iss with ends := true } })
      ∧ (gd ≠ 0 →
        exec p.1 s = .next { u.modCur (fun c => { c with
            posted := c.posted ++ [(u.nextId, pa, n)], seg := { c.seg with staged := c.seg.staged ++ [Staged.call u.nextId (act (some gd))] } }) with
          nextId := u.nextId + 1
          iss := { u.iss with ends := true, asks := u.iss.asks ++ [(u.nextId, u.iss.slot, BitVec.ofNat 64 va)] } })

/-- R198: a MARM whose operand passes its checks, with room in NS: counted, held for the commit, its bundle ends the
segment. -/
def MonitorArmIssues : Prop :=
  ∀ (s u : State) (mon : BitVec 12) (ad : AReg) (imm : BitVec 32) (va : Nat) (ps : Pages),
    s.operand (s.cur.readA ad) imm.toInt 1 1 ⟨false, true, false⟩ = (u, some (va, ps)) → u.cur.ns < 96 →
    exec (.marm mon ad imm) s = .next { u.modCur (fun c => { c with
        counts := { c.counts with ns := c.counts.ns ++ [u.nextId] }, pins := c.pins ++ [(u.nextId, pagePa ps va, 1)]
        seg := { c.seg with staged := c.seg.staged ++ [Staged.act u.nextId (.ev (.monitorArm u.iss.x u.nextId mon (pagePa ps va)))] } }) with
      nextId := u.nextId + 1, iss := { u.iss with ends := true } }

/-- What the atomics compute at home over n bytes, the old value and the sources below 2^(8n) (R197). -/
def AtomicResults : Prop :=
  ∀ (n old x y : Nat), 0 < n → old < 2 ^ (8 * n) → x < 2 ^ (8 * n) → y < 2 ^ (8 * n) →
    let sg (v : Nat) : Int := if 2 ^ (8 * n - 1) ≤ v then v - 2 ^ (8 * n) else v
    AtomicOp.apply .add n old x y = (old + x) % 2 ^ (8 * n)
    ∧ (∀ i, (AtomicOp.apply .and n old x y).testBit i = (old.testBit i && x.testBit i))
    ∧ (∀ i, (AtomicOp.apply .or n old x y).testBit i = (old.testBit i || x.testBit i))
    ∧ (∀ i, (AtomicOp.apply .xor n old x y).testBit i = (old.testBit i ^^ x.testBit i))
    ∧ sg (AtomicOp.apply .min n old x y) = min (sg old) (sg x) ∧ sg (AtomicOp.apply .max n old x y) = max (sg old) (sg x)
    ∧ AtomicOp.apply .minn n old x y = min old x ∧ AtomicOp.apply .maxn n old x y = max old x
    ∧ AtomicOp.apply .swp n old x y = x ∧ AtomicOp.apply .cas n old x y = (if old = x then y else old)
    ∧ AtomicOp.apply .fadd 4 old x y = (toF32 ((f32 (BitVec.ofNat 32 old)).add (f32 (BitVec.ofNat 32 x)))).toNat

/-- Atomics and monitor arms, at issue and at home. -/
def Obligations.AtomicsAndMonitors : Prop := AtomicsIssue ∧ MonitorArmIssues ∧ AtomicResults

/-! ### The matrix engine (08 R157-R179) -/

/-- The context may use the array: no engine work of its own, and at system level the array is owned. -/
def ArrayFree (s : State) : Prop := s.cur.work = none ∧ (s.cur.sys.pl = true → s.cur.sys.mowned = true)
/-- The dc of the array is taken, its banks `m`. -/
def Sys2Proof.Machine.State.arrayTaken (s : State) (m : BitVec 64) : State :=
  s.modCore s.iss.x.core fun k => { k with stepDc := some s.dc, arrayBanks := m }
/-- The instruction completes, and of the state it changes one tile alone, whose elements are `f`; the array's dc is taken. -/
def TileResult (i : Instr) (s : State) (ct : CReg) (f : Nat → Nat → BitVec 32) : Prop :=
  ∃ m T, exec i s = .next ((s.arrayTaken m).modRegs s.iss.x fun r => { r with tiles := r.tiles.set ct.toNat T ct.isLt })
    ∧ ∀ r c, r < 64 → c < 64 → Tile.elt T r c = f r c
/-- Binary32 word n of the 256-byte operand at a bank and a row. -/
def Sys2Proof.Machine.State.opWord (s : State) (bank row n : Nat) : BitVec 32 :=
  BitVec.ofNat 32 (bytesToNat ((List.range 4).map fun k => s.spByte (bank + 4 * n / 64) row (4 * n % 64 + k)))

/-- R168: MZERO, MBIAS and MSCALE with the array free and the operand's row barred to nobody. -/
def TileOperationResults : Prop :=
  ∀ (s : State) (ct : CReg) (bank : BitVec 6) (row : BitVec 11), ArrayFree s →
    TileResult (.mzero ct) s ct (fun _ _ => 0)
    ∧ (s.rowBarred s.iss.x row.toNat = false →
      TileResult (.mbias ct bank row) s ct (fun _ j => s.opWord bank.toNat row.toNat j)
      ∧ TileResult (.mscale ct bank row) s ct (fun i j =>
          toF32 ((f32 (Tile.elt (s.cur.readTile ct) i j)).mul (f32 (s.opWord bank.toNat row.toNat j)))))

/-- R158, R319: while engine work of the context runs or pends, every step operation and macro but MSTEP and MCANCEL raises
the matrix-busy fault; at system level without the array all of them, and CPYW, raise the matrix-unavailable fault. -/
def MatrixGate : Prop :=
  ∀ (s : State) (ct ws : CReg) (pos : SpPos) (fa : BitVec 5) (kr zc cl : BitVec 1) (bank : BitVec 6) (row : BitVec 11) (ad : AReg)
    (imm : BitVec 32) (gk gc gm : GReg) (mode : MldwMode) (tgt : DrainTgt) (fop : FollowOn),
    let l : List Instr := [.mzero ct, .mldw ws ad imm gk mode, .mma ct pos ws fa kr, .mmat ct pos ws fa kr, .mdrain ct tgt zc,
      .mdraina ct tgt gc zc cl, .mbias ct bank row, .mscale ct bank row, .mgemm bank row, .mattn bank row]
    (s.cur.sys.pl = true → s.cur.sys.mowned = false → ∀ i ∈ l ++ [.mstep, .mcancel, .cpyw bank row ad gk gm fop], Raises i s 0x0008 0)
    ∧ (s.cur.work.isSome = true → (s.cur.sys.pl = true → s.cur.sys.mowned = true) → ∀ i ∈ l, Raises i s 0x0007 0)

/-- R169, R163, 04 R78: MMA and MMAT over a valid slot: one kpc group, each element receives C plus the exact sum of the
products, rounded once; element (i, c) of A stands at c * 64 + i for MMA and at i * kpc + c for MMAT; rows of B past the
panel count nothing; the cursor advances by kpc, at most to 65,536, from zero with .kr. -/
def MatrixMultiplyResults : Prop :=
  ∀ (s : State) (ct ws : CReg) (pos : SpPos) (fa : BitVec 5) (kr : BitVec 1) (bank row : Nat), ArrayFree s →
    s.cur.spPos pos = some (bank, row) → s.rowBarred s.iss.x row = false →
    let w := s.cur.wslot ws
    w.state = 2 → w.poison = none → (s.cur.readFmt fa).geom = 0 →
    let f := (s.cur.readFmt fa).num
    let width := max f.width w.num.width
    let kpc := if width ≤ 4 then 8 else if width ≤ 8 then 4 else if width ≤ 16 then 2 else 1
    let cur := if kr = 1 then 0 else (s.cur.regs.cur[ws.toNat]'ws.isLt).toNat
    let A (n : Nat) : XVal := matIn f (eltOfFn f.width (fun q => s.spByte (bank + q / 64) row (q % 64)) n) 0
    let sum (c : BitVec 32) (a : Nat → XVal) (j : Nat) : BitVec 32 :=
      toF32 ((((List.range kpc).filter fun k => decide (cur + k < w.rows.toNat)).map fun k =>
        (a k).mul ((w.rowVals (cur + k)).getD j .zero)).foldl XVal.add (f32 c))
    ∀ i ∈ [(false, Instr.mma ct pos ws fa kr), (true, .mmat ct pos ws fa kr)],
      ∃ m T, exec i.2 s = .next ((s.arrayTaken m).modRegs s.iss.x fun r => { r with
          tiles := r.tiles.set ct.toNat T ct.isLt, cur := r.cur.set ws.toNat (BitVec.ofNat 17 (min (cur + kpc) 65536)) ws.isLt })
        ∧ ∀ r c, r < 64 → c < 64 → Tile.elt T r c =
            sum (Tile.elt (s.cur.readTile ct) r c) (fun k => A (if i.1 then r * kpc + k else k * 64 + r)) c

/-- R165, R164: what rows of B a valid slot of dense mode without a scale holds: row k, column j is element 64 k + j of the
panel. -/
def DensePanelRows : Prop :=
  ∀ (w : WSlot) (k j : Nat), w.mode = 0 → w.geom = 0 → j < 64 →
    (w.rowVals k).getD j .zero = matIn w.num (eltOfFn w.num.width (fun q => w.data.getD q 0) (64 * k + j)) 0

/-- Step operations and the panels they read. -/
def Obligations.MatrixMultiply : Prop := MatrixMultiplyResults ∧ DensePanelRows

/-- R169, R163, R164: an MMA of a slot that is still filling freezes its context before issue; of an empty or failed slot it
raises the weight-slot fault, of an A format with a scale the format-slot fault. -/
def MatrixMultiplyStops : Prop :=
  ∀ (s : State) (ct ws : CReg) (pos : SpPos) (fa : BitVec 5) (kr : BitVec 1) (bank row : Nat), ArrayFree s →
    s.cur.spPos pos = some (bank, row) → s.rowBarred s.iss.x row = false →
    ∀ i ∈ [Instr.mma ct pos ws fa kr, .mmat ct pos ws fa kr],
      ((s.cur.wslot ws).state = 1 → s.iss.block = none → ∃ v, exec i s = .next { s with iss := { s.iss with block := some (s.iss.slot, v) } })
      ∧ ((s.cur.wslot ws).state = 0 ∨ (s.cur.wslot ws).state = 3 → Raises i s 0x000A (ws.zeroExtend 64))
      ∧ ((s.cur.wslot ws).state = 2 → (s.cur.readFmt fa).geom ≠ 0 → Raises i s 0x0005 0)

/-- Tile operations, and what keeps a step operation from the array. -/
def Obligations.MatrixTilesAndStops : Prop := TileOperationResults ∧ MatrixGate ∧ MatrixMultiplyStops

/-- R166, R160, R164: an MLDW of K rows, its panel inside the tensor and its pages readable, with room in NT: the slot is
filling with the panel's place, mode, format, rows and length, its cursor is zero, the fill counts one in NT and its
blocks are on their way. -/
def Obligations.WeightLoadIssues : Prop :=
  ∀ (s v : State) (ws : CReg) (ad : AReg) (imm : BitVec 32) (gk : GReg) (mode : MldwMode) (e : Extent) (f : FmtSlot) (ps : Pages),
    ArrayFree s →
    let a := s.cur.readA ad
    let off : Int := (addrOff a).toNat + imm.toInt
    let k := (s.gval gk).toNat % 2 ^ 20
    let n := panelBytes mode.toNat f.width k ((s.gval gk).toNat / 2 ^ 32 % 2 ^ 20)
    s.extent? s.iss.x (addrId a) = some e → s.slotAt s.iss.x e off = f →
    1 ≤ k → k ≤ 65536 → (mode = .pair → k % 4 = 0) → 1 ≤ n → n ≤ 65536 → 0 ≤ off → off + n ≤ e.size →
    (f.geom ≠ 0 → mode = .dense ∧ eltPos f.width off.toNat % (if f.geom = 4 then 512 else 64) = 0) →
    s.checkScaled s.iss.x (addrId a) (BitVec.ofNat 64 (e.base + off.toNat)) none f.geom [(e.base + off.toNat, n)]
      [planeRange e f.geom.toNat (eltPos f.width off.toNat) (64 * k)] ⟨false, true, false⟩ = (v, .ok ps) →
    v.cur.nt < 32 → v.iss.x = s.iss.x →
    ∃ t, exec (.mldw ws ad imm gk mode) s = .next t ∧ Untroubled v t ∧ t.mem = v.mem
      ∧ t.cur.counts.nt = v.cur.counts.nt ++ [v.nextId] ∧ (t.cur.regs.cur[ws.toNat]'ws.isLt) = 0
      ∧ (let w := t.cur.wslot ws
         w.state = 1 ∧ w.rows.toNat = k ∧ w.len.toNat = n ∧ w.mode.toNat = mode.toNat ∧ w.code = f.code ∧ w.bias = f.bias
           ∧ w.geom = f.geom ∧ addrId w.src = addrId a ∧ ((addrOff w.src).toNat : Int) = off % 2 ^ 40 ∧ w.born = true)
      ∧ (∃ j ∈ t.jobs, j.id = v.nextId ∧ j.kind = .fill ws ∧ j.len = n)
      ∧ t.cur.regs.g = v.cur.regs.g ∧ t.cur.regs.tiles = v.cur.regs.tiles ∧ t.cur.v = v.cur.v

/-- R171, R172, R160: a drain to scratchpad rows that nobody bars takes a snapshot of its tile, counts one in NT, and its
row 0 is due in the next dc; with .z the tile is then zero. -/
def ScratchpadDrainIssues : Prop :=
  ∀ (s : State) (ct : CReg) (bank : BitVec 6) (row : BitVec 11) (fo : BitVec 5) (gc : GReg) (zc cl : BitVec 1), ArrayFree s →
    (∀ r, row.toNat ≤ r → r < row.toNat + 64 → s.rowBarred s.iss.x r = false) → (s.cur.readFmt fo).geom = 0 → s.cur.nt < 32 →
    ∀ p ∈ [(false, none, Instr.mdrain ct (.sp bank row fo) zc),
        (true, (if cl = 1 then some (s.gval gc) else none), .mdraina ct (.sp bank row fo) gc zc cl)],
      ∃ d t, exec p.2.2 s = .next t ∧ Untroubled s t ∧ d.tile = s.cur.readTile ct ∧ d.tgt = .sp bank.toNat row.toNat
        ∧ d.fmt = s.cur.readFmt fo ∧ d.acc = p.1 ∧ d.clamp = p.2.1 ∧ d.done = [] ∧ d.id = s.nextId
        ∧ t.cur.drains = s.cur.drains ++ [d] ∧ t.cur.counts.nt = s.cur.counts.nt ++ [d.id]
        ∧ t.agenda = s.agenda ++ [(s.dc + 1, .ev (.scratchpadDrainRow s.iss.x d.id 0))]
        ∧ t.mem = s.mem ∧ (t.core s.iss.x.core).sp = (s.core s.iss.x.core).sp
        ∧ t.cur.readTile ct = (if zc = 1 then 0 else s.cur.readTile ct)
        ∧ (∀ i, i ≠ ct → t.cur.readTile i = s.cur.readTile i) ∧ t.cur.regs.g = s.cur.regs.g

/-- R171, R172: a drain to memory whose rows pass their checks is held with its snapshot, counts one in NT, and no byte of
memory changes before its segment commits. -/
def MemoryDrainIssues : Prop :=
  ∀ (s u : State) (ct : CReg) (ad : AReg) (imm : BitVec 32) (gc : GReg) (zc cl : BitVec 1) (f : FmtSlot)
    (rows : List (List (Nat × Nat))) (sh : List (List Nat)) (coh : Bool), ArrayFree s →
    s.drainRows s.iss.x (s.cur.readA ad) imm.toInt (s.cur.readStride ad).toInt s.cur.readFmt true = (u, .ok f rows sh coh) →
    u.cur.nt < 32 → u.iss.x = s.iss.x →
    ∀ p ∈ [(false, none, Instr.mdrain ct (.mem ad imm) zc),
        (true, (if cl = 1 then some (s.gval gc) else none), .mdraina ct (.mem ad imm) gc zc cl)],
      ∃ d t, exec p.2.2 s = .next t ∧ Untroubled u t ∧ d.tile = u.cur.readTile ct ∧ d.tgt = .mem rows coh (addrId (s.cur.readA ad))
        ∧ d.fmt = f ∧ d.acc = p.1 ∧ d.clamp = p.2.1 ∧ d.held = true ∧ d.id = u.nextId ∧ t.cur.drains = u.cur.drains ++ [d]
        ∧ t.cur.counts.nt = u.cur.counts.nt ++ [d.id] ∧ t.mem = u.mem ∧ t.agenda = u.agenda
        ∧ t.cur.readTile ct = (if zc = 1 then 0 else u.cur.readTile ct)

/-- Drains to the scratchpad and to memory. -/
def Obligations.DrainsIssue : Prop := ScratchpadDrainIssues ∧ MemoryDrainIssues

/-- R173, R178, R160: MGEMM and MATTN with the array free make engine work of the context, counted in NT. -/
def MacrosIssue : Prop :=
  ∀ (s : State) (bank : BitVec 6) (row : BitVec 11), ArrayFree s → s.rowBarred s.iss.x row.toNat = false → s.cur.nt < 32 →
    ∀ p ∈ [(WorkKind.mgemm, Instr.mgemm bank row), (.mattn, .mattn bank row)],
      ∃ w m, exec p.2 s = .next { s.modCur (fun c => { c with
            work := some w, counts := { c.counts with nt := c.counts.nt ++ [s.nextId], memDrains := m } }) with nextId := s.nextId + 1 }
        ∧ w.id = s.nextId ∧ w.kind = p.1 ∧ w.bank = bank.toNat ∧ w.row = row.toNat ∧ w.fmts = s.cur.regs.fmt ∧ w.phase = .ready
        ∧ w.step = 0 ∧ w.desc = []

/-- MSTEP's status word on its way to the descriptor row at a bank and a row: counted in NT under the next number, it leaves
with the bundle; nothing else changes. -/
def StatusGoes (s : State) (bank row : Nat) (st : Word) : Prop :=
  exec .mstep s = .next { { s with nextId := s.nextId + 1 }.modCur (fun c => { c with counts := { c.counts with nt := c.counts.nt ++ [s.nextId] } })
    with iss := { s.iss with acts := s.iss.acts ++ [.w0 s.iss.x s.nextId bank row st] } }

/-- R178, R160: MSTEP writes the status word of the running macro, DONE zero, or that of the last macro, and counts one in NT
until the word has landed, the word then being the macro's as it stands at its landing; with 32 counted it freezes; a context that has run no macro is unchanged. MCANCEL with no
engine work does nothing; work at a step boundary it ends, NT falling, a macro with ERR set and CODE 6 in its status word;
a final drain whose rows are formed runs out first. -/
def MacroControl : Prop :=
  ∀ (s : State), (s.cur.sys.pl = true → s.cur.sys.mowned = true) →
    (∀ w, s.cur.work = some w → (w.kind = .mgemm ∨ w.kind = .mattn) → w.phase ≠ .carried → s.cur.nt < 32 →
      ∃ st : Word, StatusGoes s w.bank w.row st
        ∧ st.getLsbD 63 = false ∧ st.getLsbD 62 = false ∧ st.getLsbD 61 = w.tmiss ∧ st.toNat % 2 ^ 32 = w.step % 2 ^ 32
        ∧ st.toNat / 2 ^ 32 % 2 ^ 16 = w.nmiss % 2 ^ 16)
    ∧ (s.cur.work = none → ∀ b r st, s.cur.lastMacro = some (b, r, st) →
      (s.cur.nt < 32 → StatusGoes s b r st)
      ∧ (32 ≤ s.cur.nt → s.iss.block = none →
          exec .mstep s = .next { s with iss := { s.iss with block := some (s.iss.slot, 0) } }))
    ∧ (s.cur.work = none → s.cur.lastMacro = none → exec .mstep s = .next s)
    ∧ (∀ x id b r st, s.copyYields x.core [b % 64] = false →
      let t := s.landW0 x id b r st
      (∃ now : Word, (t.core x.core).sp = cellsWriteAll (s.core x.core).sp (bytesAt (opPos b r 0) (natToBytes now.toNat 8))
          ∧ (∀ w, (s.ctx x).work = some w → (w.kind = .mgemm ∨ w.kind = .mattn) → w.phase ≠ .carried → w.bank = b → w.row = r →
              now.getLsbD 63 = false ∧ now.toNat % 2 ^ 32 = w.step % 2 ^ 32)
          ∧ ((s.ctx x).work = none → now = match (s.ctx x).lastMacro with
              | some (b', r', st') => if b' = b ∧ r' = r then st' else st
              | none => st))
        ∧ id ∉ (t.ctx x).counts.nt ∧ t.mem = s.mem ∧ (t.ctx x).regs = (s.ctx x).regs)
    ∧ (s.cur.work = none → exec .mcancel s = .next s)
    ∧ (∀ w, s.cur.work = some w → w.phase = .draining →
      exec .mcancel s = .next (s.modCur fun c => { c with work := some { w with cancel := true } }))
    ∧ (∀ w, s.cur.work = some w → w.phase ≠ .draining →
      ∃ t, exec .mcancel s = .next t ∧ t.cur.work = none ∧ w.id ∉ t.cur.counts.nt ∧ t.mem = s.mem ∧ t.cur.regs = s.cur.regs
        ∧ (∀ j, w.job = some j → ∀ q ∈ t.jobs, q.id = j → q.follow = none)
        ∧ ((w.kind = .mgemm ∨ w.kind = .mattn) →
          ∃ st : Word, t.cur.lastMacro = some (w.bank, w.row, st) ∧ st.getLsbD 63 = true ∧ st.getLsbD 62 = true
            ∧ st.toNat / 2 ^ 48 % 2 ^ 13 = 6 ∧ st.toNat % 2 ^ 32 = w.step % 2 ^ 32
            ∧ (t.core s.iss.x.core).sp = cellsWriteAll (s.core s.iss.x.core).sp (bytesAt (opPos w.bank w.row 0) (natToBytes st.toNat 8))))

/-- Macros and their control. -/
def Obligations.Macros : Prop := MacrosIssue ∧ MacroControl

/-! ### Copies, conversions, gathers and job cards (10 R200-R211, 08 R179) -/

/-- The sides of a copy, and what goes with it, pass all their checks, leaving the translation state `u` and the translations
`pss` of each side. -/
def SidesPass (s : State) (sides : List Side) (more : State → State × Chk) (u : State) (pss : List Pages) : Prop :=
  ∀ k : List Pages → State → State, s.withSides sides more k = k pss u
/-- Nothing goes with a copy that the checks are to look at. -/
def nothingMore (s : State) : State × Chk := (s, .ok [])
/-- Room for one more job: 24 of the context, 32 of its core (03 R57). -/
def JobRoom (s : State) : Prop := s.cur.nc < 24 ∧ s.cur.nc + (s.ctx s.iss.x.other).nc < 32
/-- A job has been issued, and `more` holds of it: it counts one in NC, it stands in the job table of the core or, where its target is memory, is held
with the segment that its bundle ends; no byte and no register has changed. -/
def JobIssued (u t : State) (kind : JKind) (len : Nat) (toMem : Bool) (more : Job → Prop) : Prop :=
  Untroubled u t ∧ t.mem = u.mem ∧ (t.core u.iss.x.core).sp = (u.core u.iss.x.core).sp
    ∧ t.cur.regs = u.cur.regs ∧ t.cur.v = u.cur.v
    ∧ t.cur.counts.nc = u.cur.counts.nc ++ [u.nextId] ∧ t.iss.ends = (u.iss.ends || toMem)
    ∧ ∃ j ∈ t.jobs, j.id = u.nextId ∧ j.kind = kind ∧ j.len = len ∧ j.nblocks = (len + 511) / 512 ∧ j.born = true
        ∧ more j ∧ (toMem = true → j.st = .held) ∧ (toMem = false → j.st = if j.preds = [] then .running else .waiting)
/-- A job that came from no card: tag 0, no completion word, no barrier (R207). -/
def PlainJob (j : Job) : Prop := j.tag = 0 ∧ j.cwe = none ∧ j.bare = none
/-- Whether a place lies in memory. -/
def Sys2Proof.Machine.SideAt.inMem (p : SideAt) : Bool :=
  match p with
  | .mem _ => true
  | .sp _ => false

/-- R203, R204, R57: CPY, CPYX and CPYG of a length of 1 to 2^28 whose sides pass their checks, with room in NC, issue their
job. A length of zero does nothing at all; a longer one raises the bound fault. -/
def CopiesIssue : Prop :=
  ∀ (s u : State) (pl : Places) (dst : Place) (ad : AReg) (ib : BitVec 6) (ir : BitVec 11) (gn : GReg) (fs : BitVec 5) (pss : List Pages)
    (e : Extent),
    let n := (s.gval gn).toNat % 2 ^ 32
    let sp := s.cur.placeAt pl.src
    let dp := s.cur.placeAt pl.dst
    (n = 0 → exec (.cpy pl gn) s = .next s ∧ exec (.cpyx pl gn fs) s = .next s ∧ exec (.cpyg dst ad ib ir gn) s = .next s)
    ∧ (2 ^ 28 < n → (∃ x, Raises (.cpy pl gn) s 0x0003 x) ∧ ∃ x, Raises (.cpyx pl gn fs) s 0x0003 x)
    ∧ (2 ^ 28 < (s.gval gn).toNat / 2 ^ 32 % 2 ^ 16 * n → ∃ x, Raises (.cpyg dst ad ib ir gn) s 0x0003 x)
    ∧ ((s.gval gn).toNat / 2 ^ 32 % 2 ^ 16 = 0 → exec (.cpyg dst ad ib ir gn) s = .next s)
    ∧ (0 < n → n ≤ 2 ^ 28 → SidesPass s [⟨sp, n, false, {}, 0⟩, ⟨dp, n, true, {}, 0⟩] nothingMore u pss → JobRoom u →
        ∃ t, exec (.cpy pl gn) s = .next t ∧ JobIssued u t .copy n dp.inMem PlainJob)
    ∧ (let sf := s.convFmt sp fs
       let df := s.convFmt dp fs
       0 < n → n ≤ 2 ^ 28 →
        SidesPass s [⟨sp, bytesOfN sf.width n, false, sf, n⟩, ⟨dp, bytesOfN df.width n, true, df, n⟩] nothingMore u pss → JobRoom u →
        ∃ t, exec (.cpyx pl gn fs) s = .next t ∧ JobIssued u t .convert (bytesOfN sf.width n) dp.inMem PlainJob)
    ∧ (let rows := (s.gval gn).toNat / 2 ^ 32 % 2 ^ 16
       0 < rows * n → rows * n ≤ 2 ^ 28 → s.extent? s.iss.x (addrId (s.cur.readA ad)) = some e →
        SidesPass s [⟨.sp (linPos ib.toNat ir.toNat 0), 4 * rows, false, {}, 0⟩, ⟨s.cur.placeAt dst, rows * n, true, {}, 0⟩] nothingMore u pss → JobRoom u →
        ∃ t, exec (.cpyg dst ad ib ir gn) s = .next t ∧ JobIssued u t .gather (rows * n) (s.cur.placeAt dst).inMem PlainJob)

/-- R207: a JSUB whose card can be read and breaks none of the card's conditions does what the copy, conversion or gather of its
fields does, with the tag of the card, its completion word and its barrier; one that breaks a condition raises the job-card
fault with the card's address. -/
def JobCardIssues : Prop :=
  ∀ (s u v w : State) (ad : AReg) (t : BitVec 1) (imm : BitVec 43) (va : Nat) (ps : Pages) (bs : List Byte) (pss : List Pages)
    (e : Extent),
    s.operand (s.cur.readA ad) imm.toInt 64 64 ⟨false, true, false⟩ = (u, some (va, ps)) →
    u.readNow u.iss.x ps (u.guardOf (s.cur.readA ad)) va 64 (BitVec.ofNat 64 va) = (v, some bs) →
    let c (i : Nat) : Word := BitVec.ofNat 64 (bytesToNat ((bs.drop (8 * i)).take 8))
    let n (i : Nat) : Nat := (c i).toNat
    let ssp := (c 4).getLsbD 11
    let dsp := (c 4).getLsbD 12
    let cwe := (c 4).getLsbD 13
    let place (inSp : Bool) (x : Word) : SideAt := if inSp then .sp (x.toNat % 2 ^ 23) else .mem x
    let src := place ssp (c 0)
    let dst := place dsp (c 1)
    let len := n 3 % 2 ^ 32
    let rows := n 3 / 2 ^ 32 % 2 ^ 16
    let fs := BitVec.ofNat 5 (n 3 / 2 ^ 48)
    let kind := n 4 / 2 ^ 8 % 8
    let bad : Prop := 3 ≤ kind ∨ n 4 % 2 ^ 8 = 0xFF ∨ (kind = 1 ∧ ssp = true ∧ dsp = true) ∨ (kind = 2 ∧ ssp = true)
      ∨ (t = 1 ↔ dsp = true) ∨ (ssp = true ∧ 2 ^ 23 ≤ n 0) ∨ (dsp = true ∧ 2 ^ 23 ≤ n 1) ∨ (kind = 2 ∧ 2 ^ 63 ≤ n 2)
      ∨ (kind ≠ 2 ∧ n 2 ≠ 0) ∨ 2 ^ 53 ≤ n 3 ∨ 2 ^ 26 ≤ n 4 ∨ n 6 ≠ 0 ∨ n 7 ≠ 0
    let cw : List Side := if cwe then [⟨.mem (c 5), 8, true, {}, 0⟩] else []
    let wordAligned (s : State) : State × Chk :=
      let a := s.sideTval s.iss.x (.mem (c 5))
      if cwe && decide (a.toNat % 8 ≠ 0) then (s, .fault 0x0004 a 0) else (s, .ok [])
    let ofCard (j : Job) : Prop := j.tag.toNat = n 4 % 2 ^ 8 ∧ j.words = [c 0, c 1, c 2, c 3, c 4, c 5]
      ∧ j.cwe.map (·.tensor) = (if cwe then some (addrId (c 5)) else none)
      ∧ j.bare = (if (c 4).getLsbD 14 then some (BitVec.ofNat 11 (n 4 / 2 ^ 15)) else none)
    let issues (kd : JKind) (bytes : Nat) : Prop :=
      ∃ z, exec (.jsub ad t imm) s = .next z ∧ JobIssued w z kd bytes dst.inMem ofCard
    let sf := v.convFmt src fs
    let df := v.convFmt dst fs
    (bad → exec (.jsub ad t imm) s = .next { v with iss := { v.iss with faults := v.iss.faults ++ [⟨v.iss.slot, 0x000B, BitVec.ofNat 64 va, 0⟩] } })
    ∧ (¬ bad → (len = 0 ∨ (kind = 2 ∧ rows = 0)) → exec (.jsub ad t imm) s = .next v)
    ∧ (¬ bad → kind = 0 → 0 < len → len ≤ 2 ^ 28 →
        SidesPass v ([⟨src, len, false, {}, 0⟩, ⟨dst, len, true, {}, 0⟩] ++ cw) wordAligned w pss → JobRoom w → issues .copy len)
    ∧ (¬ bad → kind = 1 → 0 < len → len ≤ 2 ^ 28 →
        SidesPass v ([⟨src, bytesOfN sf.width len, false, sf, len⟩, ⟨dst, bytesOfN df.width len, true, df, len⟩] ++ cw) wordAligned w pss →
        JobRoom w → issues .convert (bytesOfN sf.width len))
    ∧ (¬ bad → kind = 2 → 0 < rows * len → rows * len ≤ 2 ^ 28 → v.extent? v.iss.x (addrId (c 0)) = some e →
        SidesPass v ([⟨.sp (n 2 % 2 ^ 23), 4 * rows, false, {}, 0⟩, ⟨dst, rows * len, true, {}, 0⟩] ++ cw) wordAligned w pss →
        JobRoom w → issues .gather (rows * len))

/-- R210: JCAN is held with its segment, and cancels at the commit the jobs that still wait: each leaves the table and NC, one
whose completion word is enabled leaves its word with an error. Here: what the issue does. -/
def JobCancelIssues : Prop :=
  ∀ (s : State) (gs : GReg),
    exec (.jcan gs) s = .next (s.modCur fun c => { c with
      seg := { c.seg with staged := c.seg.staged ++ [Staged.cancelJobs ((s.gval gs).extractLsb' 0 8)] } })

/-- Copies, job cards and their cancelling. -/
def Obligations.CopyJobs : Prop := CopiesIssue ∧ JobCardIssues ∧ JobCancelIssues

/-- 08 R179, R203: a CPYW whose command is an encoding, whose context has no engine work, and whose command and copy pass their
checks: the copy is a job, and the command, its registers and formats read now, waits behind it, counted in NT. A length of
zero does nothing; a word that is no command raises the illegal-operation fault; a busy context the matrix-busy fault. -/
def Obligations.CarriedCommandIssues : Prop :=
  ∀ (s v : State) (bank : BitVec 6) (row : BitVec 11) (ad : AReg) (gn gm : GReg) (fop : FollowOn) (cmd : Instr) (kind : WorkKind)
    (b r : Nat) (mem : Bool) (more : State → State × Chk) (pss : List Pages), (s.cur.sys.pl = true → s.cur.sys.mowned = true) →
    let n := (s.gval gn).toNat % 2 ^ 32
    let pos := linPos bank.toNat row.toNat 0
    (followCmd fop (s.gval gm) = none → Raises (.cpyw bank row ad gn gm fop) s 0x0001 0)
    ∧ (followCmd fop (s.gval gm) = some cmd → n = 0 → exec (.cpyw bank row ad gn gm fop) s = .next s)
    ∧ (followCmd fop (s.gval gm) = some cmd → n ≠ 0 → s.cur.work.isSome = true → Raises (.cpyw bank row ad gn gm fop) s 0x0007 0)
    ∧ (followCmd fop (s.gval gm) = some cmd → 0 < n → n ≤ 2 ^ 28 → s.cur.work = none →
        s.followOf cmd = (kind, b, r, mem, more) → s.cur.nt < 32 →
        SidesPass ({ s with nextId := s.nextId + 1 }.modCur fun c => { c with counts := { c.counts with nt := c.counts.nt ++ [s.nextId] } })
          [⟨.mem (s.cur.readA ad), n, false, {}, 0⟩, ⟨.sp pos, n, true, {}, 0⟩] more v pss → JobRoom v → v.nextId = s.nextId + 1 →
        v.iss.x = s.iss.x →
        let w : Work := { id := s.nextId, kind := kind, bank := b, row := r, fmts := s.cur.regs.fmt, phase := .carried, step := 0
                          born := true, carried := true }
        ∃ t, exec (.cpyw bank row ad gn gm fop) s = .next t ∧ Untroubled v t ∧ t.mem = v.mem
          ∧ t.cur.work = some { w with job := some v.nextId }
          ∧ t.cur.counts.nc = v.cur.counts.nc ++ [v.nextId] ∧ t.cur.counts.nt = v.cur.counts.nt
          ∧ (∃ j ∈ t.jobs, j.id = v.nextId ∧ j.kind = .copy ∧ j.len = n ∧ j.follow = some w)
          ∧ t.cur.regs = v.cur.regs)

/-! ### Holds, barriers, monitors, acquire and release, fences, yield, rendezvous (10 R212-R225) -/

/-- The slot holds its bundle before it issues, and does nothing else. -/
def HoldsOn (i : Instr) (s : State) (h : Hold) : Prop := exec i s = .next { s with iss := { s.iss with hold := some h } }
/-- A gang-mate of the issuing task (10 R225). -/
def Mate (s : State) (t : Task) : Prop :=
  ∃ g k, s.gangOf s.iss.x = some g ∧ k ∈ g.members ∧ some k ≠ s.cur.task ∧ s.task? k = some t
/-- A Failed gang-mate: STATE 7, or (log 44) STATE 6 with FCODE 0x0703. -/
def FailedTask (t : Task) : Prop := t.state = 7 ∨ (t.state = 6 ∧ t.fcode = 0x0703)

/-- R213, R214, R218, R221, R225: WAIT, BARW, MONW and RDV complete where their condition is met, hold their bundle where it
is not, and do nothing else but what these rules give: BARW of a free barrier raises the barrier-state fault, MONW consumes
its event and ends its segment, RDV writes pd and is noted as passed. -/
def Obligations.HoldConditions : Prop :=
  ∀ (s : State) (z : BitVec 4) (lsel : BitVec 2) (lval : BitVec 6) (bar : BitVec 11) (gs : GReg) (mon : BitVec 12) (pd : PReg) (n : BitVec 11),
    (let (nl, ns, nc, nt) := s.iss.counts
     let met : Prop := (z.getLsbD 3 = true → nl = 0) ∧ (z.getLsbD 2 = true → ns = 0) ∧ (z.getLsbD 1 = true → nc = 0)
       ∧ (z.getLsbD 0 = true → nt = 0) ∧ (lsel = 0 → nl ≤ lval.toNat) ∧ (lsel = 1 → ns ≤ lval.toNat) ∧ (lsel = 2 → nc ≤ lval.toNat)
       ∧ (lsel = 3 → nt ≤ lval.toNat)
     (met → exec (.wait z lsel lval) s = .next s) ∧ (¬ met → HoldsOn (.wait z lsel lval) s (.wait z lsel lval)))
    ∧ (let gen := (s.gval gs).extractLsb' 0 16
       (s.barrier? (s.gangIdOf s.iss.x) bar = none → Raises (.barw bar gs) s 0x000E (bar.zeroExtend 64))
       ∧ ∀ b, s.barrier? (s.gangIdOf s.iss.x) bar = some b →
          (b.gen ≠ gen → exec (.barw bar gs) s = .next s) ∧ (b.gen = gen → HoldsOn (.barw bar gs) s (.barw bar gen)))
    ∧ (∀ m, s.cur.mons.find? (fun m => m.num == mon) = some m → m.pending = false → HoldsOn (.monw mon) s (.monw mon))
    ∧ ((∀ m, s.cur.mons.find? (fun m => m.num == mon) = some m → m.pending = true) →
        exec (.monw mon) s = .next ({ s with iss := { s.iss with ends := true } }.modCur fun c => { c with
          mons := c.mons.map fun (m : Mon) => if m.num = mon then { m with pending := false } else m }))
    ∧ (let passes (b : Bool) : Prop := exec (.rdv pd n) s = .next ((s.post 1 (.p pd b)).modOwnTask s.iss.x fun t => { t with
         rdvPassed := n.toNat :: t.rdvPassed.filter (· != n.toNat) })
       ((∃ t, Mate s t ∧ FailedTask t) → passes false)
       ∧ ((∀ t, Mate s t → ¬ FailedTask t) → (∃ t, Mate s t ∧ t.rewound = true ∧ n.toNat ∉ t.rdvPassed) → HoldsOn (.rdv pd n) s (.rdv n))
       ∧ ((∀ t, Mate s t → ¬ FailedTask t) → (∀ t, Mate s t → t.rewound = true → n.toNat ∈ t.rdvPassed) → passes true))

/-- The state with one more operation counted in NS, under the next number. -/
def Sys2Proof.Machine.State.counted (s : State) : State :=
  { s with nextId := s.nextId + 1 }.modCur fun c => { c with counts := { c.counts with ns := c.counts.ns ++ [s.nextId] } }
/-- The state whose bundle ends its segment. -/
def Sys2Proof.Machine.State.ending (s : State) : State := { s with iss := { s.iss with ends := true } }

/-- R216, R217, R219, R222, R223, R224: what the barrier operations, ACQ, REL, FENCE and YIELD do at issue, the register file,
memory and every other field unchanged: BARI and BFREE are held for the commit, BARI's reply freezes the context; BARA and
BARAW are counted in NS and leave behind what the context has counted, BARAW then holds; ACQ leaves at once and freezes the
context; REL is counted and leaves behind what has been counted; both name a mapped word, or raise the
protection fault, and miss one whose page has no frame here (log 148); FENCE holds from its commit; all of them end their segment
but ACQ; YIELD ends it and leaves the context. -/
def Obligations.SynchronisationIssues : Prop :=
  ∀ (s u : State) (pd : PReg) (gd gs : GReg) (bar : BitVec 11) (scope : Scope) (ad : AReg) (va : Nat) (ps : Pages),
    let x := s.iss.x
    let offMap : Prop := ∃ p ∈ ps, leafTier p.2.leaf < 4 ∧ memAt (p.2.pa va) = none
    let near : Prop := ¬ offMap ∧ ∀ p ∈ ps, leafTier p.2.leaf < 3
    exec (.bari pd gs) s = .next ({ s with nextId := s.nextId + 1 }.ending.stage (.call s.nextId (.op x s.nextId s.iss.slot s.iss.pc
      (.bari pd ((s.gval gs).extractLsb' 16 7) ((s.gval gs).extractLsb' 0 11)))))
    ∧ exec (.bfree bar) s = .next (s.ending.stage (.now (.op x 0 .Y s.iss.pc (.bfree bar))))
    ∧ (s.cur.ns < 96 →
        let t := (s.ending.counted.modFlow x fun f => { f with arrival := s.nextId }).stage
          (.after s.nextId (.ev (.barrierArrival (s.gangIdOf x) bar (some x) s.nextId)))
        exec (.bara bar) s = .next t ∧ exec (.baraw bar) s = .next { t with iss := { t.iss with postHold := some (.baraw bar none) } })
    ∧ (s.operand (s.cur.readA ad) 0 64 64 ⟨false, false, false⟩ = (u, some (va, ps)) → near →
        exec (.acq scope ad) s = .next { ({ u with nextId := u.nextId + 1 }.modCur fun c => { c with
            pins := c.pins ++ [(u.nextId, pagePa ps va, 64)] }) with iss := { u.iss with
          calls := u.iss.calls ++ [(u.nextId, u.iss.slot, .op u.iss.x u.nextId u.iss.slot u.iss.pc (.acq scope va (pagePa ps va)))] } })
    ∧ (s.operand (s.cur.readA ad) 0 64 64 ⟨true, false, false⟩ = (u, some (va, ps)) → near → u.cur.ns < 96 →
        exec (.rel scope ad) s = .next ((u.ending.counted.modCur fun c => { c with pins := c.pins ++ [(u.nextId, pagePa ps va, 8)] }).stage
          (.after u.nextId (.ev (.relPerform u.iss.x u.nextId (pagePa ps va))))))
    ∧ (∀ w ∈ [(false, Instr.acq scope ad), (true, .rel scope ad)],
        s.operand (s.cur.readA ad) 0 64 64 ⟨w.1, false, false⟩ = (u, some (va, ps)) →
        (offMap → Raises w.2 s 0x0102 (BitVec.ofNat 64 va))
        ∧ (¬ offMap → (∃ p ∈ ps, 3 ≤ leafTier p.2.leaf) →
            ∃ it, exec w.2 s = .next { u with iss := { u.iss with misses := u.iss.misses ++ [it] } }))
    ∧ exec (.fence gd scope) s = .next { s with iss := { s.iss with ends := true, postHold := some (.fence gd scope []) } }
    ∧ exec .yield s = .next { s with iss := { s.iss with ends := true, yields := true } }

/-! ### Tensors and KV sequences (12 R244-R261) -/

/-- An operation that acts at commit and whose reply the context then waits for: held with the segment that its bundle
ends (R247). -/
def CallsHome (i : Instr) (s u : State) (o : HomeOp) : Prop :=
  exec i s = .next ({ u with nextId := u.nextId + 1 }.ending.stage (.call u.nextId (.op u.iss.x u.nextId u.iss.slot u.iss.pc o)))
/-- An operation posted at commit, counted in NS. -/
def PostsHome (i : Instr) (s : State) (o : HomeOp) : Prop :=
  exec i s = .next (s.counted.stage (.act s.nextId (.op s.iss.x s.nextId s.iss.slot s.iss.pc o)))
/-- A query that leaves at issue. -/
def AsksHome (i : Instr) (s : State) (o : HomeOp) : Prop :=
  exec i s = .next { s with nextId := s.nextId + 1, iss := { s.iss with
    calls := s.iss.calls ++ [(s.nextId, s.iss.slot, .op s.iss.x s.nextId s.iss.slot s.iss.pc o)] } }

/-- R247, R249, R250, R255, R258, R259, R261: when the tensor and KV operations act, and with what; nothing but what these
say changes with their issue. A KV operation that names a tensor raises the tensor-state fault (R246), KVAPP and KVRET of
an ID not in use the bound fault, and both translate the slots that they write; a TLOCK of length 0 locks nothing, one that needs more than 8 locked entries the lock-capacity fault. -/
def Obligations.TensorOperationsIssue : Prop :=
  ∀ (s u : State) (gd gs g2 : GReg) (hint : Hint) (tier : BitVec 1) (ti : TinfoSel) (kp : KvposSel) (ki : KvinfoSel) (bank : BitVec 6)
    (row : BitVec 11) (tag : BitVec 3) (mask : BitVec 8) (ad : AReg) (imm : BitVec 32) (va : Nat) (ps : Pages) (e : Extent),
    let id := (s.gval gs).extractLsb' 0 24
    let x := (s.gval g2).extractLsb' 0 32
    let d := s.iss.x.die
    CallsHome (.tfree gs) s s (.tfree id) ∧ CallsHome (.tpin gs) s s (.tpin id) ∧ CallsHome (.tunpin gs) s s (.tunpin id)
    ∧ (s.cur.ns < 96 → PostsHome (.tuse gs g2) s (.tuse id x)
        ∧ PostsHome (.thint gs hint) s (.thint id (match hint with
          | .none => 0
          | .soon => 1
          | .done => 2
          | .nozip => 3
          | .nodrop => 4))
        ∧ PostsHome (.tfetch gs tier) s (.tfetch id (tier == 0) s.cur.regs.rdmax))
    ∧ AsksHome (.tinfo gd gs ti) s (.tinfo gd id ti)
    ∧ (s.tensorFor d id = none → AsksHome (.kvpos gd gs g2 kp) s (.kvpos gd id x kp) ∧ AsksHome (.kvinfo gd gs ki) s (.kvinfo gd id ki))
    ∧ (s.tensorFor d id ≠ none → ∀ i ∈ [Instr.kvpos gd gs g2 kp, .kvinfo gd gs ki, .kvapp gs bank row tag, .kvret gs g2 mask],
        Raises i s 0x000D (id.zeroExtend 64))
    ∧ (s.tensorFor d id = none → s.kvFor d id = none → (∃ v, Raises (.kvapp gs bank row tag) s 0x0003 v)
        ∧ ∃ v, Raises (.kvret gs g2 mask) s 0x0003 v)
    ∧ (∀ q, s.tensorFor d id = none → s.kvFor d id = some q →
        (let out := (q.pages.filter fun p => p.live && mask.getLsbD p.tag.toNat && decide (p.firstpos < x.toNat)).map fun p => (p.va, q.storeBytes)
         s.translateAll s.iss.x ⟨true, false, false⟩ (pagesOf out) = (u, .ok ps) → (∀ p ∈ ps, leafTier p.2.leaf ≠ 7) → u.cur.ns < 96 →
          exec (.kvret gs g2 mask) s = .next (u.counted.stage (.act u.nextId (.op u.iss.x u.nextId u.iss.slot u.iss.pc (.kvret id mask x)))).ending)
        ∧ (let n := 2 * q.heads * (if q.num.width = 4 then q.dim / 2 else if q.num.width ≤ 8 then q.dim else q.dim * (q.num.width / 8))
           s.translateAll s.iss.x ⟨true, false, false⟩ (pagesOf (q.nextSlot tag)) = (u, .ok ps) → (∀ p ∈ ps, leafTier p.2.leaf ≠ 7) →
           u.cur.ns < 96 → s.spRangeFault s.iss.x (bank.toNat * 64 + row.toNat * 4096) n = none →
           exec (.kvapp gs bank row tag) s = .next (u.counted.stage (.act u.nextId (.op u.iss.x u.nextId u.iss.slot u.iss.pc
             (.kvappRead id tag (bank.toNat * 64 + row.toNat * 4096) n)))).ending))
    ∧ (s.extent? s.iss.x (addrId (s.cur.readA ad)) = some e → 0 ≤ (addrOff (s.cur.readA ad)).toNat + imm.toInt →
        (addrOff (s.cur.readA ad)).toNat + imm.toInt ≤ e.size →
        CallsHome (.tunlock ad imm) s s (.tunlock (e.base + ((addrOff (s.cur.readA ad)).toNat + imm.toInt).toNat)))
    ∧ (let n := (s.gval gs).toNat % 2 ^ 40
       (n = 0 → exec (.tlock ad imm gs) s = .next s.ending)
       ∧ (n ≠ 0 → s.operand (s.cur.readA ad) imm.toInt n 1 ⟨false, true, true⟩ = (u, some (va, ps)) →
       let used := (u.cur.locks.map fun l => l.entries.length).foldl (· + ·) 0 + (ps.map (·.2)).eraseDups.length
       (used ≤ 8 → CallsHome (.tlock ad imm gs) s u (.tlock va n))
       ∧ (8 < used → exec (.tlock ad imm gs) s = .next { u with iss := { u.iss with
           faults := u.iss.faults ++ [⟨u.iss.slot, 0x000F, BitVec.ofNat 64 va, 0⟩] } })))

/-- R248, R256: a TNEW or a KVNEW whose card can be read calls its home with the card, the slot that it names and the
context's RDMAX, unless the card breaks a condition: then it raises the tensor-card fault with the card's address. The
conditions of R256 are all here, those of R248 in part. -/
def Obligations.CreationCards : Prop :=
  ∀ (s u v : State) (gd : GReg) (ad : AReg) (imm : BitVec 38) (va : Nat) (ps : Pages) (bs : List Byte),
    s.operand (s.cur.readA ad) imm.toInt 64 64 ⟨false, true, false⟩ = (u, some (va, ps)) →
    u.readNow u.iss.x ps (u.guardOf (s.cur.readA ad)) va 64 (BitVec.ofNat 64 va) = (v, some bs) →
    let c (i : Nat) : Nat := bytesToNat ((bs.drop (8 * i)).take 8)
    let l := (List.range 8).map fun i => BitVec.ofNat 64 (c i)
    let tf := v.cur.readFmt (BitVec.ofNat 5 (c 0 / 2 ^ 40))
    let kf := v.cur.readFmt (BitVec.ofNat 5 (c 0 / 2 ^ 9))
    let size := c 0 % 2 ^ 40
    let badCard (i : Instr) : Prop := exec i s = .next { v with iss := { v.iss with
      faults := v.iss.faults ++ [⟨v.iss.slot, 0x000C, BitVec.ofNat 64 va, 0⟩] } }
    (tensorCardBad l tf (v.cur.readFmt 0) = false → CallsHome (.tnew gd ad imm) s v (.tnew gd l tf v.cur.regs.rdmax v.cur.sys.troot))
    ∧ ((size = 0 ∨ size * 8 % tf.width ≠ 0 ∨ 5 ≤ c 0 / 2 ^ 48 % 8 ∨ c 1 % 64 ≠ 0 ∨ (c 2 % 4 ≠ 0 ∧ c 3 % 2 ^ 16 ≠ 0)
        ∨ (c 0 / 2 ^ 51 % 2 = 0 ∧ (c 4 ≠ 0 ∨ c 5 ≠ 0 ∨ c 6 ≠ 0 ∨ c 7 ≠ 0)) ∨ (c 0 / 2 ^ 51 % 2 = 1 ∧ (c 4 = 0 ∨ c 5 % 64 ≠ 0))) →
        badCard (.tnew gd ad imm))
    ∧ (let bad : Prop := c 0 % 2 ^ 7 = 0 ∨ 64 < c 0 % 2 ^ 7 ∨ c 0 / 2 ^ 17 % 2 ^ 16 = 0 ∨ kf.geom ≠ 0 ∨ 2 ^ 33 ≤ c 0 ∨ 2 ^ 57 ≤ c 1
         ∨ ∃ i, 2 ≤ i ∧ i < 8 ∧ c i ≠ 0
       (bad → badCard (.kvnew gd ad imm)) ∧ (¬ bad → CallsHome (.kvnew gd ad imm) s v (.kvnew gd l kf v.cur.sys.troot)))

/-- R250, R251, R261: what TPIN, TUNPIN, TFREE and TINFO do at the home of a tensor in use, and of an ID not in use, no
earlier operation of the context on the same ID being still on its way (R247). The
reply goes to the context; a fault among replies is taken at the entry after the bundle (R247). -/
def TensorOperationsAtHome : Prop :=
  ∀ (s : State) (x : CtxId) (n : Nat) (slot : Slot) (pc : BAddr) (gd : GReg) (id : BitVec 24) (t : Tensor),
    let run (o : HomeOp) : State := s.performOp x n slot pc o
    let bad : Reply := .fault slot 0x000D (id.zeroExtend 64) pc
    let home := t.home
    s.opBehind x n (.tpin id) = false →
    (s.tensorFor x.die id = none → s.kvFor x.die id = none →
      run (.tpin id) = s.reply x.die x n bad ∧ run (.tunpin id) = s.reply x.die x n bad ∧ run (.tfree id) = s.reply x.die x n bad
      ∧ ∀ sel, run (.tinfo gd id sel) = s.reply x.die x n (.g gd 0))
    ∧ (s.tensorFor x.die id = some t →
      (t.pin = 255 → run (.tpin id) = s.reply home x n bad) ∧ (t.pin = 0 → run (.tunpin id) = s.reply home x n bad)
      ∧ (t.pin ≠ 0 → run (.tunpin id) = (s.modTensor id fun t => { t with pin := t.pin - 1 }).reply home x n .done)
      ∧ (t.pin ≠ 255 → run (.tpin id) =
          ((s.modTensor id fun t => { t with pin := t.pin + 1 }).fetchTensor x id false (s.ctx x).regs.rdmax).reply home x n .done)
      ∧ (t.pin ≠ 0 ∨ t.lock ≠ 0 → run (.tfree id) = s.reply home x n bad)
      ∧ run (.tinfo gd id .size) = s.reply home x n (.g gd (BitVec.ofNat 64 t.size))
      ∧ run (.tinfo gd id .base) = s.reply home x n (.g gd (BitVec.ofNat 64 t.base))
      ∧ run (.tinfo gd id .nud) = s.reply home x n (.g gd (t.nud.zeroExtend 64))
      ∧ run (.tinfo gd id .cur) = s.reply home x n (.g gd (BitVec.ofNat 64 t.cur))
      ∧ ∃ w : Word, run (.tinfo gd id .state) = s.reply home x n (.g gd w) ∧ w.extractLsb' 0 4 = t.st ∧ w.getLsbD 4 = t.dirty
          ∧ w.getLsbD 5 = decide (t.lock ≠ 0) ∧ w.extractLsb' 8 8 = t.pin ∧ w.extractLsb' 16 2 = t.home ∧ w.extractLsb' 18 3 = t.hint
          ∧ (w.extractLsb' 21 3).toNat = t.rdep % 8)

/-- R259, R261: a KVRET at home retires, in the list of its sequence, exactly the pages with V = 1, RET = 0, a tag of its mask
and FIRSTPOS below its limit: RET and CLOSED become one, nothing else of any page or of the sequence changes. What KVINFO
then answers of NEXTPOS and NPAGE is what it answered before. -/
def RetireAtHome : Prop :=
  ∀ (s : State) (id : BitVec 24) (mask : BitVec 8) (limit : BitVec 32) (q : KvSeq), s.kv? id = some q →
    ∃ r, (s.kvretAt id mask limit).kv? id = some r
      ∧ r = { q with pages := q.pages.map fun p =>
          if p.live = true ∧ mask.getLsbD p.tag.toNat = true ∧ p.firstpos < limit.toNat then { p with ret := true, closed := true } else p }
      ∧ r.info .next = q.info .next ∧ r.info .pages = q.info .pages

/-- Tensor operations performed at home. -/
def Obligations.TensorHome : Prop := TensorOperationsAtHome ∧ RetireAtHome

/-! ### Device events: coherence (20 R362-R365, 09 R187, R191) -/

/-- The bytes of a line as two writes leave them: the units of the mask new, the others old. -/
def mergedByte (l : SbLine) (i : Nat) (old : Byte) : Byte :=
  let m := nibMask (unitBits l.mask i)
  (old &&& ~~~m) ||| (lineByte l.data i &&& m)

/-- No KV page of the pool has a copy in HBM, which its writes would reach too (20 R371). -/
def NoKvCopies (s : State) : Prop := ∀ q ∈ s.kvs, ∀ p ∈ q.pages, p.tier ≠ 0 ∨ p.lower = []

/-- R363, R364: what the home does with GETS and GETM of a line, and with PUTM, an invalidation and an acknowledgement. A line
without an entry, its set with room, becomes its requester's alone; a shared one gains a sharer, or loses its others; an
owned one is recalled first, and the request waits, or, where it asks itself, is granted the line again; a transient one
queues the request. A line put back has no owner then, unless a grant is still on its way to the core. The last acknowledgement ends the
transient state and lets the requests go on in their order. -/
def CoherenceEvents : Prop :=
  ∀ (s : State) (core : BitVec 8) (line tag : Nat) (e : DirEntry) (l : L1Line) (kind : Recall) (od : Option LineData),
    let home := homeDie (line * 128)
    let gets : Act := .ev (.gets core line true tag)
    let getm : Act := .ev (.getm core line)
    let owned : DirEntry := { line := line, st := .e, sharers := [core], groups := none, awaiting := [], act := none, queue := [] }
    let others := e.targets.filter (· != core)
    let steady := e.st = .s ∨ e.st = .e
    let reaches := (s.memFor (coreDie core) (line * 128)).isSome = true
    (s.dirEntry? line = none → ((s.die home).dir.filter fun q => dirSet q.line == dirSet line).length < 16 →
      (reaches → exec (.gets core line true tag) s = .next ((s.touchDir owned).grant core line .e tag))
      ∧ exec (.getm core line) s = .next ((s.touchDir owned).grant core line .m 0))
    ∧ (s.dirEntry? line = some e → ¬ steady →
      (reaches → exec (.gets core line true tag) s = .next (s.queueDir line gets)) ∧ exec (.getm core line) s = .next (s.queueDir line getm))
    ∧ (s.dirEntry? line = some e → e.st = .s →
      (reaches → exec (.gets core line true tag) s = .next ((s.touchDir (e.addSharer core)).grant core line .s tag))
      ∧ (others ≠ [] → exec (.getm core line) s = .next (s.recall e .tm others .inv (some getm)))
      ∧ (others = [] → exec (.getm core line) s = .next ((s.touchDir owned).grant core line .m 0)))
    ∧ (s.dirEntry? line = some e → e.st = .e → e.targets ≠ [core] →
      (reaches → exec (.gets core line true tag) s = .next (s.recall e .ts e.targets .toS (some gets)))
      ∧ (others ≠ [] → exec (.getm core line) s = .next (s.recall e .tm others .toI (some getm))))
    ∧ (s.dirEntry? line = some e → e.st = .e → e.targets = [core] →
      (reaches → exec (.gets core line true tag) s = .next ((s.touchDir owned).grant core line .e tag))
      ∧ exec (.getm core line) s = .next ((s.touchDir owned).grant core line .m 0))
    ∧ (reaches → exec (.gets core line false tag) s = .next (s.grant core line .nc tag))
    ∧ ((s.core core).l1Find line = none → exec (.putm core line) s = .next s
        ∧ exec (.invalidation core line kind) s = .next (s.sendReq core line (.invalidationAck core line none)))
    ∧ ((s.core core).l1Find line = some l → l.st ≠ .nc →
      exec (.invalidation core line kind) s = .next ((s.modCore core fun k =>
          if kind = .toS then { k with l1 := k.l1.map fun (q : L1Line) => if q.line = line then { q with st := .s } else q }
          else { k with l1 := k.l1.filter fun q => q.line != line }).sendReq core line
            (.invalidationAck core line (if l.st = .m then some l.data else none))))
    ∧ ((s.core core).l1Find line = some l → (l.st = .e ∨ l.st = .m) → cellsWf s.mem.cells = true → s.isDead (line * 128) = false →
      (∀ i, i < 128 → ringByte (line * 128 + i) = false) → (∀ p ∈ s.mem.flips, p.1 ≠ line * 128 / 512) → NoKvCopies s →
      ∃ t, exec (.putm core line) s = .next t ∧ (t.core core).l1Find line = none
        ∧ (∀ a, cellsRead t.mem.cells a = if l.st = .m ∧ a / 128 = line then lineByte l.data (a % 128) else cellsRead s.mem.cells a)
        ∧ (s.dirEntry? line = some e → e.st = .e → e.targets = [core] → s.granting line = false → t.dirEntry? line = none)
        ∧ (s.dirEntry? line = some e → e.st = .e → e.targets = [core] → s.granting line = true →
            ∃ z, t.dirEntry? line = some z ∧ z.st = .e ∧ z.targets = [core]))
    ∧ (s.dirEntry? line = some e → ¬ steady → (od = none ∨ s.isDead (line * 128) = true) →
      ((∃ c ∈ e.awaiting, c ≠ core) → ∃ t, exec (.invalidationAck core line od) s = .next t ∧ t.agenda = s.agenda
          ∧ t.dirEntry? line = some { e with awaiting := e.awaiting.filter (· != core) })
      ∧ (e.awaiting ≠ [] → (∀ c ∈ e.awaiting, c = core) → ∃ t, exec (.invalidationAck core line od) s = .next t
          ∧ t.agenda = (e.act.toList ++ e.queue).map (fun a => (s.dc, a)) ++ s.agenda
          ∧ t.dirEntry? line = if e.st = .ts then some { e with st := .s, awaiting := [], act := none, queue := [] } else none))

/-- R187, R191, R363: a filled line that no poison marks stands in the L1, no longer missing, and its bytes reach the loads of
both contexts that wait for it; one that may be older than an own write or an ACQ of the core serves those loads and does not
stay (11 R231, R236); one filled with the right to write drains the committed lines that waited for it. -/
def FillEvents : Prop :=
  ∀ (s : State) (core : BitVec 8) (line tag : Nat) (data : LineData) (st : LineSt),
    (s.core core).l1Find line = none → ((s.core core).l1.filter fun l => l1Set l.line == l1Set line).length < 16 →
    ∃ t, exec (.l1Fill core line data st tag false) s = .next t ∧ SameMemory s t
      ∧ (st ≠ .m → line ∉ (t.core core).missing ∧ line ∉ (t.core core).stale)
      ∧ (line ∉ (s.core core).stale ∨ st = .m →
          ∃ l, (t.core core).l1Find line = some l ∧ l.st = st ∧ l.guardTag = tag ∧ l.poison = false ∧ (st ≠ .m → l.data = data))
      ∧ (line ∈ (s.core core).stale → st ≠ .m → (t.core core).l1Find line = none)
      ∧ (∀ cx, (t.ctx ⟨core, cx⟩).flow.inflight = (s.ctx ⟨core, cx⟩).flow.inflight.map fun f => { f with res := f.res.fill line data })
      ∧ (st = .m → ∀ cx, ∀ q ∈ (t.ctx ⟨core, cx⟩).sb, ¬ (q.line = line ∧ q.committed = true ∧ q.draining = true))

/-- The directory protocol and the fill of a line. -/
def Obligations.CoherenceAndFills : Prop := CoherenceEvents ∧ FillEvents

/-- R191, R192, R197, R222: a line drain, an atomic and a REL where they are performed: the bytes they write and no other
byte, the count they leave, the reply; a drain of a coherent line is performed in an L1 that holds it in E or M, and asks
for M first where it does not. An act whose memory its die cannot reach counts as a failure; one that has been counted as a
failure is not performed (11 R239). -/
def Obligations.WritesPerformed : Prop :=
  ∀ (s : State) (x : CtxId) (id pa n : Nat) (op : AtomicOp) (a b : BitVec 128) (dst : Option GReg) (l : SbLine) (q : L1Line),
    let c := s.ctx x
    let home := homeDie pa
    cellsWf s.mem.cells = true → (∀ i, i < n + 128 → ringByte (pa + i) = false) → NoKvCopies s →
    (c.owed id = true → (s.memFor x.die pa).isSome = true → s.olderOwn x id [(pa, n)] = false → (∀ k ∈ linesOf pa n, s.dirEntry? k = none) →
      0 < n → (∀ k ∈ blocksOf pa n, s.rowDead k = false ∧ k ∉ s.mem.poison ∧ ∀ p ∈ s.mem.flips, p.1 ≠ k) →
      let old := bytesToNat ((List.range n).map fun i => cellsRead s.mem.cells (pa + i))
      (∃ t, exec (.atomicAtHome x id op pa n a b dst) s = .next t
        ∧ (∀ k, cellsRead t.mem.cells k = if pa ≤ k ∧ k < pa + n then BitVec.ofNat 8 (AtomicOp.apply op n old a.toNat b.toNat / 2 ^ (8 * (k - pa)))
            else cellsRead s.mem.cells k)
        ∧ id ∉ (t.ctx x).counts.ns
        ∧ (∀ r, dst = some r → home = x.die → n ≠ 16 → ∃ due, s.dc < due
            ∧ (due, Act.ev (.replyArrival x id (.g r ((AtomicOp.result op n old).extractLsb' 0 64)))) ∈ t.agenda))
      ∧ (n = 8 → ∃ t, exec (.relPerform x id pa) s = .next t ∧ id ∉ (t.ctx x).counts.ns
        ∧ ∀ k, cellsRead t.mem.cells k = if pa ≤ k ∧ k < pa + n then BitVec.ofNat 8 ((old + 1) / 2 ^ (8 * (k - pa))) else cellsRead s.mem.cells k))
    ∧ (c.owed id = false → exec (.relPerform x id pa) s = .next s ∧ exec (.atomicAtHome x id op pa n a b dst) s = .next s)
    ∧ (c.owed id = true → s.memFor x.die pa = none →
        exec (.relPerform x id pa) s = .next (s.modCtx x fun c => { c.done id with facc := c.facc.add home true })
        ∧ exec (.atomicAtHome x id op pa n a b none) s = .next (s.modCtx x fun c => { c.done id with facc := c.facc.add home true }))
    ∧ (c.sb.find? (fun z => z.id == id && z.committed) = some l → s.drainWaits x l = false → pa = l.line * 128 →
      (s.memFor x.die pa = none → ∃ t, exec (.lineDrain x id) s = .next t ∧ SameMemory s t ∧ (t.ctx x).facc = c.facc.add home true
        ∧ id ∉ (t.ctx x).counts.ns ∧ ∀ z ∈ (t.ctx x).sb, z.id ≠ l.id)
      ∧ ((s.memFor x.die pa).isSome = true → l.coh = false → s.isDead pa = false → l.mask ≠ 0 → (∀ p ∈ s.mem.flips, p.1 ≠ pa / 512) →
        ∃ t, exec (.lineDrain x id) s = .next t
        ∧ (∀ k, cellsRead t.mem.cells k = if k / 128 = l.line then mergedByte l (k % 128) (cellsRead s.mem.cells k) else cellsRead s.mem.cells k)
        ∧ id ∉ (t.ctx x).counts.ns ∧ ∀ z ∈ (t.ctx x).sb, z.id ≠ l.id)
      ∧ ((s.memFor x.die pa).isSome = true → l.coh = true → s.isDead pa = false → (s.core x.core).l1Find l.line = some q →
        ((q.st = .e ∨ q.st = .m) → ∃ t, exec (.lineDrain x id) s = .next t ∧ SameMemory s t ∧ id ∉ (t.ctx x).counts.ns
          ∧ (∀ z ∈ (t.ctx x).sb, z.id ≠ l.id)
          ∧ ∃ z, (t.core x.core).l1Find l.line = some z ∧ z.st = .m ∧ ∀ i, i < 128 → lineByte z.data i = mergedByte l i (lineByte q.data i))
        ∧ (q.st = .s → exec (.lineDrain x id) s = .next (s.askM x l))))

/-! ### Device events: replies, monitors, barriers, fences, holds, watchdogs (05 R100, 09 R198, 10 R213-R223, 18 R335, 02 R41) -/

/-- R100: a reply that its context waits for writes its register, a pair the even register and then the odd one, and ends the
freeze with the last one; any other reply is discarded. -/
def ReplyEvents (s : State) (x : CtxId) (id : Nat) : Prop :=
  ∀ (r : Reply) (gd : GReg) (v : Word) (w : BitVec 128) (pd : PReg) (b : Bool),
    let f := (s.ctx x).flow
    let running (c : Ctx) : Ctx := { c with flow := { c.flow with
      replies := [], asks := c.flow.asks.filter (·.1 != id), freeze := none, frozen := 0 } }
    (id ∉ f.replies → exec (.replyArrival x id r) s = .next (s.modCtx x fun c => c.done id))
    ∧ (f.replies = [id] → (s.ctx x).loadWaits (fun _ => true) = false →
        exec (.replyArrival x id .done) s = .next (s.modCtx x fun c => running (c.done id))
        ∧ exec (.replyArrival x id (.g gd v)) s = .next (s.modCtx x fun c => running ((c.done id).land (.g gd v)))
        ∧ exec (.replyArrival x id (.pair gd w)) s = .next (s.modCtx x fun c =>
            running (((c.done id).land (.g gd (w.extractLsb' 0 64))).land (.g (gd + 1) (w.extractLsb' 64 64))))
        ∧ exec (.replyArrival x id (.pred pd b)) s = .next (s.modCtx x fun c => running ((c.done id).land (.p pd b))))

/-- R198, R220: a monitor armed at home watches its 64-byte line with no event pending, where the core has room; an event
that nothing caused gives a monitor a pending event. -/
def MonitorEvents (s : State) (x : CtxId) (id : Nat) : Prop :=
  ∀ (mon : BitVec 12) (pa : Nat),
    (s.memFor x.die pa = none → exec (.monitorArm x id mon pa) s = .next (s.modCtx x fun c => c.done id))
    ∧ ((s.memFor x.die pa).isSome = true → (s.ctx ⟨x.core, false⟩).mons.length + (s.ctx ⟨x.core, true⟩).mons.length < 256 →
        exec (.monitorArm x id mon pa) s = .next (({ s with nextId := s.nextId + 1 } : State).modCtx x fun c => { c.done id with
          mons := c.mons.filter (fun (m : Mon) => m.num != mon) ++ [⟨mon, pa / 64, false, false, s.nextId⟩] }))
    ∧ exec (.spuriousMonitorEvent x mon) s = .next (s.modCtx x fun c => { c with
        mons := c.mons.map fun (m : Mon) => if m.num = mon then { m with pending := true } else m })

/-- R217, R219: an arrival leaves NS and counts at its barrier; the last one of a generation returns the count to zero and
begins the next generation. The generation that BARAW waits for is that of its own arrival. At a free barrier an arrival
counts nowhere, and the BARAW that made it takes the barrier-state fault at the entry that follows. -/
def BarrierEvents (s : State) (x : CtxId) (id : Nat) : Prop :=
  ∀ (g : GangId) (bar : BitVec 11) (b : Barrier), 
    (s.barrier? g bar = some b → ∃ t, exec (.barrierArrival g bar (some x) id) s = .next t
      ∧ t.barrier? g bar = some (if b.arrivals + 1 = b.expected.toNat then { b with arrivals := 0, gen := b.gen + 1 }
          else { b with arrivals := b.arrivals + 1 })
      ∧ id ∉ (t.ctx x).counts.ns
      ∧ ((s.ctx x).flow.hold = some (.baraw bar none) → (t.ctx x).flow.hold =
          if (s.ctx x).flow.arrival = id then some (.baraw bar (some b.gen)) else some (.baraw bar none)))
    ∧ (s.barrier? g bar = none → ∃ t, exec (.barrierArrival g bar (some x) id) s = .next t ∧ id ∉ (t.ctx x).counts.ns
      ∧ t.barrier? g bar = none
      ∧ ((s.ctx x).flow.hold = some (.baraw bar none) → (s.ctx x).flow.arrival = id → (s.ctx x).flow.pendingTrap = none →
          (t.ctx x).flow.hold = none
          ∧ (t.ctx x).flow.pendingTrap = some (0x000E, Slot.Y.mask, bar.zeroExtend 64, 0, (s.ctx x).flow.last))
      ∧ ((s.ctx x).flow.arrival ≠ id → (t.ctx x).flow.hold = (s.ctx x).flow.hold))

/-- R213, R223: a FENCE whose waits are over writes gd and FSTAT with what failed since the last one, and the failures begin
again; any other hold whose condition is met ends, that of a BARAW whose barrier is free by now with the barrier-state fault
at the entry that follows; one that has lasted 2^30 dc raises the hold timeout, at the entry of its
segment. -/
def HoldEvents (s : State) (x : CtxId) : Prop :=
  ∀ (gd : GReg) (scope : Scope) (waits : List Nat) (h : Hold),
    let c := s.ctx x
    let free (c : Ctx) : Ctx := { c with flow := { c.flow with hold := none, held := 0 } }
    (c.flow.hold = some (.fence gd scope waits) → s.allDone x waits = true → c.flow.replies = [] →
      ∃ (t : State) (w : Word), exec (.fenceComplete x) s = .next t
        ∧ t = s.modCtx x (fun c => free { c.land (.g gd w) with
            regs := { (c.land (.g gd w)).regs with fstat := w.extractLsb' 0 12 }, facc := {} })
        ∧ w.getLsbD 0 = decide (c.facc.nfail = 0) ∧ w.getLsbD 1 = c.facc.lost ∧ w.getLsbD 2 = c.facc.refused
        ∧ (w.extractLsb' 4 4).toNat = min c.facc.nfail 15 ∧ w.extractLsb' 8 4 = c.facc.dmask ∧ w.toNat < 2 ^ 12)
    ∧ (c.flow.hold = some (.fence gd scope waits) → s.allDone x waits = false → exec (.fenceComplete x) s = .next s)
    ∧ (c.flow.hold = some h → (∀ a b l, h ≠ .fence a b l) →
        (s.holdMet x h = true → (∀ bar g, h = .baraw bar g → (s.barrier? (s.gangIdOf x) bar).isSome = true) →
          exec (.holdRelease x) s = .next (s.modCtx x free))
        ∧ (s.holdMet x h = false → exec (.holdRelease x) s = .next s))
    ∧ (∀ bar g, c.flow.hold = some (.baraw bar (some g)) → s.barrier? (s.gangIdOf x) bar = none → c.flow.pendingTrap = none →
        exec (.holdRelease x) s = .next (s.modCtx x fun c => { free c with flow := { (free c).flow with
          pendingTrap := some (0x000E, Slot.Y.mask, bar.zeroExtend 64, 0, c.flow.last) } }))
    ∧ (c.flow.hold = some h → 2 ^ 30 ≤ c.flow.held → exec (.holdTimeout x) s =
        .next ((s.modCtx x free).syncTrap x 0x0401 Slot.Y.mask 0 0 (if h.before then c.flow.pc else c.flow.last)))
    ∧ (c.flow.held < 2 ^ 30 → exec (.holdTimeout x) s = .next s)

/-- R335, R41: a freeze that has lasted 2^16 dc raises the memory timeout; a context whose cc count has reached 2^WDLOG makes
the watchdog's request once; one that then reaches no resumption point for 2^16 dc loses its segment and ends with FCODE
0x0702. -/
def WatchdogEvents (s : State) (x : CtxId) : Prop :=
  ∀ (z : Freeze),
    let c := s.ctx x
    (c.flow.frozen < 2 ^ 16 → exec (.memoryTimeout x) s = .next s)
    ∧ (2 ^ 16 ≤ c.flow.frozen → c.flow.phase = .run → c.flow.freeze = some z → z.why ≠ .own → (z.why ≠ .reply ∨ c.flow.asEntry = false) →
        exec (.memoryTimeout x) s = .next ((s.logTimeout x 0x0402).syncTrap x 0x0402 z.slot.mask z.tval 0 z.bundle))
    ∧ (c.task.isSome = true → c.sys.wdog = false → c.flow.phase = .run → 2 ^ s.wdlog x ≤ c.wdc →
        ∃ t, exec (.progressWatchdog x) s = .next t ∧ (t.ctx x).sys = { c.sys with wdog := true } ∧ (t.ctx x).wdogAt = some s.dc
          ∧ (t.ctx x).regs.loop.drn = (c.regs.loop.drn || c.regs.loop.act != 0) ∧ t.mem = s.mem)
    ∧ (c.wdc < 2 ^ s.wdlog x → exec (.progressWatchdog x) s = .next s)
    ∧ (∀ d, c.flow.phase = .run → c.wdogAt = some d → d + 2 ^ 16 ≤ s.dc → exec (.hardWatchdog x) s =
        .next (((s.logTimeout x 0x0702).abort x).endTask x 6 0x0702 (some c.entryPc)))
    ∧ (c.wdogAt = none → exec (.hardWatchdog x) s = .next s)

/-- The device events of replies, monitors and barriers, in every state. -/
def Obligations.SynchronisationEvents : Prop :=
  ∀ (s : State) (x : CtxId) (id : Nat), ReplyEvents s x id ∧ MonitorEvents s x id ∧ BarrierEvents s x id

/-- The device events of fences, holds and watchdogs, in every state. -/
def Obligations.HoldAndWatchdogEvents : Prop := ∀ (s : State) (x : CtxId), HoldEvents s x ∧ WatchdogEvents s x

/-! ### Device events: engine work and copies (08 R157-R181, 20 R353) -/

/-- R166, R172, R174, R176, R157: what the device events of engine work do: the last block of a fill ends
it, and its slot is valid or bad; a drain writes its rows, each where it was formed for and nowhere else, an earlier drain of the
same bank first; an array dc goes
to the one context whose work is ready, or to the one the engine pointer names; work that waits for pages goes on once
they are settled; a page-landed message writes its index and the count, a dc later where their banks are taken. -/
def Obligations.EngineEvents : Prop :=
  ∀ (s : State) (x : CtxId) (core : BitVec 8) (ws : CReg) (id row bank row0 : Nat) (page : BitVec 16) (j : Job) (d : Drain) (w : Work)
    (rows : List (List (Nat × Nat))) (coh : Bool) (tid : BitVec 24) (items : List Item),
    let c := s.ctx x
    let k := s.core core
    cellsWf s.mem.cells = true → cellsWf k.sp = true →
    -- a fill ends
    (s.job? id = some j → ∃ t, exec (.mldwFillLand x ws id) s = .next t ∧ t.job? id = none ∧ id ∉ (t.ctx x).counts.nt
        ∧ ((c.wslot ws).fill = id → (c.wslot ws).state = 1 → (t.ctx x).wslot ws = (c.wslot ws).landed j
            ∧ (((t.ctx x).wslot ws).state = 2 ∨ ((t.ctx x).wslot ws).state = 3) ∧ (j.err = true → ((t.ctx x).wslot ws).state = 3))
        ∧ ((c.wslot ws).fill ≠ id → (t.ctx x).wslot ws = c.wslot ws))
    -- rows of drains
    ∧ (c.drains.find? (fun z => z.id == id) = some d → d.tgt = .sp bank row0 → row < 63 → row ∉ d.done → d.done.length < 63 →
      let n := colBytes d.fmt.width
      let old := (List.range n).map fun i => s.engByte x.core bank (row0 + row) i
      let first : Prop := ∀ q ∈ s.drainsDue x.core, q.1 < id → ∀ b ∈ q.2, (bankMask bank n).getLsbD b = false
      (¬ first → exec (.scratchpadDrainRow x id row) s =
          .next { s with agenda := s.agenda ++ [(s.dc, .ev (.scratchpadDrainRow x id row))] })
      ∧ (first → s.banksTaken x.core (bankMask bank n) = true → exec (.scratchpadDrainRow x id row) s =
          .next { s with agenda := s.agenda ++ [(s.dc + 1, .ev (.scratchpadDrainRow x id row))] })
      ∧ (first → s.banksTaken x.core (bankMask bank n) = false → ∃ t, exec (.scratchpadDrainRow x id row) s = .next t ∧ t.mem = s.mem
        ∧ (t.core x.core).sp = cellsWriteAll (s.core x.core).sp ((d.rowBytes row old fun _ => 0).zipIdx.map fun z => (opPos bank (row0 + row) z.2, z.1))
        ∧ (t.ctx x).drains.find? (fun z => z.id == id) = some { d with done := d.done ++ [row] }
        ∧ (s.dc + 1, Act.ev (.scratchpadDrainRow x id (row + 1))) ∈ t.agenda))
    ∧ (c.drains.find? (fun z => z.id == id) = some d → d.tgt = .mem rows coh tid → row ∉ d.done → d.done.length < 63 → d.acc = false →
      let rs := rows.getD row []
      let pas := rs.flatMap fun r => (List.range r.2).map (r.1 + ·)
      let sh := d.shifts.getD row []
      s.olderOwn x d.ord (rs ++ sh.eraseDups.map fun a => (a, 1)) = false → (sh = [] ∨ sh.length = 64) → NoKvCopies s →
      (∀ a ∈ pas, (s.memFor x.die a).isSome = true ∧ ringByte a = false) →
      (∀ a ∈ pas ++ sh, s.dirEntry? (a / 128) = none ∧ s.isDead a = false ∧ ∀ p ∈ s.mem.flips, p.1 ≠ a / 512) →
      (∀ a ∈ sh, a / 512 ∉ s.mem.poison) →
      ∃ t, exec (.memoryDrainRow x id row) s = .next t
        ∧ t.mem.cells = cellsWriteAll s.mem.cells (pas.zip (d.rowBytes row [] fun i =>
            if sh.isEmpty then 0 else (cellsRead s.mem.cells (sh.getD i 0)).toInt))
        ∧ (t.ctx x).drains.find? (fun z => z.id == id) = some { d with done := d.done ++ [row] })
    -- the array
    ∧ ((k.stepDc = some s.dc ∨ k.engDc = some s.dc) → exec (.engineDc core) s = .next s)
    ∧ (k.stepDc ≠ some s.dc → k.engDc ≠ some s.dc →
      (k.ctx0.engineReady = false → k.ctx1.engineReady = false → exec (.engineDc core) s = .next s)
      ∧ (k.ctx0.engineReady = true → k.ctx1.engineReady = false → exec (.engineDc core) s = .next (s.engineStep ⟨core, false⟩))
      ∧ (k.ctx0.engineReady = false → k.ctx1.engineReady = true → exec (.engineDc core) s = .next (s.engineStep ⟨core, true⟩))
      ∧ (k.ctx0.engineReady = true → k.ctx1.engineReady = true → exec (.engineDc core) s =
          .next ((s.modCore core fun k => { k with eng := !k.eng }).engineStep ⟨core, k.eng⟩)))
    ∧ (c.work = some w → w.phase = .waiting items → w.deep = false → (∀ v ∈ c.w.toList, v.pend = false) →
      ((∀ i ∈ items, s.itemSettled i = true) → ∃ t, exec (.piccoloResidencyResume x) s = .next t ∧ t.mem = s.mem
        ∧ (t.ctx x).work = some { w with phase := if w.desc.isEmpty then .ready else .running })
      ∧ ((∃ i ∈ items, s.itemSettled i = false) → ∃ t, exec (.piccoloResidencyResume x) s = .next t ∧ (t.ctx x).work = some w))
    ∧ (let n := (s.engByte core bank row 96).toNat + 2 ^ 8 * (s.engByte core bank row 97).toNat
      let banks := (bank + 1) % 64 :: if n < 76 then [(bank + (104 + 2 * n) / 64) % 64] else []
      (s.copyYields core banks = true → exec (.pageLanded core bank row page) s =
          .next { s with agenda := s.agenda ++ [(s.dc + 1, .ev (.pageLanded core bank row page))] })
      ∧ (row < 2048 → s.copyYields core banks = false → ∃ t, exec (.pageLanded core bank row page) s = .next t ∧ t.mem = s.mem ∧ ∀ i, i < 256 → t.engByte core bank row i =
        if i = 96 then BitVec.ofNat 8 (n + 1) else if i = 97 then BitVec.ofNat 8 ((n + 1) / 2 ^ 8)
        else if n < 76 ∧ i = 104 + 2 * n then page.extractLsb' 0 8 else if n < 76 ∧ i = 105 + 2 * n then page.extractLsb' 8 8
        else s.engByte core bank row i))

/-- R204, R206, R240: a block of a copy from memory of its own die is read at home, where nothing of its context's is still to be
performed before it, and kept for its target; one for memory is written at home. -/
def MemoryBlocks : Prop :=
  ∀ (s : State) (id p b va due : Nat) (tensor : BitVec 24) (segs : List PSeg) (pas : List Nat) (j : Job) (bs : List Byte),
    let n := min 512 (j.len - 512 * b)
    s.job? id = some j → j.kind = .copy → b < (j.len + 511) / 512 → segsAt segs (512 * b) n = some pas → cellsWf s.mem.cells = true →
    (∀ a ∈ pas, homeDie a = j.x.die ∧ (s.memFor j.x.die a).isSome = true ∧ s.dirEntry? (a / 128) = none ∧ s.isDead a = false
      ∧ a / 512 ∉ s.mem.poison ∧ ∀ q ∈ s.mem.flips, q.1 ≠ a / 512) →
    (j.src = .mem tensor va segs → j.dst = .sp p → b ∈ j.todo → b ∉ j.held → (∀ z ∈ j.nominal, z.1 ≠ b) → s.srcWaits j pas = false →
      ∃ t z, exec (.copyBlockIssue j.x id b) s = .next t ∧ t.mem.cells = s.mem.cells ∧ t.job? id = some z
        ∧ z.todo = j.todo.filter (· != b) ∧ z.buf = j.buf ++ bytesAt (512 * b) (pas.map (cellsRead s.mem.cells))
        ∧ z.landed = j.landed ∧ z.err = j.err ∧ ∃ due, z.due = j.due ++ [(b, due)] ∧ s.dc ≤ due)
    ∧ (j.src = .sp p → j.dst = .mem tensor va segs → j.st = .running → j.todo ≠ [] → b ∉ j.landed → b ∉ j.held → (∀ z ∈ j.far, z.1 ≠ b) →
      j.due.find? (fun z => z.1 == b) = some (b, due) → due ≤ s.dc → s.olderOwn (s.jobCtx j) id (pas.map fun a => (a, 1)) = false →
      (∀ a ∈ pas, ringByte a = false) → NoKvCopies s →
      (j.buf.filter fun z => decide (512 * b ≤ z.1 ∧ z.1 < 512 * b + n)) = bytesAt (512 * b) bs →
      ∃ t z, exec (.copyBlockLand j.x id b) s = .next t ∧ t.mem.cells = cellsWriteAll s.mem.cells (pas.zip bs) ∧ t.job? id = some z
        ∧ z.landed = j.landed ++ [b] ∧ z.todo = j.todo)

/-- R204, R353, R161: a block of a copy within the scratchpad is read when it issues and written when it is due, with its job's mark
of the landing; where the array or a drain row has its banks it waits for a dc. -/
def ScratchpadBlocks : Prop :=
  ∀ (s : State) (x : CtxId) (id p q b due : Nat) (j : Job) (bs : List Byte),
    cellsWf s.mem.cells = true → cellsWf (s.core j.x.core).sp = true →
    (s.job? id = some j → j.kind = .copy → j.src = .sp p → j.dst = .sp q → b < (j.len + 511) / 512 →
      let n := min 512 (j.len - 512 * b)
      (b ∈ j.todo → b ∉ j.held → (∀ z ∈ j.nominal, z.1 ≠ b) → s.copyYields j.x.core (banksOf (p + 512 * b) n) = true →
        ∃ t, exec (.copyBlockIssue x id b) s = .next t ∧ t.mem = s.mem ∧ (s.dc + 1, Act.ev (.copyBlockIssue x id b)) ∈ t.agenda
          ∧ (t.job? id).map (·.todo) = some j.todo)
      ∧ (b ∈ j.todo → b ∉ j.held → (∀ z ∈ j.nominal, z.1 ≠ b) → s.copyYields j.x.core (banksOf (p + 512 * b) n) = false →
        ∃ t, exec (.copyBlockIssue x id b) s = .next t ∧ (s.dc + 1, Act.ev (.copyBlockLand j.x id b)) ∈ t.agenda
        ∧ t.job? id = some { j with
            todo := j.todo.filter (· != b), due := j.due ++ [(b, s.dc + 1)], nominal := j.nominal ++ [(b, s.dc + 1)]
            buf := j.buf ++ bytesAt (512 * b) (s.spPeek j.x.core (p + 512 * b) (min 512 (j.len - 512 * b))) })
      ∧ (j.st = .running → j.todo ≠ [] → b ∉ j.landed → j.due.find? (fun z => z.1 == b) = some (b, due) → due ≤ s.dc → (∀ z ∈ j.far, z.1 ≠ b) →
          s.copyYields j.x.core (banksOf (q + 512 * b) n) = false →
          (j.buf.filter fun z => decide (512 * b ≤ z.1 ∧ z.1 < 512 * b + min 512 (j.len - 512 * b))) = bytesAt (512 * b) bs →
          ∃ t, exec (.copyBlockLand x id b) s = .next t ∧ t.mem = s.mem
            ∧ (t.core j.x.core).sp = cellsWriteAll (s.core j.x.core).sp (bytesAt (q + 512 * b) bs)
            ∧ ∃ z, t.job? id = some z ∧ z.landed = j.landed ++ [b] ∧ z.todo = j.todo))

/-- The blocks of a copy, within the scratchpad and from and to memory. -/
def Obligations.CopyBlockEvents : Prop := ScratchpadBlocks ∧ MemoryBlocks

/-! ### Device events: queues, launches, tasks (02 R27-R41, 18 R327-R337, 22 R403) -/

/-- R129, R327, R330, R333, R35: a SPAWN command enters its FIFO or waits, counted, while that is full; a doorbell makes the
commands up to RPROD visible, and does nothing for a queue that is not enabled; the dispatcher takes no command before it
is due, and takes the first that can be taken of those offered, in the order of service; a refused command leaves a launch
that only completes, an accepted one a launch of its block. -/
def Obligations.QueueEvents : Prop :=
  ∀ (s u v : State) (x : CtxId) (id lid : Nat) (d : BitVec 2) (q : BitVec 4) (lba : BitVec 57) (dbg : Bool) (cookie : Word) (bs : List Byte)
    (offers : List Offer) (desc : BitVec 512) (c : Cmd) (act : Act),
    let fifo (s : State) (d : BitVec 2) : List SpawnCmd := (s.die d).fifo[q.toNat]'q.isLt
    ((fifo s x.die).length < 16 → ∃ t r, exec (.spawnPost x id q lba dbg cookie) s = .next t
        ∧ fifo t x.die = fifo s x.die ++ [⟨lba, dbg, cookie, x, id, r⟩] ∧ id ∉ (t.ctx x).counts.ns ∧ t.mem = s.mem)
    ∧ (16 ≤ (fifo s x.die).length → exec (.spawnPost x id q lba dbg cookie) s =
        .next (s.modDie x.die fun z => { z with spawnWait := z.spawnWait ++ [(q, ⟨lba, dbg, cookie, x, id, 0⟩)] }))
    ∧ (∀ i ∈ [(Instr.doorbell d q, Event.doorbell d q), (Instr.schdb d q, Event.schdb d q)],
        s.queueDesc d q (.ev i.2) = (u, .got bs) →
        let b := BitVec.ofNat 512 (bytesToNat bs)
        (b.getLsbD 2 = false → exec i.1 s = .next u)
        ∧ (b.getLsbD 2 = true → 4 ≤ (b.extractLsb' 323 4).toNat → 4 ≤ (b.extractLsb' 451 4).toNat →
            (b.extractLsb' 307 16 - b.extractLsb' 291 16).toNat ≤ 2 ^ (b.extractLsb' 323 4).toNat →
            ∃ t, exec i.1 s = .next t ∧ t.mem = u.mem ∧ (t.die d).visible[q.toNat]'q.isLt = b.extractLsb' 307 16
              ∧ (t.die d).rcons = (u.die d).rcons ∧ fifo t d = fifo u d))
    ∧ (s.commandDue d = false → exec (.takeCommand d) s = .next s)
    ∧ (s.commandDue d = true →
        (List.range 16).foldl (fun (acc : State × List Offer) q =>
          match acc.1.queueOffer d (BitVec.ofNat 4 q) (.ev (.takeCommand d)) with
          | (s, some o) => (s, acc.2 ++ [o])
          | (s, none) => (s, acc.2)) (s, []) = (u, offers) →
        exec (.takeCommand d) s = .next (u.takeFirst d (.ev (.takeCommand d)) (sortBy (u.offerKey d) offers)))
    ∧ (∀ f rest, s.commandDue d = true → fifo s d = f :: rest → (s.die d).visible[q.toNat]'q.isLt = (s.die d).rcons[q.toNat]'q.isLt →
        (∀ p : BitVec 4, p ≠ q → (s.die d).fifo[p.toNat]'p.isLt = [] ∧ (s.die d).visible[p.toNat]'p.isLt = (s.die d).rcons[p.toNat]'p.isLt) →
        s.queueDesc d q (.ev (.takeCommand d)) = (u, .got bs) → (u.die d).rcons = (s.die d).rcons → (u.die d).visible = (s.die d).visible →
        (u.die d).fifo = (s.die d).fifo → (BitVec.ofNat 512 (bytesToNat bs)).extractLsb' 291 16 = (s.die d).rcons[q.toNat]'q.isLt → let b := BitVec.ofNat 512 (bytesToNat bs)
        ∀ t, (u.takeFrom d q b ⟨f.lba, f.dbg, f.cookie, false, b.getLsbD 2 && b.getLsbD 3, false⟩ (.ev (.takeCommand d))).2 = some t →
          exec (.takeCommand d) s = .next t)
    ∧ (c.bad = true → ∃ t l, s.takeFrom d q desc c act = (s, some t) ∧ t.work.launches = s.work.launches ++ [l] ∧ l.cookie = c.cookie
        ∧ l.errMark = true ∧ (⟨.launch l.lid, 0⟩ : Completing) ∈ t.work.completing)
    ∧ (c.bad = false → c.lba.toNat % 64 = 0 → s.readBlock d (s.queueRoot d q) c.lba.toNat act = (u, .away) → s.takeFrom d q desc c act = (u, none))
    ∧ (∀ (v w z : State) (b h : BitVec 512), c.bad = false → c.lba.toNat % 64 = 0 → s.readBlock d (s.queueRoot d q) c.lba.toNat act = (u, .got b) →
        u.readBlock d (s.queueRoot d q) (64 * (b.extractLsb' 0 51).toNat) act = (v, .got h) →
        v.sysClear d (s.queueRoot d q) c.lba.toNat 64 act = (w, true) → w.removeCmd d q (dPri desc) desc c.ring act = (z, lid) →
        let b' := (b &&& ~~~(BitVec.ofNat 512 ((2 ^ 24 - 1) * 2 ^ 360))) ||| BitVec.ofNat 512 (lid * 2 ^ 360)
        let open_ : Prop := c.isOpen = true ∧ h.getLsbD 1 = true
        ∃ (y : State) (l : Launch), (open_ → (∀ m, blockBad b' m = false) → (s.takeFrom d q desc c act).2 = some (y.addLaunch l false))
          ∧ ((¬ open_ ∨ (∀ m, blockBad b' m = true)) → ∃ k : Launch, (s.takeFrom d q desc c act).2 = some (y.addLaunch k true) ∧ k.lid = lid)
          ∧ l.lid = lid ∧ l.lba = c.lba ∧ l.dbg = c.dbg ∧ l.cookie = c.cookie ∧ l.die = d ∧ l.queue = q ∧ l.block = b' ∧ l.waves = blkWcnt b')
    ∧ (∀ l : Launch, (s.addLaunch l false).work.launches = s.work.launches ++ [l]
        ∧ (s.addLaunch l false).work.completing = s.work.completing)
    ∧ (s.removeCmd d q (dPri desc) desc false act = (v, lid) → lid = d.toNat * 2 ^ 22 + (s.die d).lidCount.toNat
        ∧ (v.die d).lidCount = (s.die d).lidCount + 1 ∧ (v.die d).lastCmd = some s.dc)

/-- R38, R39, R328: a unit that completes writes its word, V, ERR, LID and the faults; with an entry to post it goes on to
that, else to its last actions. An entry waits while the completion ring is full, and while an L1 holds its line; where CLOG is
invalid it is dropped. -/
def Obligations.CompletionEvents : Prop :=
  ∀ (s u u1 u2 v : State) (w : UnitRef) (r : Report) (bs : List Byte) (o : SysWrote),
    (s.work.completing.find? (fun c => c.unit == w && c.stage == 0) ≠ none → s.report w = some r →
      let next (s : State) : State := if r.e then s.setStage w 1 else s.finishUnit w r
      (r.w = false → exec (.unitCompletion w) s = .next (next s))
      ∧ (r.w = true → s.sysWrite r.l.die r.l.root r.word (natToBytes r.value.toNat 8) (.ev (.unitCompletion w)) = (v, .done) →
          exec (.unitCompletion w) s = .next (next v)))
    ∧ (r.value.getLsbD 63 = true ∧ r.value.getLsbD 62 = r.err ∧ (r.value.extractLsb' 16 24).toNat = r.l.lid % 2 ^ 24
        ∧ (r.value.extractLsb' 0 16).toNat = min r.nfault 65535 ∧ r.value.extractLsb' 40 22 = 0)
    ∧ (s.work.completing.find? (fun c => c.unit == w && c.stage == 1) ≠ none → s.report w = some r →
      s.queueDesc r.l.die r.l.queue (.ev (.completionEntryPost w)) = (u, .got bs) →
      let b := BitVec.ofNat 512 (bytesToNat bs)
      let clog := (b.extractLsb' 451 4).toNat
      let prod := b.extractLsb' 435 16
      let used := (prod - b.extractLsb' 419 16).toNat
      let at_ := (b.extractLsb' 455 57).toNat + 16 * (prod.toNat % 2 ^ clog)
      let act : Act := .ev (.completionEntryPost w)
      (clog < 4 → exec (.completionEntryPost w) s = .next ((u.queueError r.l.die r.l.queue).finishUnit w r))
      ∧ (4 ≤ clog → used = 2 ^ clog → exec (.completionEntryPost w) s = .next u)
      ∧ (4 ≤ clog → used ≠ 2 ^ clog → u.sysClear r.l.die (u.queueRoot r.l.die r.l.queue) at_ 16 act = (v, false) →
          exec (.completionEntryPost w) s = .next v)
      ∧ (4 ≤ clog → used ≠ 2 ^ clog →
          u.sysClear r.l.die (u.queueRoot r.l.die r.l.queue) at_ 16 act = (u1, true) →
          u1.sysClear r.l.die (u1.queueRoot r.l.die r.l.queue) (u1.queueAddr r.l.die r.l.queue) 64 act = (u2, true) →
          u2.sysWrite r.l.die (u2.queueRoot r.l.die r.l.queue) at_
            (natToBytes r.entry 16) act = (v, o) →
          exec (.completionEntryPost w) s = .next ((((v.modDie r.l.die fun z => { z with
              cprod := z.cprod.set r.l.queue.toNat (prod + 1) r.l.queue.isLt }).putDesc r.l.die r.l.queue b 435 16 (prod.toNat + 1) act).1).finishUnit w r)))

/-- R331, R332, R336, R403: an admission that is not due does nothing; one of the only head, on a die that no other gang has
reserved, places its gang or passes it over: a gang of one task, with a context free for it and no record waiting, gets its record,
with a carve-out; a head passed over long enough reserves the die that it would be offered; the effective priority
of a solo task rises by one for each 2^20 dc of waiting, to 3 at most; a duty takes effect in a dc that is a multiple of 16,
and only there; the thermal duty falls by one in a core whose sensor, a reading that the outside gives (log 65), stands at the hot threshold or above,
and rises by one below the cool one, between 1 and 16. -/
def AdmissionEvents (s : State) : Prop :=
  ∀ (x : CtxId) (d dd : BitVec 2) (g : GangId) (h : Head) (p : Head × Nat) (k : Nat) (t : Task) (core : BitVec 8),
    (s.admitDue d = false → exec (.admitGang d) s = .next s)
    ∧ (s.admitDue d = true → s.heads d = [h] → s.offerDie h = some dd → s.reservedFor dd h.gang = true →
        (∀ v, s.tryPlace h dd = some v → exec (.admitGang d) s = .next v) ∧ (s.tryPlace h dd = none → exec (.admitGang d) s = .next (s.passOver h)))
    ∧ (∀ (l : Launch) (w : Task), s.admitDue d = true → s.heads d = [h] → s.offerDie h = some dd → s.reservedFor dd h.gang = true → h.back = false →
        s.launch? h.gang.lid = some l → blkSize l.block = 1 → (∀ r ∈ s.work.reserves, r.gang ≠ h.gang) → s.readySolos dd = [] →
        let n := s.newGang l h.gang dd
        n.task? s.work.nextTask = some w → n.seats dd w true ≠ [] →
        ∃ v spb, exec (.admitGang d) s = .next v ∧ v.task? s.work.nextTask = some { w with spb := spb } ∧ (v.gang? h.gang).isSome = true)
    ∧ (s.reservationDue g = false → exec (.gangReservation g) s = .next s)
    ∧ (s.reservationDue g = true → s.passedHead g = some p → s.wouldOffer p.1 = some d →
        exec (.gangReservation g) s = .next { s with work := { s.work with reserves := s.work.reserves ++ [⟨g, d⟩] } })
    ∧ (s.task? k = some t → (t.state = 1 ∨ t.state = 4) → s.soloTask k = true → t.effPri.toNat < min 3 (t.pri.toNat + (s.dc - t.since) / 2 ^ 20) →
        ∃ v r, exec (.priorityPromotion k) s = .next v ∧ v.task? k = some r
          ∧ r = { t with effPri := BitVec.ofNat 2 (min 3 (t.pri.toNat + (s.dc - t.since) / 2 ^ 20)) })
    ∧ (s.dc % 16 = 0 → exec (.dutyTakesEffect x) s = .next (s.modCtx x fun c => { c with sys := { c.sys with duty := s.dutyOf x } }))
    ∧ (s.dc % 16 ≠ 0 → exec (.dutyTakesEffect x) s = .next s)
    ∧ (∃ v, exec (.thermalDutyUpdate core) s = .next v ∧
        let deg := Config.freeNat .sensor s.fresh % 256
        let old := (s.core core).margin.thermal.toNat
        let op := s.opTable (coreDie core)
        (1 ≤ old → old ≤ 16 → (v.core core).margin.thermal.toNat =
          if op.hot ≤ deg then max 1 (old - 1) else if deg < op.cool then min 16 (old + 1) else old))

/-- R29, R30, R34, R50, R65: a solo task without an image is picked up into a context that then runs it, at its entry, at user
level, g0 to g63 and k1 to k15 zero, RDMAX one more than the RDM of its launch block, a cause that waited with it; at its write-back its record keeps the state that its leaving gives, its entry
and its image, and its context is free; released, its record ends and its context is free. -/
def Obligations.TaskEvents : Prop :=
  ∀ (s z u : State) (x : CtxId) (k rdm : Nat) (t : Task) (fb : BitVec 57) (fs : BitVec 40) (why : Leave) (st : BitVec 4) (g : Gang),
    let c := s.ctx x
    (s.task? k = some t → t.key = k → (t.state = 1 ∨ t.state = 4) → t.img = false → t.loopw = 0 → t.recipe = none → c.task = none →
      (s.die x.die).sramDown = false → s.ctxOfTask k = none → s.flatHeader x t (.ev (.pickup x k)) = (z, some (fb, fs)) →
      z.pickupRdm x t (.ev (.pickup x k)) = (u, some rdm) → u.task? k = some t →
      ∃ v, exec (.pickup x k) s = .next v ∧ (v.task? k).map (·.state) = some 2 ∧ x.core ∈ v.occ
        ∧ (let n := v.ctx x
           n.task = some k ∧ n.regs.rdmax = BitVec.ofNat 3 (rdm + 1) ∧ n.flow.pendingTrap = t.pendingTrap ∧ n.flow.pc = t.entry ∧ n.flow.asEntry = true ∧ n.flow.phase = .run ∧ n.sys.pl = false ∧ n.sys.flatb = fb
             ∧ n.sys.flats = fs ∧ (∀ i : GReg, n.readG i = 0) ∧ (∀ i : KReg, n.readK i = if i = 0 then BitVec.allOnes 64 else 0) ∧ n.regs.loop.act = 0))
    ∧ (c.flow.phase = .leaving why → c.task = some k → s.saveReady x = true → s.soloTask k = true → c.locks = [] →
      s.saveImage x c.sys.ctxb.toNat (.ev (.writeBack x)) = (u, .done) → u.ctx x = c → u.task? k = some t → u.soloTask k = true →
      ∃ v r, exec (.writeBack x) s = .next v ∧ (v.ctx x).task = none ∧ v.task? k = some r ∧ r.img = true ∧ r.entry = c.entryPc
        ∧ r.state = (match why with
          | .yield => 1
          | .preempt => if t.waits = [] then 4 else 3
          | .miss | .parkedGang => if t.waits = [] then 1 else 3))
    ∧ (c.flow.phase = .ending st → c.task = some k → c.ns = 0 → c.nc = 0 → c.nt = 0 → s.soloTask k = true → c.locks = [] →
      s.task? k = some t → t.recipe = none →
      ∃ v r, exec (.taskRelease x) s = .next v ∧ (v.ctx x).task = none ∧ v.task? k = some r ∧ r.state = st ∧ ∀ j ∈ v.jobs, j.task ≠ k)
    ∧ (s.gangOf x = some g → g.solo = true → c.flow.phase = .run → c.task.isSome = true →
      ∃ v, exec (.preemptRequest x) s = .next v ∧ (v.ctx x).sys = { c.sys with pre := true } ∧ v.mem = s.mem)

/-- R337, R127: a migration request names the first core of the die that is usable and runs nothing, those of its contexts that run and
are in an active level drain for it, and it does nothing where there is none; a migration that the core does not wait for does nothing; once both contexts are ready, they move with the whole
scratchpad. -/
def MigrationEvents (s : State) : Prop :=
  ∀ (u : State) (src dst : BitVec 8),
    let free (e : BitVec 8) : Bool := e != src && s.coreUsable e && (s.core e).ctx0.task.isNone && (s.core e).ctx1.task.isNone
    let xs : List CtxId := [⟨src, false⟩, ⟨src, true⟩]
    (src ∈ s.occ → (s.core src).migrate = none →
      (∀ e, (dieCores (coreDie src)).find? free = some e →
        ∃ v, exec (.migrationRequest src) s = .next v ∧ (v.core src).migrate = some e ∧ v.mem = s.mem
          ∧ ∀ b, let c := s.ctx ⟨src, b⟩
            (v.ctx ⟨src, b⟩) = { c with regs := { c.regs with loop := { c.regs.loop with
              drn := c.regs.loop.drn || (c.runs && c.regs.loop.act != 0) } } })
      ∧ ((dieCores (coreDie src)).find? free = none → exec (.migrationRequest src) s = .next s))
    ∧ ((s.core src).migrate ≠ some dst → exec (.migration src dst) s = .next s)
    ∧ ((s.core src).migrate = some dst → src ≠ dst → s.migrationDue src = true → (∀ x ∈ xs, s.moveReady x = true) →
      (xs.foldl (fun s x => s.moveServed x) (s.landSp src)).moveImages (.ev (.migration src dst)) xs = (u, true) →
      ∃ v, exec (.migration src dst) s = .next v ∧ (v.core dst).sp = (u.core src).sp
        ∧ ∀ b, (u.ctx ⟨src, b⟩).task.isSome = true → (v.ctx ⟨dst, b⟩).task = (u.ctx ⟨src, b⟩).task ∧ (v.ctx ⟨src, b⟩).task = none)

/-- Admission, priority, duty and migration, in every state. -/
def Obligations.SchedulerEvents : Prop := ∀ s : State, AdmissionEvents s ∧ MigrationEvents s

/-! ### Device events: residency, power, resets (12 R252, 20 R368-R374, 02 R49, 14 R276, 22 R397-R409) -/

/-- R373: rewriting a tensor's leaves leaves no translation of its pages in any TLB of the device. -/
def LeavesRewritten (s : State) (t : Tensor) : Prop :=
  ∀ (tier : Nat) (fs : List (Nat × Nat)),
    let v := s.tensorLeaves t tier fs
    let hit (e : TlbEntry) : Prop := e.spid = rootSpid t.root ∧ rangesMeet e.page e.size t.base (4096 * t.npages) = true
    (∀ d, ∀ e ∈ (v.die d).l2tlb, ¬ hit e) ∧ ∀ core, ∀ e ∈ (v.core core).tlb, ¬ hit e

/-- R373, R370, R371: the finish of an action on a tensor, once nothing in flight has translated it and no L1 owns its lines: a drop
frees every frame and gives the drop depth, a compression keeps the bytes and the frames that its size takes, a spill moves the
bytes to the tier below, out of the pool onto the HBM copy; the leaves then have TIER 5, 4 or the new tier, the TLBs are told, and the
frames given up return. -/
def ActionFinishes (s : State) : Prop :=
  ∀ (u : State) (id : BitVec 24) (t : Tensor) (tier act : BitVec 3) (f g n : Nat) (fs : List (Nat × Nat)),
    let me : Instr := .residencyActionFinish (.tensor id)
    s.tensor? id = some t → t.st ≠ 0 →
    (t.moving = none → exec me s = .next s)
    ∧ (t.moving = some (tier, act) →
      (s.framesBusy t.frames = true → exec me s = .next (s.later (.ev (.residencyActionFinish (.tensor id)))))
      ∧ (s.framesBusy t.frames = false → s.clearLines true (.ev (.residencyActionFinish (.tensor id))) (s.ownedLines t.frames) = none →
        (∀ p ∈ s.mem.flips, frameHas t.frames (p.1 / 8) = false) →
        (act = 3 → ∃ w : State, exec me s = .next (((w.tensorLeaves t 5 []).releaseFrames (t.frames ++ t.lower)).logAction t.home id 3 tier.toNat 5)
          ∧ w.tensor? id = some { t with
              st := 6, rdep := s.dropDepth t, frames := [], lower := [], cdata := [], cpois := [], csize := 0, ctier := 0, moving := none
              dirty := false })
        ∧ (act = 2 → let size := t.tried.getD t.size
          ∃ (w : State) (z : Tensor), exec me s = .next (((w.tensorLeaves t 4 []).releaseFrames (frameDrop t.frames ((size + 4095) / 4096))).logAction
              t.home id 2 tier.toNat tier.toNat)
            ∧ w.tensor? id = some z ∧ z.st = 5 ∧ z.csize = size ∧ z.ctier = tier ∧ z.moving = none
            ∧ z.frames = frameTake t.frames ((size + 4095) / 4096)
            ∧ z.cdata = (t.frames.flatMap fun r => s.peek (r.1 * 4096) (r.2 * 4096)).take t.alloc)
        ∧ (act = 1 → tier = 0 → ∃ w : State, w.tensor? id = some { t with
              st := 2, dirty := false, frames := t.lower, lower := [], cdata := [], cpois := [], csize := 0, ctier := 0, moving := none }
            ∧ exec me s = .next ((((w.tensorLeaves t 1 t.lower).releaseFrames t.frames).logAction t.home id 1 0 1).wakeItem (.tensor id) none))
        ∧ (act = 1 → tier ≠ 0 → s.takeFrames t.home (tier.toNat + 1) (frameCount t.frames) = none →
            exec me s = .next ((s.wantRoom t.home (tier.toNat + 1)).later (.ev (.residencyActionFinish (.tensor id)))))
        ∧ (act = 1 → tier ≠ 0 → t.st ≠ 5 → s.takeFrames t.home (tier.toNat + 1) (frameCount t.frames) = some (fs, u) →
            ∃ w : State, w.tensor? id = some { t with
                st := BitVec.ofNat 4 (tier.toNat + 2), dirty := false, frames := fs, lower := [], cdata := [], cpois := [], csize := 0
                ctier := 0, moving := none }
              ∧ exec me s = .next (((w.tensorLeaves t (tier.toNat + 1) fs).releaseFrames t.frames).logAction t.home id 1 tier.toNat (tier.toNat + 1))
              ∧ (t.frames = [(f, n)] → fs = [(g, n)] → (f + n ≤ g ∨ g + n ≤ f) → (∀ q ∈ s.mem.dead, frameHas t.frames q = false) →
                  cellsWf s.mem.cells = true →
                  ∀ i, i < 4096 * n → cellsRead w.mem.cells (g * 4096 + i) = cellsRead s.mem.cells (f * 4096 + i)))))

/-- R252, R372: a refill gives a tensor frames, those of HBM or of the tier that it was compressed in, and no task waits for it any more;
where the tier is full it asks for room and tries again. -/
def Refills (s : State) : Prop :=
  ∀ (u : State) (id : BitVec 24) (t : Tensor) (f : List (Nat × Nat)),
    s.tensor? id = some t → t.moving = none → s.framesBusy t.frames = false →
    let tier := if t.st = 5 ∧ t.ctier = 0 then 0 else 1
    ((t.st = 5 ∧ 0 < t.csize) ∨ ((t.st = 3 ∨ t.st = 4) ∧ t.csize = 0 ∧ t.refill ≠ some 0)) →
    (s.takeFrames t.home tier t.npages = some (f, u) →
      ∃ v z, exec (.refillComplete (.tensor id)) s = .next v ∧ v.tensor? id = some z ∧ z.st = BitVec.ofNat 4 (tier + 1)
        ∧ z.frames = f ∧ z.refill = none ∧ ∀ k ∈ v.work.tasks, Item.tensor id ∉ k.waits)
    ∧ (s.takeFrames t.home tier t.npages = none →
      exec (.refillComplete (.tensor id)) s = .next ((s.wantRoom t.home tier).later (.ev (.refillComplete (.tensor id)))))

/-- R373, R251: an action begins on the victim of a full tier, which is marked as moving and whose leaves go to TIER 7; a freed tensor
goes once nothing in flight uses it. -/
def ActionBegins (s : State) : Prop :=
  ∀ (u : State) (d tier : BitVec 2) (id : BitVec 24) (t : Tensor) (c : Candidate) (a : Action),
    let cands := sortCands (s.candidates d tier.toNat)
    (s.acting d tier.toNat = true → exec (.residencyAction d tier) s = .next s)
    ∧ (s.acting d tier.toNat = false → s.victim d tier.toNat cands = (u, none) → exec (.residencyAction d tier) s = .next u)
    ∧ (s.acting d tier.toNat = false → s.victim d tier.toNat cands = (u, some (c, a)) → c.item = .tensor id → u.tensor? id = some t →
        ∃ w : State, w.tensor? id = some { t with moving := some (BitVec.ofNat 3 tier.toNat, match a with
            | .spill => 1
            | .compress => 2
            | .drop => 3) } ∧ w.mem = u.mem
          ∧ exec (.residencyAction d tier) s = .next ((w.tensorLeaves t 7 []).later (.ev (.residencyActionFinish (.tensor id)))))
    ∧ (s.tensor? id = none → exec (.residencyActionFinish (.tensor id)) s = .next s)
    ∧ (s.tensor? id = some t → t.st = 0 → (s.framesBusy (t.frames ++ t.lower) = true ∨ s.jobNames id = true) →
        exec (.residencyActionFinish (.tensor id)) s = .next (s.later (.ev (.residencyActionFinish (.tensor id)))))
    ∧ (s.tensor? id = some t → t.st = 0 → s.framesBusy (t.frames ++ t.lower) = false → s.jobNames id = false →
        s.clearLines true (.ev (.residencyActionFinish (.tensor id))) (s.ownedLines t.frames) = none →
        ∃ v, exec (.residencyActionFinish (.tensor id)) s = .next v ∧ v.tensor? id = none)

/-- R374: a die whose SRAM layer is shut down runs no task, ends those it ran in state 6, and none of its pool's bytes is reached. -/
def SramShutdown (s : State) : Prop :=
  ∀ (d : BitVec 2), ∃ v, exec (.sramThermalShutdown d) s = .next v ∧ (v.die d).sramDown = true
    ∧ (∀ pa, 2 ^ 39 + d.toNat * 2 ^ 30 ≤ pa → pa < 2 ^ 39 + (d.toNat + 1) * 2 ^ 30 → ∀ e, v.memFor e pa = none)
    ∧ ∀ b : BitVec 6, ∀ cx, let x : CtxId := ⟨d ++ b, cx⟩
        (s.ctx x).task.isSome = true → (s.ctx x).flow.phase = .run → (v.ctx x).flow.phase = .ending 6

/-- Bassoon's events and the shutdown of an SRAM layer, in every state. -/
def Obligations.ResidencyEvents : Prop :=
  ∀ s : State, ActionBegins s ∧ ActionFinishes s ∧ (∀ t, LeavesRewritten s t) ∧ Refills s ∧ SramShutdown s

/-- R49, R276, R398, R399, R403, R407: a late transition sets the latch of its core and takes the array's dc; a settle ends at
its dc and not before; a write to MGN stores the duty, 0 as 1 and 17 to 31 as 16, and, on a core that is not quarantined, the
set point, at most that of the table in force, a changed one beginning a settle of 16 dc; a squash window that ends begins to
count again. -/
def MarginEvents (s : State) : Prop :=
  ∀ (core : BitVec 8) (v : Word),
    let m := (s.core core).margin
    let want := min (v.extractLsb' 0 5).toNat (s.opTable (coreDie core)).vmax.toNat
    let duty := (v.extractLsb' 16 5).toNat
    exec (.shadowLatchSquash core) s = .next (s.modCore core fun k => { k with latch := true, engDc := some s.dc })
    ∧ (∀ due, m.settleUntil = some due → ∃ t, exec (.regulatorSettleEnd core) s = .next t ∧ t.mem = s.mem
        ∧ (t.core core).margin.settleUntil = if s.dc < due then some due else none)
    ∧ (∃ t, exec (.mgnWrite core v) s = .next t
        ∧ (t.core core).margin.cduty.toNat = (if duty = 0 then 1 else min duty 16)
        ∧ (m.quar = true → (t.core core).margin.vset = m.vset)
        ∧ (m.quar = false → (t.core core).margin.vset.toNat = want
            ∧ (want ≠ m.vset.toNat → (t.core core).margin.settleUntil = some (s.dc + 16)))
        ∧ (t.core core).margin.quar = m.quar ∧ (t.core core).margin.esc = m.esc)
    ∧ (∃ t, exec (.blackboxSquashWindow core) s = .next t ∧ (t.core core).margin.windowSquashes = 0
        ∧ (m.windowSquashes = 0 → t = s.modCore core fun k => { k with margin := { k.margin with windowSquashes := 0 } }))

/-- R401, R402, R404: a lost or recovered loop selects the table of the loops that flow, for the next multiple of 128 dc; the
table then takes effect on every die; with both loops lost an orderly shutdown begins, which stops the machine 1,200,000 dc
later. -/
def LoopEvents (s : State) : Prop :=
  ∀ (b : Bool) (tb : BitVec 2) (d : BitVec 2) (at_ : Nat),
    let other := if b then s.power.loopA else s.power.loopB
    (∃ t, exec (.loopLost b) s = .next t ∧ (if b then t.power.loopB else t.power.loopA) = false
        ∧ (if b then t.power.loopA else t.power.loopB) = other
        ∧ t.power.pendingTable = some (if other then (if b then 2 else 1) else 3)
        ∧ ((s.dc + 127) / 128 * 128, Act.ev .tableChange) ∈ t.agenda
        ∧ (other = false → s.power.shutdownAt = none → t.power.shutdownAt = some (s.dc + 1200000))
        ∧ (other = true → t.power.shutdownAt = s.power.shutdownAt))
    ∧ (∃ t, exec (.loopRecovered b) s = .next t ∧ (if b then t.power.loopB else t.power.loopA) = true
        ∧ t.power.pendingTable = some (if other then 0 else if b then 1 else 2)
        ∧ (other = true → (t.die d).sramDown = false) ∧ t.power.shutdownAt = s.power.shutdownAt)
    ∧ (s.power.pendingTable = none → exec .tableChange s = .next s)
    ∧ (s.power.pendingTable = some tb → ∃ t, exec .tableChange s = .next t ∧ t.power.pendingTable = none ∧ (t.die d).dthm.table = tb
        ∧ (t.die d).costs = (t.opTable d).costs ∧ ∀ c, coreDie c = d → (t.core c).margin.vset.toNat ≤ (s.core c).margin.vset.toNat
        ∧ (t.core c).margin.vset.toNat ≤ (t.opTable d).vmax.toNat)
    ∧ (s.power.shutdownAt = none → exec .shutdownStop s = .next s)
    ∧ (s.power.shutdownAt = some at_ → s.dc < at_ → exec .shutdownStop s = .next s)
    ∧ (s.power.shutdownAt = some at_ → at_ ≤ s.dc → s.power.on = true → ∃ t, exec .shutdownStop s = .next t ∧ t.power.on = false)

/-- R397, R408, R409: what the resets leave: a dc that counts from zero and no task running; a cold reset clears all memory and,
where its boot completes, takes the mode of the boot configuration (log 103), a maintenance reset clears all but the black-box rings, and
its boot, where it completes, the mode that the firmware chose; a warm reset keeps what HBM and LPDDR hold, the mode,
the margins' quarantine and counts and the tensors, but those that lay in memory that is not kept (log 103). A lane lend that is not complete in time costs both its channels. -/
def Obligations.ResetEvents : Prop :=
  ∀ (s : State) (mode : BitVec 2) (core : BitVec 8) (d : BitVec 2) (pair : BitVec 5),
    let kept := (s.bbFlush.loseItems fun f => !keptWarm (f * 4096)).1
    (∃ t, exec .coldReset s = .next t ∧ t.dc = 0 ∧ t.occ = [] ∧ t.mem = {} ∧ t.tensors = [] ∧ t.jobs = []
        ∧ (t.power.bootStep = 8 → t.power.mode = if Config.bootMode = 3 then 0 else Config.bootMode) ∧ ∀ x, (t.ctx x).task = none)
    ∧ (∃ t, exec .warmReset s = .next t ∧ t.dc = 0 ∧ t.occ = [] ∧ t.jobs = [] ∧ t.tensors = kept.tensors ∧ t.kvs = kept.kvs ∧ t.power.mode = s.power.mode
        ∧ ((∀ z ∈ s.tensors, ∀ f ∈ z.frames, keptWarm (f.1 * 4096) = true)
            → (∀ q ∈ s.kvs, ∀ p ∈ q.pages, ∀ f ∈ p.frames, keptWarm (f.1 * 4096) = true) → t.tensors = s.tensors ∧ t.kvs = s.kvs)
        ∧ (∀ x, (t.ctx x).task = none)
        ∧ (t.core core).margin.quar = (s.core core).margin.quar ∧ (t.core core).margin.esc = (s.core core).margin.esc
        ∧ (t.core core).margin.crep = (s.core core).margin.crep ∧ (t.core core).sp = []
        ∧ (kept.mem.cells = s.mem.cells → cellsWf s.mem.cells = true → ∀ a, cellsRead t.mem.cells a =
            if a < 2 ^ 39 ∨ ringByte a = true ∨ (2 ^ 40 ≤ a ∧ a < 2 ^ 41) then cellsRead s.mem.cells a else 0))
    ∧ (∃ t, exec (.maintenanceReset mode) s = .next t ∧ t.dc = 0 ∧ t.occ = [] ∧ t.jobs = [] ∧ t.tensors = [] ∧ (∀ x, (t.ctx x).task = none)
        ∧ (t.power.bootStep = 8 → t.power.mode = if mode = 3 then s.power.mode else mode) ∧ ∀ a, ringByte a = false → cellsRead t.mem.cells a = 0)
    ∧ ((s.die d).lend.contains pair = false → exec (.laneLendTimeout d pair) s = .next s)
    ∧ ((s.die d).lend.contains pair = true → ∃ t, exec (.laneLendTimeout d pair) s = .next t ∧ pair ∉ (t.die d).lend
        ∧ 2 * pair.toNat ∈ (t.die d).withheld ∧ 2 * pair.toNat + 1 ∈ (t.die d).withheld)

/-- Squashes and margins, loops and tables, in every state. -/
def Obligations.PowerEvents : Prop := ∀ s : State, MarginEvents s ∧ LoopEvents s

/-! ### Device events: registers of the die, the host, the links (17 R311-R315, 21 R375-R391, 22 R410-R412) -/

/-- R6, R315, R327, R368-R373, R386: a write to a register of the die: its bits, reserved ones as they read, and no other
register of that die or of another. -/
def Obligations.RegisterWriteEvents : Prop :=
  ∀ (s : State) (x : CtxId) (v : Word) (i : BitVec 4) (col : BitVec 6) (e : BitVec 2),
    let z := s.die x.die
    let only (n : BitVec 10) (f : Die → Die) : Prop := exec (.registerWrite x n v) s = .next (s.modDie x.die f)
    let lo := v.extractLsb' 0 32
    only 0x140 (fun z => { z with costs := { z.costs with kspill := v } })
    ∧ only 0x141 (fun z => { z with costs := { z.costs with kzip := v } })
    ∧ only 0x142 (fun z => { z with costs := { z.costs with krefill := v } })
    ∧ only 0x143 (fun z => { z with costs := { z.costs with krecomp := lo } })
    ∧ only 0x144 (fun z => { z with costs := { z.costs with kvdist := lo } })
    ∧ only 0x148 (fun z => { z with ctr := { z.ctr with eccc := lo } }) ∧ only 0x149 (fun z => { z with ctr := { z.ctr with eccu := lo } })
    ∧ only 0x14A (fun z => { z with ctr := { z.ctr with deadrd := lo } }) ∧ only 0x14B (fun z => { z with ctr := { z.ctr with deadwr := lo } })
    ∧ only 0x14C (fun z => { z with ctr := { z.ctr with dirovf := lo } }) ∧ only 0x189 (fun z => { z with ctr := { z.ctr with hostref := lo } })
    ∧ only 0x1A2 (fun z => { z with ctr := { z.ctr with rplog := lo } })
    ∧ (∃ t, exec (.registerWrite x 0x101 v) s = .next t ∧ (t.die x.die).qdbase.toNat = v.toNat % 2 ^ 57 / 2 ^ 12 * 2 ^ 12
        ∧ t = s.modDie x.die fun _ => { z with qdbase := (t.die x.die).qdbase })
    ∧ (∃ t, exec (.registerWrite x (0x110 + i.zeroExtend 10) v) s = .next t ∧ (t.die x.die).qroot[i.toNat]'i.isLt = v &&& 0xFFFFFFFFFFFFF001
        ∧ (∀ j : BitVec 4, j ≠ i → (t.die x.die).qroot[j.toNat]'j.isLt = z.qroot[j.toNat]'j.isLt) ∧ (e ≠ x.die → t.die e = s.die e) ∧ t.mem = s.mem)
    ∧ (∃ t, exec (.registerWrite x (0x200 + col.zeroExtend 10) v) s = .next t ∧ (t.core (x.die ++ col)).margin.crep = lo ∧ t.mem = s.mem
        ∧ t.dies = s.dies)
    ∧ (∃ t, exec (.registerWrite x 0x1A0 v) s = .next t ∧ t.mem = s.mem ∧ (e ≠ x.die → t.die e = s.die e)
        ∧ (t.die x.die).dthm.dduty.toNat = (let n := (v.extractLsb' 16 5).toNat; if n = 0 then 1 else min n 16))

/-- R391, R412: accesses of the host: one on a function that no die of the mode has does nothing; the first in an empty queue
is performed, a later one follows those before it; a doorbell of BAR0 rings, ACMD begins a report with the nonce of now, and
the finished report stands with ASTAT; a write through BAR2 writes its bytes at WINBASE + offset; a function-level reset clears WINBASE and
goes through the descriptors of the function's queues. -/
def HostAccesses : Prop :=
  ∀ (s : State) (u : State) (f d : BitVec 2) (bar0 : Bool) (off n data : Nat),
    let w : Event := .hostWrite f bar0 off n data
    let r : Event := .hostRead f bar0 off n
    let queued (e : Event) : State := s.modHost f fun h => { h with queue := h.queue ++ [e] }
    (s.funcDie f = none → exec (.hostWrite f bar0 off n data) s = .next s ∧ exec (.hostRead f bar0 off n) s = .next s
        ∧ exec (.functionLevelReset f) s = .next s ∧ exec (.attestationReportDone f) s = .next s)
    ∧ (s.funcDie f = some d → (s.host f).queue ≠ [] → exec (.hostWrite f bar0 off n data) s = .next (queued w)
        ∧ exec (.hostRead f bar0 off n) s = .next (queued r))
    ∧ (s.funcDie f = some d → (s.host f).queue = [] →
        (((queued w).hostDo f d w) = (u, true) → exec (.hostWrite f bar0 off n data) s = .next (u.modHost f fun h => { h with queue := [] }))
        ∧ (((queued r).hostDo f d r) = (u, true) → exec (.hostRead f bar0 off n) s = .next (u.modHost f fun h => { h with queue := [] })))
    ∧ (s.funcDie f = some d → (s.host f).queue = [] → s.power.bootStep = 8 → s.power.bootFail = none → bar0 = true →
        ∀ (e : BitVec 2) (q : BitVec 4), partOf s.power.mode e = f.toNat → off = 0x1000 + 8 * (16 * e.toNat + q.toNat) → n = 8 →
          ∃ t, exec (.hostWrite f bar0 off n data) s = .next t ∧ (s.dc, Act.ev (.doorbell e q)) ∈ t.agenda ∧ t.mem = s.mem)
    ∧ (s.funcDie f = some d → (s.host f).queue = [] → s.power.bootStep = 8 → s.power.bootFail = none → bar0 = false → n = 8 →
        cellsWf s.mem.cells = true → NoKvCopies s →
        let pa := (s.host f).winbase.toNat + off % 2 ^ 38
        pa % 8 = 0 → (s.memFor d pa).any (·.1 != .cxl) = true → s.dirEntry? (pa / 128) = none → s.isDead pa = false → ringByte pa = false →
        (∀ p ∈ s.mem.flips, p.1 ≠ pa / 512) →
        ∃ t, exec (.hostWrite f bar0 off n data) s = .next t ∧ ∀ a, cellsRead t.mem.cells a =
          if pa ≤ a ∧ a < pa + 8 then BitVec.ofNat 8 (data / 2 ^ (8 * (a - pa))) else cellsRead s.mem.cells a)
    ∧ (∃ t, exec (.acmd f) s = .next t ∧ (t.host f).astat = false ∧ (t.host f).reporting = true ∧ (t.host f).repNonce = (s.host f).nonce
        ∧ ∃ due, s.dc < due ∧ (due, Act.ev (.attestationReportDone f)) ∈ t.agenda)
    ∧ (s.funcDie f = some d → (s.host f).reporting = false → exec (.attestationReportDone f) s = .next s)
    ∧ (s.funcDie f = some d → (s.host f).reporting = true → ∃ t, exec (.attestationReportDone f) s = .next t ∧ (t.host f).astat = true
        ∧ (t.host f).reporting = false ∧ (t.host f).report.length = 280 + 4627 ∧ (t.host f).report.take 280 = s.reportBody d (s.host f).repNonce)
    ∧ (s.funcDie f = some d → (s.host f).queue ≠ [] → exec (.functionLevelReset f) s = .next (queued (.functionLevelReset f)))
    ∧ (s.funcDie f = some d → (s.host f).queue = [] →
        let z := (queued (.functionLevelReset f)).modHost f fun h => { h with winbase := 0 }
        let qs := (partDies s.power.mode f).flatMap fun e => (List.range 16).map fun i => (e, BitVec.ofNat 4 i)
        (z.disableQueues (.hostNext f) qs = (u, true) → exec (.functionLevelReset f) s = .next (u.modHost f fun h => { h with queue := [] }))
        ∧ (z.disableQueues (.hostNext f) qs = (u, false) → exec (.functionLevelReset f) s = .next u)
        ∧ ((∀ e ∈ partDies s.power.mode f, ∀ i : BitVec 4, (s.queueRoot e i).getLsbD 0 = false) →
            exec (.functionLevelReset f) s = .next (s.modHost f fun h => { h with winbase := 0 })))

/-- R391, R327: the reset of a function goes through its queues: in a descriptor that can be read and written EN is cleared, PRI and DEV
staying; one that has no reachable frame is passed. -/
def QueuesDisabled : Prop :=
  ∀ (s u v : State) (d : BitVec 2) (q : BitVec 4) (act : Act) (bs : List Byte) (rest : List (BitVec 2 × BitVec 4)),
    (s.queueDesc d q act = (v, .got bs) → let b := bs.headD 0
      ∃ c : Byte, c.getLsbD 2 = false ∧ c.extractLsb' 0 2 = b.extractLsb' 0 2 ∧ c.getLsbD 3 = b.getLsbD 3 ∧ c.toNat < 16
        ∧ (v.sysWrite d (v.queueRoot d q) (v.queueAddr d q) [c] act = (u, .done) →
            s.disableQueues act ((d, q) :: rest) = u.disableQueues act rest)
        ∧ (v.sysWrite d (v.queueRoot d q) (v.queueAddr d q) [c] act = (u, .wait) → s.disableQueues act ((d, q) :: rest) = (u, false)))
    ∧ (s.queueDesc d q act = (v, .bad) → s.disableQueues act ((d, q) :: rest) = v.disableQueues act rest)
    ∧ (s.queueDesc d q act = (v, .wait) → s.disableQueues act ((d, q) :: rest) = (v, false))

/-- The host's accesses, and the queues that a function-level reset disables. -/
def Obligations.HostEvents : Prop := HostAccesses ∧ QueuesDisabled

/-- R379, R380: acknowledgements, NAKs and timers of a module. An acknowledgement takes from the replay buffer what it covers; a NAK
does so too, and then all that is left is sent again, in order, with the ACK of now; so it is after 2,048 dc without an advance;
64 flit times after the first flit that no ACK has covered, one is sent. -/
def AckEvents : Prop :=
  ∀ (s : State) (src dst : BitVec 2) (m : BitVec 3) (ack : BitVec 12) (f : Flit),
    let l := s.link src dst
    let q := l.mod m
    let back := (s.link dst src).mod m
    let mod' (t : State) : Module := (t.link src dst).mod m
    let covered := (ack - ((q.replay.head?.map (·.seq)).getD 0) + 1).toNat
    let left := if covered ≤ q.replay.length then q.replay.drop covered else q.replay
    let again (r : List Flit) : List Flit := r.map fun f => { f with ack := back.rxexp - 1 }
    let delay := if q.narrow then 154 else 77
    src ≠ dst →
    (back.crcw = 0 → q.waiting = [] →
      (∃ t, exec (.acknowledgement src dst m ack) s = .next t ∧ t.mem = s.mem ∧ (mod' t).replay = left ∧ (mod' t).wire = q.wire)
      ∧ (q.train = false → ∃ t, exec (.nak src dst m ack) s = .next t ∧ t.mem = s.mem ∧ (mod' t).replay = again left
          ∧ (mod' t).wire = q.wire ++ again left
          ∧ (left = f :: left.tail → ∃ due, s.dc < due ∧ (due, Act.ev (.dataFlit src dst m true)) ∈ t.agenda)))
    ∧ ((q.replay = [] ∨ l.dead = true) → exec (.replayTimeout src dst m) s = .next s)
    ∧ (q.replay ≠ [] → l.dead = false → s.dc < q.ackedAt + 2048 → exec (.replayTimeout src dst m) s =
          .next { s with agenda := s.agenda ++ [(q.ackedAt + 2048, .ev (.replayTimeout src dst m))] })
    ∧ (q.replay ≠ [] → l.dead = false → q.ackedAt + 2048 ≤ s.dc → q.train = false → ∃ t, exec (.replayTimeout src dst m) s = .next t
        ∧ (mod' t).replay = again q.replay ∧ (mod' t).wire = q.wire ++ again q.replay ∧ t.mem = s.mem
        ∧ (s.dc + 2048, Act.ev (.replayTimeout src dst m)) ∈ t.agenda)
    ∧ ((q.unacked = false ∨ l.dead = true) → exec (.ackTimer src dst m) s = .next s)
    ∧ (q.unacked = true → l.dead = false → s.dc < q.unackedAt + delay → exec (.ackTimer src dst m) s =
          .next { s with agenda := s.agenda ++ [(q.unackedAt + delay, .ev (.ackTimer src dst m))] })
    ∧ (q.unacked = true → l.dead = false → q.unackedAt + delay ≤ s.dc → ∃ t, exec (.ackTimer src dst m) s = .next t
        ∧ (mod' t).unacked = false ∧ ∃ due, s.dc < due ∧ (due, Act.ev (.acknowledgement src dst m (q.rxexp - 1))) ∈ t.agenda)

/-- R379, R380, R381, R385: a flit arrives. One whose CRC fails is counted and answered with a NAK, its number still expected, and
the eighth of a window takes the module into a retrain of both directions as well; only the flit that is expected is accepted, the
number expected next rises by one, and it is delivered, or sent on where another die is its end; a window that closes begins its
counts again. -/
def FlitArrivals : Prop :=
  ∀ (s : State) (src dst : BitVec 2) (m : BitVec 3) (f : Flit) (rest : List Flit),
    let q := (s.link src dst).mod m
    let back := (s.link dst src).mod m
    let mod' (t : State) : Module := (t.link src dst).mod m
    src ≠ dst →
    (∃ t, exec (.crcWindowClose src dst m) s = .next t ∧ (mod' t).crcw = 0 ∧ (mod' t).winFlits = 0 ∧ t.mem = s.mem)
    ∧ (q.wire = [] → ∀ ok, exec (.dataFlit src dst m ok) s = .next s)
    ∧ (q.wire = f :: rest → ∃ t, exec (.dataFlit src dst m false) s = .next t ∧ (mod' t).wire = rest ∧ (mod' t).rxexp = q.rxexp
        ∧ (∃ due, s.dc < due ∧ (due, Act.ev (.nak src dst m (q.rxexp - 1))) ∈ t.agenda)
        ∧ (q.crcw < 7 → (mod' t).crcw = q.crcw + 1 ∧ (mod' t).winFlits = (if q.crcw = 0 then 0 else q.winFlits + 1)
            ∧ (mod' t).train = q.train)
        ∧ (7 ≤ q.crcw → (mod' t).train = true ∧ (mod' t).up = false ∧ (mod' t).crcw = 0 ∧ ((t.link dst src).mod m).train = true
            ∧ ∃ due ok, s.dc < due ∧ due ≤ s.dc + 24000 ∧ (due, Act.ev (.retrainComplete src dst m ok)) ∈ t.agenda))
    ∧ (q.wire = f :: rest → q.crcw = 0 → back.replay = [] →
        (f.seq ≠ q.rxexp → exec (.dataFlit src dst m true) s = .next (s.modModule src dst m fun q => { q with wire := rest }))
        ∧ (f.seq = q.rxexp → f.ddie = dst → ∃ t, exec (.dataFlit src dst m true) s = .next t ∧ (mod' t).rxexp = q.rxexp + 1
            ∧ (mod' t).unacked = true ∧ t.agenda.head? = some (s.dc, f.act))
        ∧ (let o := (s.link dst f.ddie).mod m
          f.seq = q.rxexp → f.ddie ≠ dst → f.ddie ≠ src → s.reaches dst f.ddie = true → o.train = false →
            (s.link dst f.ddie).draining = none → o.replay.length < 4095 → o.waiting = [] →
            ∃ t, exec (.dataFlit src dst m true) s = .next t ∧ (mod' t).rxexp = q.rxexp + 1
              ∧ ((t.link dst f.ddie).mod m).wire = o.wire ++ [⟨o.txseq, ((s.link f.ddie dst).mod m).rxexp - 1, f.sdie, f.ddie, f.act⟩]))

/-- The flits of a module: what their sender and their receiver do. -/
def Obligations.FlitEvents : Prop := AckEvents ∧ FlitArrivals

/-- R381, R382, R383, R386: a one written to LKCTL.UP of a dead link does nothing; of another one it takes every narrow module that is
not in a retrain into one that aims at 64 lanes, within 20 µs, and leaves the others. A retrain
ends with the module at 64 lanes where a return to them succeeds, at 32 where a retrain succeeds or such a return fails, and
with the link dead where a retrain to 32 lanes fails. A link that dies begins to drain in both directions, and each end clears
its bit of the link vector. A link state that is not newer is ignored, a newer one adopted (log 96). The markers of all eight
modules end a drain, as does its fourth round; each round before lasts twice as long as the last, the first 4 µs. -/
def Obligations.LinkEvents : Prop :=
  ∀ (s : State) (src dst : BitVec 2) (m : BitVec 3) (ok : Bool) (live : BitVec 6) (version : BitVec 16) (seq : BitVec 12) (k : Nat),
    let l := s.link src dst
    let q := l.mod m
    src ≠ dst →
    (l.dead = true → exec (.lkctlUp src dst) s = .next s ∧ exec (.linkDead src dst) s = .next s ∧ exec (.retrainComplete src dst m ok) s = .next s)
    ∧ (l.dead = false → ∃ t, exec (.lkctlUp src dst) s = .next t ∧ t.mem = s.mem ∧ ∀ i : BitVec 3,
        let a := (s.link dst src).mod i
        let b := (s.link src dst).mod i
        if a.narrow = true ∧ a.train = false then
          ((t.link dst src).mod i = { a with train := true, up := true, trainAt := s.dc, crcw := 0, winFlits := 0 })
          ∧ ((t.link src dst).mod i = { b with train := true, up := true, trainAt := s.dc, crcw := 0, winFlits := 0 })
          ∧ ∃ due ok, s.dc < due ∧ due ≤ s.dc + 24000 ∧ (due, Act.ev (.retrainComplete dst src i ok)) ∈ t.agenda
        else (t.link dst src).mod i = a ∧ (t.link src dst).mod i = b)
    ∧ (q.train = false → exec (.retrainComplete src dst m ok) s = .next s)
    ∧ (q.train = true → l.dead = false → q.up = false → ok = false →
        exec (.retrainComplete src dst m ok) s = .next { s with agenda := (s.dc, .ev (.linkDead src dst)) :: s.agenda })
    ∧ (q.train = true → l.dead = false → (q.up = true ∨ ok = true) → ∃ t, exec (.retrainComplete src dst m ok) s = .next t
        ∧ ((t.link src dst).mod m).train = false ∧ ((t.link src dst).mod m).narrow = !(q.up && ok)
        ∧ ((t.link dst src).mod m).train = false ∧ ((t.link dst src).mod m).narrow = !(q.up && ok))
    ∧ (l.dead = false → ∃ t, exec (.linkDead src dst) s = .next t ∧ (t.link src dst).dead = true ∧ (t.link dst src).dead = true
        ∧ (t.link src dst).draining = some 0 ∧ (t.link dst src).draining = some 0
        ∧ (t.die src).linkVec.getLsbD (pairIdx src dst) = false ∧ (t.die dst).linkVec.getLsbD (pairIdx src dst) = false)
    ∧ (((version - (s.die src).linkVer).toNat = 0 ∨ 2 ^ 15 ≤ (version - (s.die src).linkVer).toNat) →
        exec (.linkStateUpdate src live version) s = .next s)
    ∧ (0 < (version - (s.die src).linkVer).toNat → (version - (s.die src).linkVer).toNat < 2 ^ 15 →
        ∃ t, exec (.linkStateUpdate src live version) s = .next t ∧ (t.die src).linkVec = live ∧ (t.die src).linkVer = version)
    ∧ (l.draining = none → exec (.drainMarker src dst m seq) s = .next s ∧ exec (.drainRound src dst) s = .next s)
    ∧ (l.draining = some k → (∃ i : BitVec 3, i ≠ m ∧ (l.mod i).marker = none) →
        exec (.drainMarker src dst m seq) s = .next (s.modModule src dst m fun q => { q with marker := some seq }))
    ∧ (l.draining = some k → (∀ i : BitVec 3, i ≠ m → (l.mod i).marker ≠ none) → ∃ t, exec (.drainMarker src dst m seq) s = .next t
        ∧ (t.link src dst).draining = none)
    ∧ (l.draining = some k → k < 3 → ∃ t, exec (.drainRound src dst) s = .next t ∧ (t.link src dst).draining = some (k + 1)
        ∧ (s.dc + 2 ^ (k + 1) * 4800, Act.ev (.drainRound src dst)) ∈ t.agenda)
    ∧ (l.draining = some k → 3 ≤ k → ∃ t, exec (.drainRound src dst) s = .next t ∧ (t.link src dst).draining = none)


/-! ### Bundles, traps, steps, memory (02, 05, 17, 22) -/

/-- A request may be taken (02 R42, 06 R127, 17 R323): user level, running, nothing in flight, no group; where the context has
settled (a drain end, the return from a trap, a Q bundle), or at an entry with no pipelined level active; and the segment has
ended or its commit fits. -/
def MayTake (c : Ctx) : Prop :=
  c.sys.pl = false ∧ c.flow.phase = .run ∧ c.flow.inflight = [] ∧ c.flow.group = none
    ∧ (c.flow.settle = true ∨ (c.flow.asEntry = true ∧ ¬(c.regs.loop.pipe = true ∧ c.regs.loop.act ≠ 0)))
    ∧ (c.flow.asEntry = true ∨ c.ns + (c.sb.filter fun l => !l.committed).length ≤ 96)

/-- The context as a request finds it: its segment committed, its drain request and a hold of the next bundle gone. -/
def Sys2Proof.Machine.State.taken (s : State) (x : CtxId) : State :=
  (if (s.ctx x).flow.asEntry then s else s.commit x).modCtx x fun c => { c with
    flow := { c.flow with settle := false, hold := c.flow.hold.filter fun h => !h.before }
    regs := { c.regs with loop := { c.regs.loop with drn := false } } }

/-- R86, R96, R323, R313: a null bundle does nothing of its own; an illegal encoding aborts its segment and traps with the
mask of every failing place; a pending request is taken where one may be taken, in the order watchdog, quarantine or
pre-emption, lowest copy error, and nothing happens elsewhere. -/
def Obligations.BundleEvents : Prop :=
  ∀ (s : State) (mask : BitVec 9) (x : CtxId),
    let c := s.ctx x
    let asked := c.sys.pre = true ∨ c.sys.quar = true ∨ c.sys.wdog = true ∨ c.sys.cperr ≠ 0
    exec .nullBundle s = .next s
    ∧ exec (.illegalEncoding mask) s = .next (s.syncTrap s.iss.x 0x0001 mask 0 0 s.iss.pc)
    ∧ ((¬ MayTake c ∨ ¬ asked) → exec (.takeAsyncRequest x) s = .next s)
    ∧ (MayTake c →
        (c.sys.wdog = true →
          exec (.takeAsyncRequest x) s = .next (((s.taken x).logTimeout x 0x0701).endTask x 6 0x0701 (some c.flow.pc)))
        ∧ (c.sys.wdog = false → (c.sys.quar = true ∨ c.sys.pre = true) →
          exec (.takeAsyncRequest x) s = .next ((s.taken x).leave x .preempt))
        ∧ (c.sys.wdog = false → c.sys.quar = false → c.sys.pre = false → ∀ j : Nat, j < 24 → c.sys.cperr.getLsbD j = true →
          (∀ i, i < j → c.sys.cperr.getLsbD i = false) →
          ∃ v : BitVec 24, (∀ i, i < 24 → v.getLsbD i = (((s.taken x).ctx x).sys.cperr.getLsbD i && decide (i ≠ j)))
            ∧ exec (.takeAsyncRequest x) s = .next (((s.taken x).modCtx x fun d => { d with sys := { d.sys with cperr := v } }).takeTrap
                x 0x0501 0 (BitVec.ofNat 64 j) (BitVec.ofNat 32 j) true c.flow.pc c.flow.pc)))

/-- R321, R323: taking a trap. At user level, with TVEC enabled and a cause of classes 0 to 6, the context enters the handler
of the class at system level after 2 dc, with TEPC, TBUN, TVAL and TCAUSE written and every other register kept, and no poison of the segment left to count there; a trap at
system level ends the task with the double fault (a cause that waited for the same entry is kept for the return), a hardware cause or TVEC disabled ends it with the cause; and no other
context changes. -/
def TakesTrap : Prop :=
  ∀ (s : State) (x : CtxId) (code : BitVec 16) (mask : BitVec 9) (tval : Word) (imm : BitVec 32) (async : Bool)
    (resume bundle : BAddr),
    let c := s.ctx x
    let t := s.takeTrap x code mask tval imm async resume bundle
    (c.sys.pl = true → t = s.endTask x 6 0x0704 (some resume))
    ∧ (c.sys.pl = false → (code.toNat / 256 % 16 = 7 ∨ c.sys.tvecEn = false) → t = s.endTask x 6 code (some resume))
    ∧ (c.sys.pl = false → code.toNat / 256 % 16 ≠ 7 → c.sys.tvecEn = true →
        (∃ (y : SysRegs) (f : Flow), t = s.modCtx x (fun c => { c with
            sys := y, flow := f, seg := { c.seg with uncorrectable := false, outs := [] }, squashes := 0, redo := false })
          ∧ y = { c.sys with pl := true, tepc := resume, tbun := bundle, tval := tval, tcause := y.tcause }
          ∧ y.tcause.toNat = imm.toNat * 2 ^ 32 + (if async then 2 ^ 25 else 0) + mask.toNat * 2 ^ 16 + code.toNat
          ∧ f.pc.toNat = (c.sys.tvecBase.toNat + 16 * (code.toNat / 256 % 16)) % 2 ^ 51
          ∧ f.asEntry = true ∧ f.stall = 2 ∧ f.cc = c.flow.cc ∧ f.freeze = none ∧ f.hold = none ∧ f.settle = false
          ∧ f.pendingTrap = none ∧ f.savedTrap = c.flow.pendingTrap ∧ f.phase = c.flow.phase ∧ f.inflight = c.flow.inflight ∧ f.group = c.flow.group)
        ∧ (t.ctx x).regs = c.regs ∧ (t.ctx x).v = c.v ∧ (t.ctx x).sreg = c.sreg ∧ (t.ctx x).wdc = c.wdc)
    ∧ (∀ (st : BitVec 4) (fc : BitVec 16) (e : BAddr), let u := s.endTask x st fc (some e)
        (u.ctx x).flow.phase = .ending st ∧ (u.ctx x).regs = c.regs ∧ (u.ctx x).sys = c.sys
        ∧ (∀ k r, c.task = some k → s.task? k = some r → u.task? k = some { r with fcode := if st = 5 then r.fcode else fc, entry := e }))
    ∧ (∀ z, z ≠ x → t.ctx z = s.ctx z) ∧ t.mem = s.mem

/-- R44, R322: a synchronous cause. The segment aborts: the open lines of the store buffer go and the committed ones stay,
the registers that hardware restores are those of the entry, v and s and the scratchpad stay, loads, tile operations and
copies of the segment are cancelled and leave their counters, and the record's ENTRY is the segment's; then the trap is taken
there. -/
def SynchronousTrap : Prop :=
  ∀ (s : State) (x : CtxId) (code : BitVec 16) (mask : BitVec 9) (tval : Word) (imm : BitVec 32) (bundle : BAddr),
    let c := s.ctx x
    let u := s.abort x
    let entry := if c.flow.asEntry then c.flow.pc else c.seg.entry
    let r := u.modOwnTask x fun t => { t with entry := entry }
    s.syncTrap x code mask tval imm bundle = r.takeTrap x code mask tval imm false entry bundle
    ∧ (∀ k q, c.task = some k → s.task? k = some q → r.task? k = some { q with entry := entry })
    ∧ (u.ctx x).flow.pc = entry ∧ (u.ctx x).flow.asEntry = true
    ∧ (c.flow.asEntry = false → (u.ctx x).regs = c.seg.snap) ∧ (c.flow.asEntry = true → (u.ctx x).regs = c.regs)
    ∧ (∀ l, l ∈ (u.ctx x).sb ↔ l ∈ c.sb ∧ l.committed = true)
    ∧ (u.ctx x).v = c.v ∧ (u.ctx x).sreg = c.sreg ∧ (u.ctx x).sys = c.sys
    ∧ (u.ctx x).flow.inflight = [] ∧ (u.ctx x).nl = 0 ∧ (u.ctx x).flow.group = none
    ∧ (u.ctx x).seg.staged = [] ∧ (∀ d, d ∈ (u.ctx x).drains ↔ d ∈ c.drains ∧ d.born = false)
    ∧ (∀ id, id ∈ (u.ctx x).counts.nt ↔ id ∈ c.counts.nt ∧ id ∉ s.abortIds x)
    ∧ (∀ id, id ∈ (u.ctx x).counts.nc ↔ id ∈ c.counts.nc ∧ id ∉ s.abortIds x)
    ∧ (∀ j, j ∈ u.jobs → ¬(j.x = x ∧ j.born = true))
    ∧ (∀ k, (u.core k).sp = (s.core k).sp) ∧ u.mem = s.mem ∧ ∀ z, z ≠ x → u.ctx z = s.ctx z

/-- Taking a trap, and the abort that comes before it. -/
def Obligations.TrapEntry : Prop := TakesTrap ∧ SynchronousTrap

/-- R50, R52, R55: a result whose latency expires lands, any other comes one cc nearer; what each landing writes, and that it
writes nothing else. g0, k0 and p0 keep their values, and while a pipelined loop is active so do p88 to p95. -/
def Obligations.ResultsLand : Prop :=
  ∀ (c : Ctx) (n : Nat) (sl : Slot) (nl : Bool) (r : Res) (gr g' : GReg) (kr k' : KReg) (pr p' : PReg) (vr v' : VReg)
    (ar a' : AReg) (w : Word) (b : Bool) (m : Mask) (d : VWord) (st : BitVec 40),
    c.flow.inflight = [⟨n, sl, nl, r⟩] →
    (n ≠ 1 → n ≠ 0 → c.advance = { c with flow := { c.flow with inflight := [⟨n - 1, sl, nl, r⟩] } })
    ∧ (n = 1 → c.advance = { c with flow := { c.flow with inflight := [] } }.land r)
    ∧ (∃ q : Regs, c.land (.g gr w) = { c with regs := q } ∧ q = { c.regs with g := q.g }
        ∧ (c.land (.g gr w)).readG g' = if g' = gr ∧ gr ≠ 0 then w else c.readG g')
    ∧ (∃ q : Regs, c.land (.k kr m) = { c with regs := q } ∧ q = { c.regs with k := q.k }
        ∧ (c.land (.k kr m)).readK k' = if k' = kr ∧ kr ≠ 0 then m else c.readK k')
    ∧ (pr.toNat < 96 → ∃ q : Regs, c.land (.p pr b) = { c with regs := q } ∧ q = { c.regs with p := q.p }
        ∧ (c.land (.p pr b)).readP p' =
            if p' = pr ∧ pr ≠ 0 ∧ ¬(c.regs.loop.pipe = true ∧ 88 ≤ pr.toNat) then b else c.readP p')
    ∧ (∃ q, c.land (.v vr m d) = { c with v := q }
        ∧ ∀ i, i < 64 → lane ((c.land (.v vr m d)).readV v') i =
            if v' = vr ∧ m.getLsbD i = true then lane d i else lane (c.readV v') i)
    ∧ (∃ q : Regs, c.land (.a ar w) = { c with regs := q } ∧ q = { c.regs with a := q.a }
        ∧ (c.land (.a ar w)).readA a' = if a' = ar then w else c.readA a')
    ∧ (∃ q : Regs, c.land (.stride ar st) = { c with regs := q } ∧ q = { c.regs with stride := q.stride }
        ∧ (c.land (.stride ar st)).readStride a' = if a' = ar then st else c.readStride a')

/-- The bundle met nothing that keeps it from completing, and asks for nothing beyond its own results. -/
def PlainIss (i : Iss) : Prop :=
  i.faults = [] ∧ i.misses = [] ∧ i.poison = none ∧ i.block = none ∧ i.hold = none ∧ i.ends = false ∧ i.ending = .none
    ∧ i.yields = false ∧ i.calls = [] ∧ i.postHold = none ∧ i.acts = []

/-- R48, R97, R104, R213, R273, R322, R184, R161: how a bundle ends. A hold leaves it to be issued again, whatever else its slots
met, and so does a freeze before issue; else a fault aborts with the first cause of the lowest failing slot and the mask of all
failing slots; without one, a residency miss parks the task; without either, bad data rewinds the segment; else the bundle
completes; one that holds no operation of the list of R87 goes on with its segment: one cc accrues, the results in flight
advance, the stores wait for the scratchpad at the end of the dc, the next
bundle is the target of a transfer, or, outside a group and away from a loop's last bundle, the one that
follows. -/
def Obligations.BundleEnds : Prop :=
  ∀ (s0 s : State) (o : Ready) (fired : List (Slot × SlotOp)),
    let i := s.iss
    let x := i.x
    let back := s0.rollback s x
    (∀ h, i.hold = some h →
      ((s0.finishBundle s o fired).1.ctx x).flow.hold = some h ∧ (s0.finishBundle s o fired).2 = false
      ∧ ((s0.finishBundle s o fired).1.ctx x).regs = (s0.ctx x).regs ∧ ((s0.finishBundle s o fired).1.ctx x).flow.pc = (s0.ctx x).flow.pc)
    ∧ (i.hold = none → ∀ sl v, i.block = some (sl, v) →
        s0.finishBundle s o fired = (back.freezeAt x (if i.own then .own else .preIssue) sl v, false))
    ∧ (i.hold = none → i.block = none → ∀ l f r, i.faults = l ++ f :: r → (∀ q ∈ l, f.slot.idx < q.slot.idx) → (∀ q ∈ r, f.slot.idx ≤ q.slot.idx) →
      ∃ m : BitVec 9, (∀ sl : Slot, m.getLsbD sl.idx = decide (∃ q ∈ i.faults, q.slot = sl)) ∧ m.getLsbD 8 = false
        ∧ s0.finishBundle s o fired = (((back.modCtx x fun c => { c with
            flow := { c.flow with cc := c.flow.cc + 1 }, wdc := c.wdc + 1 }).syncTrap x f.code m f.tval f.imm i.pc), true))
    ∧ (i.hold = none → i.block = none → i.faults = [] → i.misses ≠ [] → s0.finishBundle s o fired = (back.park x i.misses, true))
    ∧ (i.hold = none → i.block = none → i.faults = [] → i.misses = [] → ∀ pa, i.poison = some pa →
        s0.finishBundle s o fired = (back.consumePoison x pa, true))
    ∧ (PlainIss i → o.b.hdr.rep = 0 → o.ops.any (fun p => p.2.op.closesSegment) = false → (s.ctx x).flow.group = none → (∀ w, (s.ctx x).flow.phase ≠ .sys w) →
        fired.any (fun p => p.2.op.externalAct) = false →
        let t := (s0.finishBundle s o fired).1
        let a := (s.ctx x).advance
        (s0.finishBundle s o fired).2 = true
        ∧ (t.ctx x).flow.cc = (s.ctx x).flow.cc + 1 ∧ (t.ctx x).wdc = (s.ctx x).wdc + 1 ∧ (t.ctx x).squashes = (s.ctx x).squashes
        ∧ (t.ctx x).flow.last = i.pc ∧ (t.ctx x).flow.inflight = a.flow.inflight ∧ (t.ctx x).v = a.v ∧ (t.ctx x).sreg = a.sreg ∧ (t.ctx x).sys = a.sys
        ∧ (t.core x.core).sp = (s.core x.core).sp ∧ (t.core x.core).spLate = (s.core x.core).spLate ++ i.spWrites ∧ t.mem = s.mem
        ∧ (∀ z, z ≠ x → t.ctx z = s.ctx z) ∧ (t.ctx x).counts = (s.ctx x).counts ∧ (t.ctx x).sb = (s.ctx x).sb
        ∧ (∀ g, i.target = some g → (t.ctx x).flow.pc = g ∧ (t.ctx x).flow.stall = i.cost ∧ (t.ctx x).regs = a.regs)
        ∧ (i.target = none → (∀ j : CReg, a.regs.loop.act.getLsbD j.toNat = true → a.regs.loop.fin[j.toNat]'j.isLt ≠ (s.ctx x).flow.pc) →
            (t.ctx x).flow.pc = (s.ctx x).flow.pc + 1 ∧ (t.ctx x).flow.stall = (s.ctx x).flow.stall ∧ (t.ctx x).regs = a.regs))

/-- Only ctx0 of a core offers a bundle in this dc: the core's turn has come with power on and nothing due that comes before the
cores; the core issues and the context is in its duty, runs, and waits for nothing, a late block of a copy included; no request,
trap or settle stands before its bundle; ctx1 is idle. -/
def Alone (s : State) (c : BitVec 8) (rest : List (BitVec 8)) : Prop :=
  let k := s.ctx ⟨c, false⟩
  s.power.on = true ∧ (∀ p ∈ s.inputs, s.dc < p.1)
    ∧ (∀ p ∈ s.agenda, p.1 ≤ s.dc → s.early p.2 = false) ∧ s.turn = c :: rest ∧ s.lateJob ⟨c, false⟩ = none
    ∧ (s.core c).mayIssue s.dc = true ∧ (s.core c).latch = false ∧ (s.core c).migrate = none ∧ s.dc % 16 < k.sys.duty.toNat
    ∧ k.flow.phase = .run ∧ k.flow.stall = 0 ∧ k.flow.freeze = none ∧ k.flow.hold = none ∧ k.flow.pendingTrap = none
    ∧ k.flow.settle = false ∧ k.flow.group = none ∧ k.sys.pending = false
    ∧ (∀ t, s.taskOf ⟨c, false⟩ = some t → t.lost = none) ∧ (s.ctx ⟨c, true⟩).flow.phase = .idle

/-- R48, R84, R90, R95, R42, R43: a step of a core runs the bundle that it fetches. Where ctx0 alone offers a bundle, the fetch
changes no context. A bundle that is no instruction, or that holds a privileged opcode at user level, aborts and traps. Any
other that is lawful where it stands issues: a segment that an E bundle ends commits first, at an entry a new segment begins,
then exec runs the instruction of each slot whose predicate allows it, in PRES order, and the bundle ends; one that issued is the
core's latest issue, its squashes are over, and a reissue begins the core's stretch window. WAIT counts, and MFC reads, what the
commit before an E bundle leaves (log 78). -/
def Obligations.StepRunsDecoded : Prop :=
  (∀ s : State, s.runSlots [] = s) ∧
  (∀ (s t : State) (sl : Slot) (o : SlotOp) (l : List (Slot × SlotOp)),
    let r := { s with iss := { s.iss with slot := sl } }
    exec o.op r = .next t → s.runSlots ((sl, o) :: l) = (if r.cur.sys.dbg then r.noteHazards t sl o else t).runSlots l) ∧
  ∀ (s s2 : State) (c : BitVec 8) (rest : List (BitVec 8)) (w : BitVec 512) (b : Bundle),
    let x : CtxId := ⟨c, false⟩
    let k := s.ctx x
    Alone s c rest → ({ s with turn := rest } : State).fetchBundle x k.flow.pc = (s2, .got w) → decodeBundle w.toNat = b →
    let s3 := { s2 with iss := { x := x, pc := k.flow.pc, first := some s2.nextId, counts := (k.nl, k.ns, k.nc, k.nt) } }
    let counted := s3.modCtx x fun d => { d with flow := { d.flow with cc := d.flow.cc + 1 }, wdc := d.wdc + 1 }
    let done (t : State) : State := (if k.redo then t.reissued c else t).issued x
    (∀ z, s2.ctx z = s.ctx z)
    ∧ (b.bad ≠ 0 → ∃ m : BitVec 9, m &&& b.bad = b.bad ∧ step s = .next (done (counted.syncTrap x 0x0001 m 0 0 k.flow.pc)))
    ∧ (b.bad = 0 → b.hdr.rep = 0 →
        (b.hdr.q = true ∨ b.hdr.e = true ∨ k.flow.asEntry = true → k.flow.inflight = []) →
        (∀ p ∈ b.slots, p.2.op.transfers = true → ∀ j : CReg, k.regs.loop.act.getLsbD j.toNat = true →
          k.regs.loop.fin[j.toNat]'j.isLt ≠ k.flow.pc) →
        (∀ p ∈ b.slots, ∀ j gs off sm1, p.2.op = .loop j gs off sm1 → sm1 ≠ 0 → k.regs.loop.pipe = true →
          k.regs.loop.act.getLsbD k.regs.loop.plv.toNat = true → j.toNat ≤ k.regs.loop.plv.toNat) →
        let priv := ∃ p ∈ b.slots, p.2.op.privileged = true
        (k.sys.pl = false → priv → ∃ m : BitVec 9,
          (∀ i, i < 9 → m.getLsbD i = decide (∃ p ∈ b.slots, p.1.idx = i ∧ p.2.op.privileged = true))
            ∧ step s = .next (done (counted.syncTrap x 0x0002 m 0 0 k.flow.pc)))
        ∧ ((k.sys.pl = true ∨ ¬ priv) → (b.hdr.e = true → k.flow.asEntry = false → k.commitFits = true) →
            let s4 := if b.hdr.e && !k.flow.asEntry then
                let t := s3.commit x
                { t with iss := { t.iss with counts := ((t.ctx x).nl, (t.ctx x).ns, (t.ctx x).nc, (t.ctx x).nt) } }
              else s3
            let s5 := if (s4.ctx x).flow.asEntry then s4.modCtx x fun d => { d with
                flow := { d.flow with asEntry := false }
                seg := { entry := k.flow.pc, snap := d.regs, uncorrectable := d.seg.uncorrectable, outs := d.seg.outs } } else s4
            let l := b.slots.filter fun p => k.readP p.2.pnum != p.2.inv
            let r := s4.finishBundle ((s5.runSlots l).detect k.flow.inflight) ⟨w, b, b.slots⟩ l
            step s = .next (if r.2 then done r.1 else r.1)))

/-- R89, R91, R95: decoding and encoding agree. An operation of the slots with lawful operands, encoded, is read back whole in
every slot that assigns its opcode, every operand at every value; and bits that decode are the encoding of what they decode
to, so no two words of a slot mean the same operation. -/
def Obligations.DecodeEncode : Prop :=
  ∀ (sl : Slot) (k : Bool) (o : SlotOp) (bits : Nat),
    (∀ mp opc fs, o.op.wf = true → o.pnum.toNat < 96 → encodeFields o.op = some (mp, opc, fs) → sl.map k opc = mp →
      sl.allows k opc = true → encodeSlot o = some bits → decodeSlot sl k bits = .ok o)
    ∧ (bits < 2 ^ sl.width → decodeSlot sl k bits = .ok o → o.op.wf = true ∧ encodeSlot o = some bits)

/-- R84, R85, R89, R91: words written out from the encoding tables decode to the instructions that they stand for, one or more
of each slot; the fields of a header come from their places; and an unassigned opcode, a one in a Zero field, a predicate
above p95 and a hint above 4 are refused. -/
def Obligations.DecodeWords : Prop :=
  decodeSlot .S false 0x4500_C600_3400_0000 = .ok ⟨0, false, .loop 3 6 3 2⟩
  ∧ decodeSlot .S false 0x010E_0C10_8000_0000 = .ok ⟨7, false, .add 3 1 2⟩
  ∧ decodeSlot .S false 0x6000_0401_0000_0000 = .ok ⟨0, false, .mfs 1 1⟩
  ∧ decodeSlot .S false 0x6200_4100_0000_0000 = .ok ⟨0, false, .tretEnd 1⟩
  ∧ decodeSlot .V0 false 0x4300_1852_0323_0000 = .ok ⟨0, false, .vlut 6 5 8 100 6 0⟩
  ∧ decodeSlot .V1 false 0x7100_1040_0000_0000 = .ok ⟨0, false, .sgen 1 1 0 0⟩
  ∧ decodeSlot .V1 false 0x7700_8127_0000_0000 = .ok ⟨0, false, .smux 8 1 2 7⟩
  ∧ decodeSlot .M false 0x0300_0402_8400_0000_0000 = .ok ⟨0, false, .mma 0 (.direct 8 40) 1 0 0⟩
  ∧ decodeSlot .L false 0x0100_0C60_0000_0000 = .ok ⟨0, false, .ld 3 1 2 0 0⟩
  ∧ decodeSlot .L false 0x1000_1446_0180_0008 = .ok ⟨0, false, .atadd 5 1 6 3 8⟩
  ∧ decodeSlot .W false 0x0400_52C0_0010 = .ok ⟨0, false, .st 5 2 3 16⟩
  ∧ decodeSlot .C false 0x2200_1050_4000_0000 = .ok ⟨0, false, .kvret 4 5 4⟩
  ∧ decodeSlot .C false 0x2100_0C43_2140_0000 = .ok ⟨0, false, .kvapp 3 4 400 5⟩
  ∧ decodeSlot .Y false 0x2800_7400 = .ok ⟨0, false, .fence 7 .die⟩
  ∧ (decodeBundle 0x010E_0C10_8000_0000_0000_000B).hdr = ⟨0, 0, 0, 0, 1, false, true, true⟩
  ∧ (decodeBundle 0x010E_0C10_8000_0000_0000_000B).slots = [(.S, ⟨7, false, .add 3 1 2⟩)]
  ∧ decodeSlot .S false 0xFF00_0000_0000_0000 = .error .unassignedOpcode
  ∧ decodeSlot .S false 0x010E_0C10_8000_0001 = .error .zeroField
  ∧ decodeSlot .S false 0x01C0_0C10_8000_0000 = .error .predicateNumber
  ∧ decodeSlot .C false 0x1300_0280_0000_0000 = .error .illegalField

/-! ### Memory, reset, power -/

/-- The canonical form and what it gives: bytes written are read back, every other address reads as before, the form stays,
and two canonical memories that read alike are the same data (the form is the model's own: an unlisted byte reads zero,
logs 3 and 4). -/
def Obligations.CanonicalMemory : Prop :=
  ∀ (l m : List Host.Cell) (a b : Nat) (bs : List Byte), cellsWf l = true →
    cellsWf (cellsWriteAll l (bytesAt a bs)) = true
    ∧ cellsRead (cellsWriteAll l (bytesAt a bs)) b =
        (if a ≤ b ∧ b < a + bs.length then bs.getD (b - a) 0 else cellsRead l b)
    ∧ (cellsWf m = true → (∀ c, cellsRead l c = cellsRead m c) → l = m)

/-- R7, R311, R58, R60, R62, R63, R124, R333, R334, R338, R367, R386, R398, R401, R405: what reset leaves, of the fields whose reset
value the field maps state: every context at user level with no trap recorded, traps disabled, no request pending and full
duty, its format slots, generators and loop engine at rest; every core healthy (no core in the quarantine map, log 2) at full duty and 350 mV; every die with empty
queues and clear registers and counters; every link whole. No task runs. Without power the machine stands still until a
reset comes (the second clause, R404). -/
def Obligations.ResetState : Prop :=
  (∀ x : CtxId, let c := State.reset.ctx x
    c.regs.fmt = Vector.replicate 32 ⟨0, 0, 0⟩ ∧ c.regs.slen = 1 ∧ c.regs.genk = Vector.replicate 16 ⟨false, 0, 1, 0⟩
    ∧ c.regs.fstat = 0 ∧ c.replays = 0 ∧ c.nl = 0 ∧ c.ns = 0 ∧ c.nc = 0 ∧ c.nt = 0
    ∧ c.regs.loop.act = 0 ∧ c.regs.loop.sm1 = 0 ∧ c.regs.loop.pipe = false ∧ c.regs.loop.plv = 0 ∧ c.regs.loop.drn = false
    ∧ c.regs.p.extractLsb' 88 8 = 0
    ∧ c.sys.pl = false ∧ c.sys.mowned = false ∧ c.sys.tcause = 0 ∧ c.sys.tepc = 0 ∧ c.sys.tbun = 0 ∧ c.sys.tval = 0
    ∧ c.sys.tvecEn = false ∧ c.sys.tvecBase = 0 ∧ c.sys.tscr = Vector.replicate 4 0 ∧ c.sys.msave = 0
    ∧ c.sys.pre = false ∧ c.sys.quar = false ∧ c.sys.wdog = false ∧ c.sys.cperr = 0 ∧ c.sys.duty = 16 ∧ c.task = none)
  ∧ (∀ k : BitVec 8, let m := (State.reset.core k).margin
    (State.reset.core k).tie = false ∧ m.quar = false ∧ m.esc = 0 ∧ m.cduty = 16 ∧ m.vset = 6 ∧ m.settleUntil = none ∧ m.crep = 0)
  ∧ (∀ d : BitVec 2, let z := State.reset.die d
    z.qroot = Vector.replicate 16 0 ∧ z.qdbase = 0 ∧ z.costs = ⟨0, 0, 0, 0, 0⟩ ∧ z.fifo = Vector.replicate 16 []
    ∧ z.ctr.eccc = 0 ∧ z.ctr.eccu = 0 ∧ z.ctr.deadrd = 0 ∧ z.ctr.deadwr = 0 ∧ z.ctr.dirovf = 0 ∧ z.ctr.hostref = 0
    ∧ z.dthm = ⟨0, 0, 0, 16, 0⟩ ∧ z.bbNext = 0 ∧ z.bbWraps = 0)
  ∧ (∀ (d e : BitVec 2) (m : BitVec 3), let q := (State.reset.link d e).mod m
    (State.reset.link d e).dead = false ∧ q.txseq = 0 ∧ q.rxexp = 0 ∧ q.crcw = 0 ∧ q.flitrp = 0 ∧ q.narrow = false ∧ q.train = false)
  ∧ (∀ h : BitVec 2, (State.reset.host h).winbase = 0)
  ∧ State.reset.Canonical
  ∧ (∀ s : State, s.power.on = false →
      ((∀ p ∈ s.inputs, p.2.isReset = false) → step s = .fault .poweredDown)
      ∧ ∀ l p r, s.inputs = l ++ p :: r → (∀ q ∈ l, q.2.isReset = false) → p.2.isReset = true →
          step s = .next ({ s with inputs := l ++ r }.runAct p.2))

/-- Every step of the machine, whatever it runs, keeps every memory in canonical form: main memory and the scratchpad of
every core. -/
def Obligations.StepKeepsCanonical : Prop :=
  ∀ s t : State, s.Canonical → step s = .next t → t.Canonical
end

