-- ==== Sys2Proof/Laws/Decode.lean ====
section
/-! SUPPORT. Laws of the encoding: the codes of enumerated fields and the composite operands are read back, and a packed
operand area is unpacked into its fields. -/

namespace Sys2Proof

@[simp] theorem Cond.ofCode_toCode (c : Cond) : Cond.ofCode c.toCode = some c := by cases c <;> rfl
@[simp] theorem FCond.ofCode_toCode (c : FCond) : FCond.ofCode c.toCode = some c := by cases c <;> rfl
@[simp] theorem AgetSel.ofCode_toCode (c : AgetSel) : AgetSel.ofCode c.toCode = some c := by cases c <;> rfl
@[simp] theorem ChkKind.ofCode_toCode (c : ChkKind) : ChkKind.ofCode c.toCode = some c := by cases c <;> rfl
@[simp] theorem Sat.ofCode_toCode (c : Sat) : Sat.ofCode c.toCode = some c := by cases c <;> rfl
@[simp] theorem ScntMode.ofCode_toCode (c : ScntMode) : ScntMode.ofCode c.toCode = some c := by cases c <;> rfl
@[simp] theorem MldwMode.ofCode_toCode (c : MldwMode) : MldwMode.ofCode c.toCode = some c := by cases c <;> rfl
@[simp] theorem LaneTy.ofCode_toCode (c : LaneTy) : LaneTy.ofCode c.toCode = some c := by cases c <;> rfl
@[simp] theorem FollowOn.ofCode_toCode (c : FollowOn) : FollowOn.ofCode c.toCode = some c := by cases c <;> rfl
@[simp] theorem Hint.ofCode_toCode (c : Hint) : Hint.ofCode c.toCode = some c := by cases c <;> rfl
@[simp] theorem TinfoSel.ofCode_toCode (c : TinfoSel) : TinfoSel.ofCode c.toCode = some c := by cases c <;> rfl
@[simp] theorem KvposSel.ofCode_toCode (c : KvposSel) : KvposSel.ofCode c.toCode = some c := by cases c <;> rfl
@[simp] theorem KvinfoSel.ofCode_toCode (c : KvinfoSel) : KvinfoSel.ofCode c.toCode = some c := by cases c <;> rfl
@[simp] theorem Scope.ofCode_toCode (c : Scope) : Scope.ofCode c.toCode = some c := by cases c <;> rfl

theorem Cond.toCode_lt (c : Cond) : c.toCode < 2 ^ 4 := by cases c <;> decide
theorem FCond.toCode_lt (c : FCond) : c.toCode < 2 ^ 3 := by cases c <;> decide
theorem AgetSel.toCode_lt (c : AgetSel) : c.toCode < 2 ^ 2 := by cases c <;> decide
theorem ChkKind.toCode_lt (c : ChkKind) : c.toCode < 2 ^ 2 := by cases c <;> decide
theorem Sat.toCode_lt (c : Sat) : c.toCode < 2 ^ 2 := by cases c <;> decide
theorem ScntMode.toCode_lt (c : ScntMode) : c.toCode < 2 ^ 2 := by cases c <;> decide
theorem MldwMode.toCode_lt (c : MldwMode) : c.toCode < 2 ^ 2 := by cases c <;> decide
theorem LaneTy.toCode_lt (c : LaneTy) : c.toCode < 2 ^ 2 := by cases c <;> decide
theorem FollowOn.toCode_lt (c : FollowOn) : c.toCode < 2 ^ 2 := by cases c <;> decide
theorem Hint.toCode_lt (c : Hint) : c.toCode < 2 ^ 3 := by cases c <;> decide
theorem TinfoSel.toCode_lt (c : TinfoSel) : c.toCode < 2 ^ 3 := by cases c <;> decide
theorem KvposSel.toCode_lt (c : KvposSel) : c.toCode < 2 ^ 2 := by cases c <;> decide
theorem KvinfoSel.toCode_lt (c : KvinfoSel) : c.toCode < 2 ^ 3 := by cases c <;> decide
theorem Scope.toCode_lt (c : Scope) : c.toCode < 2 ^ 3 := by cases c <;> decide

@[simp] theorem VSrc.ofRaw_toRaw (s : VSrc) : VSrc.ofRaw s.toRaw.1 s.toRaw.2.1 s.toRaw.2.2 = some s := by
  cases s <;> simp [VSrc.toRaw, VSrc.ofRaw]
@[simp] theorem BitPos.ofRaw_toRaw (s : BitPos) : BitPos.ofRaw s.toRaw.1 s.toRaw.2.1 s.toRaw.2.2 = some s := by
  cases s <;> simp [BitPos.toRaw, BitPos.ofRaw]
@[simp] theorem FunAmt.ofRaw_toRaw (s : FunAmt) : FunAmt.ofRaw s.toRaw.1 s.toRaw.2.1 s.toRaw.2.2 = some s := by
  cases s <;> simp [FunAmt.toRaw, FunAmt.ofRaw]
@[simp] theorem BcastSrc.ofRaw_toRaw (s : BcastSrc) : BcastSrc.ofRaw s.toRaw.1 s.toRaw.2.1 s.toRaw.2.2 = some s := by
  cases s <;> simp [BcastSrc.toRaw, BcastSrc.ofRaw]
theorem CvtFmt.ofRaw_toRaw (s : CvtFmt) (h : s.ok = true) : CvtFmt.ofRaw s.toRaw.1 s.toRaw.2 = some s := by
  cases s <;> simp_all [CvtFmt.toRaw, CvtFmt.ofRaw, CvtFmt.ok]
@[simp] theorem KmovForm.ofRaw_toRaw (s : KmovForm) : KmovForm.ofRaw s.toRaw.1 s.toRaw.2.1 s.toRaw.2.2 = some s := by
  cases s with
  | kk d s => have := d.isLt; have := s.isLt; simp [KmovForm.toRaw, KmovForm.ofRaw]; omega
  | kg d s => have := d.isLt; simp [KmovForm.toRaw, KmovForm.ofRaw]; omega
  | gk d s => have := s.isLt; simp [KmovForm.toRaw, KmovForm.ofRaw]; omega
@[simp] theorem SpPos.ofRaw_toRaw (s : SpPos) : SpPos.ofRaw s.toRaw = some s := by
  cases s with
  | direct b r =>
    have := b.isLt; have := r.isLt
    have h : b.toNat * 2 ^ 11 + r.toNat < 2 ^ 17 := by omega
    have h1 : (b.toNat * 2 ^ 11 + r.toNat) / 2 ^ 11 = b.toNat := by omega
    have h2 : (b.toNat * 2 ^ 11 + r.toNat) % 2 ^ 11 = r.toNat := by omega
    simp only [SpPos.toRaw, SpPos.ofRaw, if_pos h, h1, h2, BitVec.ofNat_toNat, BitVec.setWidth_eq]
  | indirect a =>
    have := a.isLt
    have h : ¬ 2 ^ 17 + a.toNat * 2 ^ 13 < 2 ^ 17 := by omega
    have h1 : (2 ^ 17 + a.toNat * 2 ^ 13) % 2 ^ 13 = 0 := by omega
    have h2 : (2 ^ 17 + a.toNat * 2 ^ 13 - 2 ^ 17) / 2 ^ 13 = a.toNat := by omega
    simp only [SpPos.toRaw, SpPos.ofRaw, if_neg h, if_pos h1, h2, BitVec.ofNat_toNat, BitVec.setWidth_eq]
@[simp] theorem DrainTgt.ofRaw_toRaw (s : DrainTgt) : DrainTgt.ofRaw s.toRaw = some s := by
  cases s with
  | sp b r f =>
    have := b.isLt; have := r.isLt; have := f.isLt
    have h : b.toNat * 2 ^ 30 + r.toNat * 2 ^ 19 + f.toNat * 2 ^ 14 < 2 ^ 36 := by omega
    have h0 : (b.toNat * 2 ^ 30 + r.toNat * 2 ^ 19 + f.toNat * 2 ^ 14) % 2 ^ 14 = 0 := by omega
    have h1 : (b.toNat * 2 ^ 30 + r.toNat * 2 ^ 19 + f.toNat * 2 ^ 14) / 2 ^ 30 = b.toNat := by omega
    have h2 : (b.toNat * 2 ^ 30 + r.toNat * 2 ^ 19 + f.toNat * 2 ^ 14) / 2 ^ 19 % 2 ^ 11 = r.toNat := by omega
    have h3 : (b.toNat * 2 ^ 30 + r.toNat * 2 ^ 19 + f.toNat * 2 ^ 14) / 2 ^ 14 % 2 ^ 5 = f.toNat := by omega
    simp only [DrainTgt.toRaw, DrainTgt.ofRaw, if_pos h, if_pos h0, h1, h2, h3, BitVec.ofNat_toNat, BitVec.setWidth_eq]
  | mem a imm =>
    have := a.isLt; have := imm.isLt
    have h : ¬ 2 ^ 36 + a.toNat * 2 ^ 32 + imm.toNat < 2 ^ 36 := by omega
    have h1 : (2 ^ 36 + a.toNat * 2 ^ 32 + imm.toNat - 2 ^ 36) / 2 ^ 32 = a.toNat := by omega
    have h2 : (2 ^ 36 + a.toNat * 2 ^ 32 + imm.toNat) % 2 ^ 32 = imm.toNat := by omega
    simp only [DrainTgt.toRaw, DrainTgt.ofRaw, if_neg h, h1, h2, BitVec.ofNat_toNat, BitVec.setWidth_eq]
@[simp] theorem LdsForm.ofRaw_toRaw (s : LdsForm) : LdsForm.ofRaw s.toRaw.1 s.toRaw.2.1 s.toRaw.2.2.1 s.toRaw.2.2.2.1
    s.toRaw.2.2.2.2.1 s.toRaw.2.2.2.2.2 = some s := by
  cases s <;> simp [LdsForm.toRaw, LdsForm.ofRaw]
@[simp] theorem Place.ofField_toField (p : Place) : Place.ofField p.side p.toField = some p := by
  cases p with
  | sp b r =>
    have := b.isLt; have := r.isLt
    have h1 : (b.toNat * 2 ^ 11 + r.toNat) / 2 ^ 11 = b.toNat := by omega
    have h2 : (b.toNat * 2 ^ 11 + r.toNat) % 2 ^ 11 = r.toNat := by omega
    simp only [Place.side, Place.toField, Place.ofField, if_true, h1, h2, BitVec.ofNat_toNat, BitVec.setWidth_eq]
  | mem a =>
    have h1 : a.toNat * 2 ^ 13 / 2 ^ 13 = a.toNat := by omega
    have h2 : a.toNat * 2 ^ 13 % 2 ^ 13 = 0 := by omega
    simp [Place.side, Place.toField, Place.ofField]
@[simp] theorem Place.ofRaw_toRaw (p : Place) : Place.ofRaw p.toRaw.1 p.toRaw.2 = some p := by
  simp [Place.ofRaw, Place.toRaw]
theorem Place.side_lt (p : Place) : p.side < 2 := by cases p <;> simp [Place.side]
@[simp] theorem Places.ofRaw_toRaw (p : Places) : Places.ofRaw p.toRaw.1 p.toRaw.2.1 p.toRaw.2.2 = some p := by
  have h1 : (2 * p.src.side + p.dst.side) % 2 = p.dst.side := by have := p.dst.side_lt; omega
  have h2 : (2 * p.src.side + p.dst.side) / 2 = p.src.side := by have := p.dst.side_lt; omega
  simp [Places.ofRaw, Places.toRaw, h1, h2]

theorem VSrc.toRaw_lt (s : VSrc) : s.toRaw.1 < 2 ^ 6 ∧ s.toRaw.2.1 < 2 ^ 1 ∧ s.toRaw.2.2 < 2 ^ 16 := by
  cases s <;> simp [VSrc.toRaw] <;> exact BitVec.isLt _
theorem BitPos.toRaw_lt (s : BitPos) : s.toRaw.1 < 2 ^ 6 ∧ s.toRaw.2.1 < 2 ^ 1 ∧ s.toRaw.2.2 < 2 ^ 5 := by
  cases s <;> simp [BitPos.toRaw] <;> exact BitVec.isLt _
theorem FunAmt.toRaw_lt (s : FunAmt) : s.toRaw.1 < 2 ^ 6 ∧ s.toRaw.2.1 < 2 ^ 1 ∧ s.toRaw.2.2 < 2 ^ 6 := by
  cases s <;> simp [FunAmt.toRaw] <;> exact BitVec.isLt _
theorem BcastSrc.toRaw_lt (s : BcastSrc) : s.toRaw.1 < 2 ^ 1 ∧ s.toRaw.2.1 < 2 ^ 6 ∧ s.toRaw.2.2 < 2 ^ 6 := by
  cases s <;> simp [BcastSrc.toRaw] <;> first | exact BitVec.isLt _ | exact ⟨BitVec.isLt _, BitVec.isLt _⟩
theorem CvtFmt.toRaw_lt (s : CvtFmt) : s.toRaw.1 < 2 ^ 5 ∧ s.toRaw.2 < 2 ^ 1 := by
  cases s <;> simp [CvtFmt.toRaw] <;> exact BitVec.isLt _
theorem KmovForm.toRaw_lt (s : KmovForm) : s.toRaw.1 < 2 ^ 6 ∧ s.toRaw.2.1 < 2 ^ 6 ∧ s.toRaw.2.2 < 2 ^ 2 := by
  cases s with
  | kk d s => have := d.isLt; have := s.isLt; simp only [KmovForm.toRaw]; omega
  | kg d s => have := d.isLt; have := s.isLt; simp only [KmovForm.toRaw]; omega
  | gk d s => have := d.isLt; have := s.isLt; simp only [KmovForm.toRaw]; omega
theorem SpPos.toRaw_lt (s : SpPos) : s.toRaw < 2 ^ 18 := by
  cases s with
  | direct b r => have := b.isLt; have := r.isLt; simp only [SpPos.toRaw]; omega
  | indirect a => have := a.isLt; simp only [SpPos.toRaw]; omega
theorem DrainTgt.toRaw_lt (s : DrainTgt) : s.toRaw < 2 ^ 37 := by
  cases s with
  | sp b r f => have := b.isLt; have := r.isLt; have := f.isLt; simp only [DrainTgt.toRaw]; omega
  | mem a imm => have := a.isLt; have := imm.isLt; simp only [DrainTgt.toRaw]; omega
theorem LdsForm.toRaw_lt (s : LdsForm) : s.toRaw.1 < 2 ^ 6 ∧ s.toRaw.2.1 < 2 ^ 1 ∧ s.toRaw.2.2.1 < 2 ^ 4 ∧ s.toRaw.2.2.2.1 < 2 ^ 6
    ∧ s.toRaw.2.2.2.2.1 < 2 ^ 2 ∧ s.toRaw.2.2.2.2.2 < 2 ^ 1 := by
  cases s with
  | vec d km => have := d.isLt; have := km.isLt; simp only [LdsForm.toRaw]; omega
  | scalar d b z x => have := d.isLt; have := b.isLt; have := z.isLt; have := x.isLt; simp only [LdsForm.toRaw]; omega
theorem Place.toField_lt (p : Place) : p.toField < 2 ^ 17 := by
  cases p with
  | sp b r => have := b.isLt; have := r.isLt; simp only [Place.toField]; omega
  | mem a => have := a.isLt; simp only [Place.toField]; omega
theorem Place.toRaw_lt (p : Place) : p.toRaw.1 < 2 ^ 1 ∧ p.toRaw.2 < 2 ^ 17 := ⟨by have := p.side_lt; simpa [Place.toRaw], p.toField_lt⟩
theorem Places.toRaw_lt (p : Places) : p.toRaw.1 < 2 ^ 2 ∧ p.toRaw.2.1 < 2 ^ 17 ∧ p.toRaw.2.2 < 2 ^ 17 :=
  ⟨by have := p.dst.side_lt; have := p.src.side_lt; simp only [Places.toRaw]; omega, p.dst.toField_lt, p.src.toField_lt⟩

/-- Fields that fit pack into their area. -/
theorem packFields_lt (w : Nat) (fs : List (Nat × Nat)) (hf : ∀ p ∈ fs, p.2 < 2 ^ p.1) (hw : (fs.map Prod.fst).sum ≤ w) :
    packFields w fs < 2 ^ w := by
  induction fs generalizing w with
  | nil => simp [packFields]
  | cons p fs ih =>
    obtain ⟨n, v⟩ := p
    simp only [List.map_cons, List.sum_cons] at hw
    have h1 := ih (w - n) (fun q hq => hf q (List.mem_cons_of_mem _ hq)) (by omega)
    have h2 : v < 2 ^ n := hf (n, v) (by simp)
    simp only [packFields]
    have h3 : 2 ^ w = 2 ^ n * 2 ^ (w - n) := by rw [← pow_add]; congr 1; omega
    rw [h3]
    calc v * 2 ^ (w - n) + packFields (w - n) fs < v * 2 ^ (w - n) + 2 ^ (w - n) := by omega
      _ = (v + 1) * 2 ^ (w - n) := by ring
      _ ≤ 2 ^ n * 2 ^ (w - n) := Nat.mul_le_mul_right _ h2

/-- A packed area is unpacked into its fields (05 R91). -/
theorem unpackFields_packFields (w : Nat) (fs : List (Nat × Nat)) (hf : ∀ p ∈ fs, p.2 < 2 ^ p.1)
    (hw : (fs.map Prod.fst).sum ≤ w) : unpackFields w (fs.map Prod.fst) (packFields w fs) = some (fs.map Prod.snd) := by
  induction fs generalizing w with
  | nil => simp [packFields, unpackFields]
  | cons p fs ih =>
    obtain ⟨n, v⟩ := p
    simp only [List.map_cons, List.sum_cons] at hw ⊢
    have hf' : ∀ q ∈ fs, q.2 < 2 ^ q.1 := fun q hq => hf q (List.mem_cons_of_mem _ hq)
    have h1 := packFields_lt (w - n) fs hf' (by omega)
    have h2 : (v * 2 ^ (w - n) + packFields (w - n) fs) % 2 ^ (w - n) = packFields (w - n) fs := by
      rw [Nat.mul_add_mod_self_right, Nat.mod_eq_of_lt h1]
    have h3 : (v * 2 ^ (w - n) + packFields (w - n) fs) / 2 ^ (w - n) = v := by
      rw [Nat.add_comm, Nat.add_mul_div_right _ _ (Nat.two_pow_pos _), Nat.div_eq_of_lt h1, Nat.zero_add]
    simp only [packFields, unpackFields, h2, h3, ih (w - n) hf' (by omega), Option.map_some]

end Sys2Proof
end

