-- ==== Sys2Proof/Laws/State.lean ====
section
/-! SUPPORT. What each update of the state leaves alone and what it changes: one lemma per field per update, true by
unfolding, so that no later proof unfolds a record update. -/

namespace Sys2Proof.Machine

variable (s : State) (c e : BitVec 8) (x y : CtxId) (d d' : BitVec 2)

/-! ### One core -/

@[simp] theorem State.modCore_dc (f : Core → Core) : (s.modCore c f).dc = s.dc := rfl
@[simp] theorem State.modCore_turn (f : Core → Core) : (s.modCore c f).turn = s.turn := rfl
@[simp] theorem State.modCore_occ (f : Core → Core) : (s.modCore c f).occ = s.occ := rfl
@[simp] theorem State.modCore_inputs (f : Core → Core) : (s.modCore c f).inputs = s.inputs := rfl
@[simp] theorem State.modCore_agenda (f : Core → Core) : (s.modCore c f).agenda = s.agenda := rfl
@[simp] theorem State.modCore_fired (f : Core → Core) : (s.modCore c f).fired = s.fired := rfl
@[simp] theorem State.modCore_fresh (f : Core → Core) : (s.modCore c f).fresh = s.fresh := rfl
@[simp] theorem State.modCore_nextId (f : Core → Core) : (s.modCore c f).nextId = s.nextId := rfl
@[simp] theorem State.modCore_iss (f : Core → Core) : (s.modCore c f).iss = s.iss := rfl
@[simp] theorem State.modCore_dies (f : Core → Core) : (s.modCore c f).dies = s.dies := rfl
@[simp] theorem State.modCore_links (f : Core → Core) : (s.modCore c f).links = s.links := rfl
@[simp] theorem State.modCore_hosts (f : Core → Core) : (s.modCore c f).hosts = s.hosts := rfl
@[simp] theorem State.modCore_mem (f : Core → Core) : (s.modCore c f).mem = s.mem := rfl
@[simp] theorem State.modCore_jobs (f : Core → Core) : (s.modCore c f).jobs = s.jobs := rfl
@[simp] theorem State.modCore_tensors (f : Core → Core) : (s.modCore c f).tensors = s.tensors := rfl
@[simp] theorem State.modCore_kvs (f : Core → Core) : (s.modCore c f).kvs = s.kvs := rfl
@[simp] theorem State.modCore_work (f : Core → Core) : (s.modCore c f).work = s.work := rfl
@[simp] theorem State.modCore_power (f : Core → Core) : (s.modCore c f).power = s.power := rfl
@[simp] theorem State.modCore_tables (f : Core → Core) : (s.modCore c f).tables = s.tables := rfl

/-! ### One context -/

@[simp] theorem State.modCtx_dc (f : Ctx → Ctx) : (s.modCtx x f).dc = s.dc := rfl
@[simp] theorem State.modCtx_turn (f : Ctx → Ctx) : (s.modCtx x f).turn = s.turn := rfl
@[simp] theorem State.modCtx_occ (f : Ctx → Ctx) : (s.modCtx x f).occ = s.occ := rfl
@[simp] theorem State.modCtx_inputs (f : Ctx → Ctx) : (s.modCtx x f).inputs = s.inputs := rfl
@[simp] theorem State.modCtx_agenda (f : Ctx → Ctx) : (s.modCtx x f).agenda = s.agenda := rfl
@[simp] theorem State.modCtx_fired (f : Ctx → Ctx) : (s.modCtx x f).fired = s.fired := rfl
@[simp] theorem State.modCtx_fresh (f : Ctx → Ctx) : (s.modCtx x f).fresh = s.fresh := rfl
@[simp] theorem State.modCtx_nextId (f : Ctx → Ctx) : (s.modCtx x f).nextId = s.nextId := rfl
@[simp] theorem State.modCtx_iss (f : Ctx → Ctx) : (s.modCtx x f).iss = s.iss := rfl
@[simp] theorem State.modCtx_dies (f : Ctx → Ctx) : (s.modCtx x f).dies = s.dies := rfl
@[simp] theorem State.modCtx_links (f : Ctx → Ctx) : (s.modCtx x f).links = s.links := rfl
@[simp] theorem State.modCtx_hosts (f : Ctx → Ctx) : (s.modCtx x f).hosts = s.hosts := rfl
@[simp] theorem State.modCtx_mem (f : Ctx → Ctx) : (s.modCtx x f).mem = s.mem := rfl
@[simp] theorem State.modCtx_jobs (f : Ctx → Ctx) : (s.modCtx x f).jobs = s.jobs := rfl
@[simp] theorem State.modCtx_tensors (f : Ctx → Ctx) : (s.modCtx x f).tensors = s.tensors := rfl
@[simp] theorem State.modCtx_kvs (f : Ctx → Ctx) : (s.modCtx x f).kvs = s.kvs := rfl
@[simp] theorem State.modCtx_work (f : Ctx → Ctx) : (s.modCtx x f).work = s.work := rfl
@[simp] theorem State.modCtx_power (f : Ctx → Ctx) : (s.modCtx x f).power = s.power := rfl
@[simp] theorem State.modCtx_tables (f : Ctx → Ctx) : (s.modCtx x f).tables = s.tables := rfl

/-! ### One die -/

@[simp] theorem State.modDie_dc (f : Die → Die) : (s.modDie d f).dc = s.dc := rfl
@[simp] theorem State.modDie_turn (f : Die → Die) : (s.modDie d f).turn = s.turn := rfl
@[simp] theorem State.modDie_occ (f : Die → Die) : (s.modDie d f).occ = s.occ := rfl
@[simp] theorem State.modDie_inputs (f : Die → Die) : (s.modDie d f).inputs = s.inputs := rfl
@[simp] theorem State.modDie_agenda (f : Die → Die) : (s.modDie d f).agenda = s.agenda := rfl
@[simp] theorem State.modDie_fired (f : Die → Die) : (s.modDie d f).fired = s.fired := rfl
@[simp] theorem State.modDie_fresh (f : Die → Die) : (s.modDie d f).fresh = s.fresh := rfl
@[simp] theorem State.modDie_nextId (f : Die → Die) : (s.modDie d f).nextId = s.nextId := rfl
@[simp] theorem State.modDie_iss (f : Die → Die) : (s.modDie d f).iss = s.iss := rfl
@[simp] theorem State.modDie_cores (f : Die → Die) : (s.modDie d f).cores = s.cores := rfl
@[simp] theorem State.modDie_links (f : Die → Die) : (s.modDie d f).links = s.links := rfl
@[simp] theorem State.modDie_hosts (f : Die → Die) : (s.modDie d f).hosts = s.hosts := rfl
@[simp] theorem State.modDie_mem (f : Die → Die) : (s.modDie d f).mem = s.mem := rfl
@[simp] theorem State.modDie_jobs (f : Die → Die) : (s.modDie d f).jobs = s.jobs := rfl
@[simp] theorem State.modDie_tensors (f : Die → Die) : (s.modDie d f).tensors = s.tensors := rfl
@[simp] theorem State.modDie_kvs (f : Die → Die) : (s.modDie d f).kvs = s.kvs := rfl
@[simp] theorem State.modDie_work (f : Die → Die) : (s.modDie d f).work = s.work := rfl
@[simp] theorem State.modDie_power (f : Die → Die) : (s.modDie d f).power = s.power := rfl
@[simp] theorem State.modDie_tables (f : Die → Die) : (s.modDie d f).tables = s.tables := rfl

/-! ### One direction of a link -/

@[simp] theorem State.modLink_dc (f : Link → Link) : (s.modLink d d' f).dc = s.dc := rfl
@[simp] theorem State.modLink_turn (f : Link → Link) : (s.modLink d d' f).turn = s.turn := rfl
@[simp] theorem State.modLink_occ (f : Link → Link) : (s.modLink d d' f).occ = s.occ := rfl
@[simp] theorem State.modLink_inputs (f : Link → Link) : (s.modLink d d' f).inputs = s.inputs := rfl
@[simp] theorem State.modLink_agenda (f : Link → Link) : (s.modLink d d' f).agenda = s.agenda := rfl
@[simp] theorem State.modLink_fired (f : Link → Link) : (s.modLink d d' f).fired = s.fired := rfl
@[simp] theorem State.modLink_fresh (f : Link → Link) : (s.modLink d d' f).fresh = s.fresh := rfl
@[simp] theorem State.modLink_nextId (f : Link → Link) : (s.modLink d d' f).nextId = s.nextId := rfl
@[simp] theorem State.modLink_iss (f : Link → Link) : (s.modLink d d' f).iss = s.iss := rfl
@[simp] theorem State.modLink_cores (f : Link → Link) : (s.modLink d d' f).cores = s.cores := rfl
@[simp] theorem State.modLink_dies (f : Link → Link) : (s.modLink d d' f).dies = s.dies := rfl
@[simp] theorem State.modLink_hosts (f : Link → Link) : (s.modLink d d' f).hosts = s.hosts := rfl
@[simp] theorem State.modLink_mem (f : Link → Link) : (s.modLink d d' f).mem = s.mem := rfl
@[simp] theorem State.modLink_jobs (f : Link → Link) : (s.modLink d d' f).jobs = s.jobs := rfl
@[simp] theorem State.modLink_tensors (f : Link → Link) : (s.modLink d d' f).tensors = s.tensors := rfl
@[simp] theorem State.modLink_kvs (f : Link → Link) : (s.modLink d d' f).kvs = s.kvs := rfl
@[simp] theorem State.modLink_work (f : Link → Link) : (s.modLink d d' f).work = s.work := rfl
@[simp] theorem State.modLink_power (f : Link → Link) : (s.modLink d d' f).power = s.power := rfl
@[simp] theorem State.modLink_tables (f : Link → Link) : (s.modLink d d' f).tables = s.tables := rfl

/-! ### One host function -/

@[simp] theorem State.modHost_dc (f : HostFn → HostFn) : (s.modHost d f).dc = s.dc := rfl
@[simp] theorem State.modHost_turn (f : HostFn → HostFn) : (s.modHost d f).turn = s.turn := rfl
@[simp] theorem State.modHost_occ (f : HostFn → HostFn) : (s.modHost d f).occ = s.occ := rfl
@[simp] theorem State.modHost_inputs (f : HostFn → HostFn) : (s.modHost d f).inputs = s.inputs := rfl
@[simp] theorem State.modHost_agenda (f : HostFn → HostFn) : (s.modHost d f).agenda = s.agenda := rfl
@[simp] theorem State.modHost_fired (f : HostFn → HostFn) : (s.modHost d f).fired = s.fired := rfl
@[simp] theorem State.modHost_fresh (f : HostFn → HostFn) : (s.modHost d f).fresh = s.fresh := rfl
@[simp] theorem State.modHost_nextId (f : HostFn → HostFn) : (s.modHost d f).nextId = s.nextId := rfl
@[simp] theorem State.modHost_iss (f : HostFn → HostFn) : (s.modHost d f).iss = s.iss := rfl
@[simp] theorem State.modHost_cores (f : HostFn → HostFn) : (s.modHost d f).cores = s.cores := rfl
@[simp] theorem State.modHost_dies (f : HostFn → HostFn) : (s.modHost d f).dies = s.dies := rfl
@[simp] theorem State.modHost_links (f : HostFn → HostFn) : (s.modHost d f).links = s.links := rfl
@[simp] theorem State.modHost_mem (f : HostFn → HostFn) : (s.modHost d f).mem = s.mem := rfl
@[simp] theorem State.modHost_jobs (f : HostFn → HostFn) : (s.modHost d f).jobs = s.jobs := rfl
@[simp] theorem State.modHost_tensors (f : HostFn → HostFn) : (s.modHost d f).tensors = s.tensors := rfl
@[simp] theorem State.modHost_kvs (f : HostFn → HostFn) : (s.modHost d f).kvs = s.kvs := rfl
@[simp] theorem State.modHost_work (f : HostFn → HostFn) : (s.modHost d f).work = s.work := rfl
@[simp] theorem State.modHost_power (f : HostFn → HostFn) : (s.modHost d f).power = s.power := rfl
@[simp] theorem State.modHost_tables (f : HostFn → HostFn) : (s.modHost d f).tables = s.tables := rfl

/-! ### The bundle being issued -/

@[simp] theorem State.modIss_dc (f : Iss → Iss) : (s.modIss f).dc = s.dc := rfl
@[simp] theorem State.modIss_turn (f : Iss → Iss) : (s.modIss f).turn = s.turn := rfl
@[simp] theorem State.modIss_occ (f : Iss → Iss) : (s.modIss f).occ = s.occ := rfl
@[simp] theorem State.modIss_inputs (f : Iss → Iss) : (s.modIss f).inputs = s.inputs := rfl
@[simp] theorem State.modIss_agenda (f : Iss → Iss) : (s.modIss f).agenda = s.agenda := rfl
@[simp] theorem State.modIss_fired (f : Iss → Iss) : (s.modIss f).fired = s.fired := rfl
@[simp] theorem State.modIss_fresh (f : Iss → Iss) : (s.modIss f).fresh = s.fresh := rfl
@[simp] theorem State.modIss_nextId (f : Iss → Iss) : (s.modIss f).nextId = s.nextId := rfl
@[simp] theorem State.modIss_cores (f : Iss → Iss) : (s.modIss f).cores = s.cores := rfl
@[simp] theorem State.modIss_dies (f : Iss → Iss) : (s.modIss f).dies = s.dies := rfl
@[simp] theorem State.modIss_links (f : Iss → Iss) : (s.modIss f).links = s.links := rfl
@[simp] theorem State.modIss_hosts (f : Iss → Iss) : (s.modIss f).hosts = s.hosts := rfl
@[simp] theorem State.modIss_mem (f : Iss → Iss) : (s.modIss f).mem = s.mem := rfl
@[simp] theorem State.modIss_jobs (f : Iss → Iss) : (s.modIss f).jobs = s.jobs := rfl
@[simp] theorem State.modIss_tensors (f : Iss → Iss) : (s.modIss f).tensors = s.tensors := rfl
@[simp] theorem State.modIss_kvs (f : Iss → Iss) : (s.modIss f).kvs = s.kvs := rfl
@[simp] theorem State.modIss_work (f : Iss → Iss) : (s.modIss f).work = s.work := rfl
@[simp] theorem State.modIss_power (f : Iss → Iss) : (s.modIss f).power = s.power := rfl
@[simp] theorem State.modIss_tables (f : Iss → Iss) : (s.modIss f).tables = s.tables := rfl

/-! ### Memory -/

@[simp] theorem State.modMem_dc (f : Mem → Mem) : (s.modMem f).dc = s.dc := rfl
@[simp] theorem State.modMem_turn (f : Mem → Mem) : (s.modMem f).turn = s.turn := rfl
@[simp] theorem State.modMem_occ (f : Mem → Mem) : (s.modMem f).occ = s.occ := rfl
@[simp] theorem State.modMem_inputs (f : Mem → Mem) : (s.modMem f).inputs = s.inputs := rfl
@[simp] theorem State.modMem_agenda (f : Mem → Mem) : (s.modMem f).agenda = s.agenda := rfl
@[simp] theorem State.modMem_fired (f : Mem → Mem) : (s.modMem f).fired = s.fired := rfl
@[simp] theorem State.modMem_fresh (f : Mem → Mem) : (s.modMem f).fresh = s.fresh := rfl
@[simp] theorem State.modMem_nextId (f : Mem → Mem) : (s.modMem f).nextId = s.nextId := rfl
@[simp] theorem State.modMem_iss (f : Mem → Mem) : (s.modMem f).iss = s.iss := rfl
@[simp] theorem State.modMem_cores (f : Mem → Mem) : (s.modMem f).cores = s.cores := rfl
@[simp] theorem State.modMem_dies (f : Mem → Mem) : (s.modMem f).dies = s.dies := rfl
@[simp] theorem State.modMem_links (f : Mem → Mem) : (s.modMem f).links = s.links := rfl
@[simp] theorem State.modMem_hosts (f : Mem → Mem) : (s.modMem f).hosts = s.hosts := rfl
@[simp] theorem State.modMem_jobs (f : Mem → Mem) : (s.modMem f).jobs = s.jobs := rfl
@[simp] theorem State.modMem_tensors (f : Mem → Mem) : (s.modMem f).tensors = s.tensors := rfl
@[simp] theorem State.modMem_kvs (f : Mem → Mem) : (s.modMem f).kvs = s.kvs := rfl
@[simp] theorem State.modMem_work (f : Mem → Mem) : (s.modMem f).work = s.work := rfl
@[simp] theorem State.modMem_power (f : Mem → Mem) : (s.modMem f).power = s.power := rfl
@[simp] theorem State.modMem_tables (f : Mem → Mem) : (s.modMem f).tables = s.tables := rfl

/-! ### One task record -/

@[simp] theorem State.modTask_dc (k : Nat) (f : Task → Task) : (s.modTask k f).dc = s.dc := rfl
@[simp] theorem State.modTask_turn (k : Nat) (f : Task → Task) : (s.modTask k f).turn = s.turn := rfl
@[simp] theorem State.modTask_occ (k : Nat) (f : Task → Task) : (s.modTask k f).occ = s.occ := rfl
@[simp] theorem State.modTask_inputs (k : Nat) (f : Task → Task) : (s.modTask k f).inputs = s.inputs := rfl
@[simp] theorem State.modTask_agenda (k : Nat) (f : Task → Task) : (s.modTask k f).agenda = s.agenda := rfl
@[simp] theorem State.modTask_fired (k : Nat) (f : Task → Task) : (s.modTask k f).fired = s.fired := rfl
@[simp] theorem State.modTask_fresh (k : Nat) (f : Task → Task) : (s.modTask k f).fresh = s.fresh := rfl
@[simp] theorem State.modTask_nextId (k : Nat) (f : Task → Task) : (s.modTask k f).nextId = s.nextId := rfl
@[simp] theorem State.modTask_iss (k : Nat) (f : Task → Task) : (s.modTask k f).iss = s.iss := rfl
@[simp] theorem State.modTask_cores (k : Nat) (f : Task → Task) : (s.modTask k f).cores = s.cores := rfl
@[simp] theorem State.modTask_dies (k : Nat) (f : Task → Task) : (s.modTask k f).dies = s.dies := rfl
@[simp] theorem State.modTask_links (k : Nat) (f : Task → Task) : (s.modTask k f).links = s.links := rfl
@[simp] theorem State.modTask_hosts (k : Nat) (f : Task → Task) : (s.modTask k f).hosts = s.hosts := rfl
@[simp] theorem State.modTask_mem (k : Nat) (f : Task → Task) : (s.modTask k f).mem = s.mem := rfl
@[simp] theorem State.modTask_jobs (k : Nat) (f : Task → Task) : (s.modTask k f).jobs = s.jobs := rfl
@[simp] theorem State.modTask_tensors (k : Nat) (f : Task → Task) : (s.modTask k f).tensors = s.tensors := rfl
@[simp] theorem State.modTask_kvs (k : Nat) (f : Task → Task) : (s.modTask k f).kvs = s.kvs := rfl
@[simp] theorem State.modTask_power (k : Nat) (f : Task → Task) : (s.modTask k f).power = s.power := rfl
@[simp] theorem State.modTask_tables (k : Nat) (f : Task → Task) : (s.modTask k f).tables = s.tables := rfl

/-! ### One gang -/

@[simp] theorem State.modGang_dc (k : GangId) (f : Gang → Gang) : (s.modGang k f).dc = s.dc := rfl
@[simp] theorem State.modGang_turn (k : GangId) (f : Gang → Gang) : (s.modGang k f).turn = s.turn := rfl
@[simp] theorem State.modGang_occ (k : GangId) (f : Gang → Gang) : (s.modGang k f).occ = s.occ := rfl
@[simp] theorem State.modGang_inputs (k : GangId) (f : Gang → Gang) : (s.modGang k f).inputs = s.inputs := rfl
@[simp] theorem State.modGang_agenda (k : GangId) (f : Gang → Gang) : (s.modGang k f).agenda = s.agenda := rfl
@[simp] theorem State.modGang_fired (k : GangId) (f : Gang → Gang) : (s.modGang k f).fired = s.fired := rfl
@[simp] theorem State.modGang_fresh (k : GangId) (f : Gang → Gang) : (s.modGang k f).fresh = s.fresh := rfl
@[simp] theorem State.modGang_nextId (k : GangId) (f : Gang → Gang) : (s.modGang k f).nextId = s.nextId := rfl
@[simp] theorem State.modGang_iss (k : GangId) (f : Gang → Gang) : (s.modGang k f).iss = s.iss := rfl
@[simp] theorem State.modGang_cores (k : GangId) (f : Gang → Gang) : (s.modGang k f).cores = s.cores := rfl
@[simp] theorem State.modGang_dies (k : GangId) (f : Gang → Gang) : (s.modGang k f).dies = s.dies := rfl
@[simp] theorem State.modGang_links (k : GangId) (f : Gang → Gang) : (s.modGang k f).links = s.links := rfl
@[simp] theorem State.modGang_hosts (k : GangId) (f : Gang → Gang) : (s.modGang k f).hosts = s.hosts := rfl
@[simp] theorem State.modGang_mem (k : GangId) (f : Gang → Gang) : (s.modGang k f).mem = s.mem := rfl
@[simp] theorem State.modGang_jobs (k : GangId) (f : Gang → Gang) : (s.modGang k f).jobs = s.jobs := rfl
@[simp] theorem State.modGang_tensors (k : GangId) (f : Gang → Gang) : (s.modGang k f).tensors = s.tensors := rfl
@[simp] theorem State.modGang_kvs (k : GangId) (f : Gang → Gang) : (s.modGang k f).kvs = s.kvs := rfl
@[simp] theorem State.modGang_power (k : GangId) (f : Gang → Gang) : (s.modGang k f).power = s.power := rfl
@[simp] theorem State.modGang_tables (k : GangId) (f : Gang → Gang) : (s.modGang k f).tables = s.tables := rfl

/-! ### One launch -/

@[simp] theorem State.modLaunch_dc (k : Nat) (f : Launch → Launch) : (s.modLaunch k f).dc = s.dc := rfl
@[simp] theorem State.modLaunch_turn (k : Nat) (f : Launch → Launch) : (s.modLaunch k f).turn = s.turn := rfl
@[simp] theorem State.modLaunch_occ (k : Nat) (f : Launch → Launch) : (s.modLaunch k f).occ = s.occ := rfl
@[simp] theorem State.modLaunch_inputs (k : Nat) (f : Launch → Launch) : (s.modLaunch k f).inputs = s.inputs := rfl
@[simp] theorem State.modLaunch_agenda (k : Nat) (f : Launch → Launch) : (s.modLaunch k f).agenda = s.agenda := rfl
@[simp] theorem State.modLaunch_fired (k : Nat) (f : Launch → Launch) : (s.modLaunch k f).fired = s.fired := rfl
@[simp] theorem State.modLaunch_fresh (k : Nat) (f : Launch → Launch) : (s.modLaunch k f).fresh = s.fresh := rfl
@[simp] theorem State.modLaunch_nextId (k : Nat) (f : Launch → Launch) : (s.modLaunch k f).nextId = s.nextId := rfl
@[simp] theorem State.modLaunch_iss (k : Nat) (f : Launch → Launch) : (s.modLaunch k f).iss = s.iss := rfl
@[simp] theorem State.modLaunch_cores (k : Nat) (f : Launch → Launch) : (s.modLaunch k f).cores = s.cores := rfl
@[simp] theorem State.modLaunch_dies (k : Nat) (f : Launch → Launch) : (s.modLaunch k f).dies = s.dies := rfl
@[simp] theorem State.modLaunch_links (k : Nat) (f : Launch → Launch) : (s.modLaunch k f).links = s.links := rfl
@[simp] theorem State.modLaunch_hosts (k : Nat) (f : Launch → Launch) : (s.modLaunch k f).hosts = s.hosts := rfl
@[simp] theorem State.modLaunch_mem (k : Nat) (f : Launch → Launch) : (s.modLaunch k f).mem = s.mem := rfl
@[simp] theorem State.modLaunch_jobs (k : Nat) (f : Launch → Launch) : (s.modLaunch k f).jobs = s.jobs := rfl
@[simp] theorem State.modLaunch_tensors (k : Nat) (f : Launch → Launch) : (s.modLaunch k f).tensors = s.tensors := rfl
@[simp] theorem State.modLaunch_kvs (k : Nat) (f : Launch → Launch) : (s.modLaunch k f).kvs = s.kvs := rfl
@[simp] theorem State.modLaunch_power (k : Nat) (f : Launch → Launch) : (s.modLaunch k f).power = s.power := rfl
@[simp] theorem State.modLaunch_tables (k : Nat) (f : Launch → Launch) : (s.modLaunch k f).tables = s.tables := rfl

/-! ### One tensor -/

@[simp] theorem State.modTensor_dc (k : BitVec 24) (f : Tensor → Tensor) : (s.modTensor k f).dc = s.dc := rfl
@[simp] theorem State.modTensor_turn (k : BitVec 24) (f : Tensor → Tensor) : (s.modTensor k f).turn = s.turn := rfl
@[simp] theorem State.modTensor_occ (k : BitVec 24) (f : Tensor → Tensor) : (s.modTensor k f).occ = s.occ := rfl
@[simp] theorem State.modTensor_inputs (k : BitVec 24) (f : Tensor → Tensor) : (s.modTensor k f).inputs = s.inputs := rfl
@[simp] theorem State.modTensor_agenda (k : BitVec 24) (f : Tensor → Tensor) : (s.modTensor k f).agenda = s.agenda := rfl
@[simp] theorem State.modTensor_fired (k : BitVec 24) (f : Tensor → Tensor) : (s.modTensor k f).fired = s.fired := rfl
@[simp] theorem State.modTensor_fresh (k : BitVec 24) (f : Tensor → Tensor) : (s.modTensor k f).fresh = s.fresh := rfl
@[simp] theorem State.modTensor_nextId (k : BitVec 24) (f : Tensor → Tensor) : (s.modTensor k f).nextId = s.nextId := rfl
@[simp] theorem State.modTensor_iss (k : BitVec 24) (f : Tensor → Tensor) : (s.modTensor k f).iss = s.iss := rfl
@[simp] theorem State.modTensor_cores (k : BitVec 24) (f : Tensor → Tensor) : (s.modTensor k f).cores = s.cores := rfl
@[simp] theorem State.modTensor_dies (k : BitVec 24) (f : Tensor → Tensor) : (s.modTensor k f).dies = s.dies := rfl
@[simp] theorem State.modTensor_links (k : BitVec 24) (f : Tensor → Tensor) : (s.modTensor k f).links = s.links := rfl
@[simp] theorem State.modTensor_hosts (k : BitVec 24) (f : Tensor → Tensor) : (s.modTensor k f).hosts = s.hosts := rfl
@[simp] theorem State.modTensor_mem (k : BitVec 24) (f : Tensor → Tensor) : (s.modTensor k f).mem = s.mem := rfl
@[simp] theorem State.modTensor_jobs (k : BitVec 24) (f : Tensor → Tensor) : (s.modTensor k f).jobs = s.jobs := rfl
@[simp] theorem State.modTensor_kvs (k : BitVec 24) (f : Tensor → Tensor) : (s.modTensor k f).kvs = s.kvs := rfl
@[simp] theorem State.modTensor_work (k : BitVec 24) (f : Tensor → Tensor) : (s.modTensor k f).work = s.work := rfl
@[simp] theorem State.modTensor_power (k : BitVec 24) (f : Tensor → Tensor) : (s.modTensor k f).power = s.power := rfl
@[simp] theorem State.modTensor_tables (k : BitVec 24) (f : Tensor → Tensor) : (s.modTensor k f).tables = s.tables := rfl

/-! ### One sequence -/

@[simp] theorem State.modKv_dc (k : BitVec 24) (f : KvSeq → KvSeq) : (s.modKv k f).dc = s.dc := rfl
@[simp] theorem State.modKv_turn (k : BitVec 24) (f : KvSeq → KvSeq) : (s.modKv k f).turn = s.turn := rfl
@[simp] theorem State.modKv_occ (k : BitVec 24) (f : KvSeq → KvSeq) : (s.modKv k f).occ = s.occ := rfl
@[simp] theorem State.modKv_inputs (k : BitVec 24) (f : KvSeq → KvSeq) : (s.modKv k f).inputs = s.inputs := rfl
@[simp] theorem State.modKv_agenda (k : BitVec 24) (f : KvSeq → KvSeq) : (s.modKv k f).agenda = s.agenda := rfl
@[simp] theorem State.modKv_fired (k : BitVec 24) (f : KvSeq → KvSeq) : (s.modKv k f).fired = s.fired := rfl
@[simp] theorem State.modKv_fresh (k : BitVec 24) (f : KvSeq → KvSeq) : (s.modKv k f).fresh = s.fresh := rfl
@[simp] theorem State.modKv_nextId (k : BitVec 24) (f : KvSeq → KvSeq) : (s.modKv k f).nextId = s.nextId := rfl
@[simp] theorem State.modKv_iss (k : BitVec 24) (f : KvSeq → KvSeq) : (s.modKv k f).iss = s.iss := rfl
@[simp] theorem State.modKv_cores (k : BitVec 24) (f : KvSeq → KvSeq) : (s.modKv k f).cores = s.cores := rfl
@[simp] theorem State.modKv_dies (k : BitVec 24) (f : KvSeq → KvSeq) : (s.modKv k f).dies = s.dies := rfl
@[simp] theorem State.modKv_links (k : BitVec 24) (f : KvSeq → KvSeq) : (s.modKv k f).links = s.links := rfl
@[simp] theorem State.modKv_hosts (k : BitVec 24) (f : KvSeq → KvSeq) : (s.modKv k f).hosts = s.hosts := rfl
@[simp] theorem State.modKv_mem (k : BitVec 24) (f : KvSeq → KvSeq) : (s.modKv k f).mem = s.mem := rfl
@[simp] theorem State.modKv_jobs (k : BitVec 24) (f : KvSeq → KvSeq) : (s.modKv k f).jobs = s.jobs := rfl
@[simp] theorem State.modKv_tensors (k : BitVec 24) (f : KvSeq → KvSeq) : (s.modKv k f).tensors = s.tensors := rfl
@[simp] theorem State.modKv_work (k : BitVec 24) (f : KvSeq → KvSeq) : (s.modKv k f).work = s.work := rfl
@[simp] theorem State.modKv_power (k : BitVec 24) (f : KvSeq → KvSeq) : (s.modKv k f).power = s.power := rfl
@[simp] theorem State.modKv_tables (k : BitVec 24) (f : KvSeq → KvSeq) : (s.modKv k f).tables = s.tables := rfl

/-! ### One job -/

@[simp] theorem State.modJob_dc (k : Nat) (f : Job → Job) : (s.modJob k f).dc = s.dc := rfl
@[simp] theorem State.modJob_turn (k : Nat) (f : Job → Job) : (s.modJob k f).turn = s.turn := rfl
@[simp] theorem State.modJob_occ (k : Nat) (f : Job → Job) : (s.modJob k f).occ = s.occ := rfl
@[simp] theorem State.modJob_inputs (k : Nat) (f : Job → Job) : (s.modJob k f).inputs = s.inputs := rfl
@[simp] theorem State.modJob_agenda (k : Nat) (f : Job → Job) : (s.modJob k f).agenda = s.agenda := rfl
@[simp] theorem State.modJob_fired (k : Nat) (f : Job → Job) : (s.modJob k f).fired = s.fired := rfl
@[simp] theorem State.modJob_fresh (k : Nat) (f : Job → Job) : (s.modJob k f).fresh = s.fresh := rfl
@[simp] theorem State.modJob_nextId (k : Nat) (f : Job → Job) : (s.modJob k f).nextId = s.nextId := rfl
@[simp] theorem State.modJob_iss (k : Nat) (f : Job → Job) : (s.modJob k f).iss = s.iss := rfl
@[simp] theorem State.modJob_cores (k : Nat) (f : Job → Job) : (s.modJob k f).cores = s.cores := rfl
@[simp] theorem State.modJob_dies (k : Nat) (f : Job → Job) : (s.modJob k f).dies = s.dies := rfl
@[simp] theorem State.modJob_links (k : Nat) (f : Job → Job) : (s.modJob k f).links = s.links := rfl
@[simp] theorem State.modJob_hosts (k : Nat) (f : Job → Job) : (s.modJob k f).hosts = s.hosts := rfl
@[simp] theorem State.modJob_mem (k : Nat) (f : Job → Job) : (s.modJob k f).mem = s.mem := rfl
@[simp] theorem State.modJob_tensors (k : Nat) (f : Job → Job) : (s.modJob k f).tensors = s.tensors := rfl
@[simp] theorem State.modJob_kvs (k : Nat) (f : Job → Job) : (s.modJob k f).kvs = s.kvs := rfl
@[simp] theorem State.modJob_work (k : Nat) (f : Job → Job) : (s.modJob k f).work = s.work := rfl
@[simp] theorem State.modJob_power (k : Nat) (f : Job → Job) : (s.modJob k f).power = s.power := rfl
@[simp] theorem State.modJob_tables (k : Nat) (f : Job → Job) : (s.modJob k f).tables = s.tables := rfl

/-! ### An event scheduled -/

@[simp] theorem State.at_dc (n : Nat) (a : Act) : (s.at_ n a).dc = s.dc := rfl
@[simp] theorem State.at_turn (n : Nat) (a : Act) : (s.at_ n a).turn = s.turn := rfl
@[simp] theorem State.at_occ (n : Nat) (a : Act) : (s.at_ n a).occ = s.occ := rfl
@[simp] theorem State.at_inputs (n : Nat) (a : Act) : (s.at_ n a).inputs = s.inputs := rfl
@[simp] theorem State.at_fired (n : Nat) (a : Act) : (s.at_ n a).fired = s.fired := rfl
@[simp] theorem State.at_fresh (n : Nat) (a : Act) : (s.at_ n a).fresh = s.fresh := rfl
@[simp] theorem State.at_nextId (n : Nat) (a : Act) : (s.at_ n a).nextId = s.nextId := rfl
@[simp] theorem State.at_iss (n : Nat) (a : Act) : (s.at_ n a).iss = s.iss := rfl
@[simp] theorem State.at_cores (n : Nat) (a : Act) : (s.at_ n a).cores = s.cores := rfl
@[simp] theorem State.at_dies (n : Nat) (a : Act) : (s.at_ n a).dies = s.dies := rfl
@[simp] theorem State.at_links (n : Nat) (a : Act) : (s.at_ n a).links = s.links := rfl
@[simp] theorem State.at_hosts (n : Nat) (a : Act) : (s.at_ n a).hosts = s.hosts := rfl
@[simp] theorem State.at_mem (n : Nat) (a : Act) : (s.at_ n a).mem = s.mem := rfl
@[simp] theorem State.at_jobs (n : Nat) (a : Act) : (s.at_ n a).jobs = s.jobs := rfl
@[simp] theorem State.at_tensors (n : Nat) (a : Act) : (s.at_ n a).tensors = s.tensors := rfl
@[simp] theorem State.at_kvs (n : Nat) (a : Act) : (s.at_ n a).kvs = s.kvs := rfl
@[simp] theorem State.at_work (n : Nat) (a : Act) : (s.at_ n a).work = s.work := rfl
@[simp] theorem State.at_power (n : Nat) (a : Act) : (s.at_ n a).power = s.power := rfl
@[simp] theorem State.at_tables (n : Nat) (a : Act) : (s.at_ n a).tables = s.tables := rfl

/-! ### A free value drawn -/

@[simp] theorem State.draw_dc (w : Config.Open) : ((s.draw w).2).dc = s.dc := rfl
@[simp] theorem State.draw_turn (w : Config.Open) : ((s.draw w).2).turn = s.turn := rfl
@[simp] theorem State.draw_occ (w : Config.Open) : ((s.draw w).2).occ = s.occ := rfl
@[simp] theorem State.draw_inputs (w : Config.Open) : ((s.draw w).2).inputs = s.inputs := rfl
@[simp] theorem State.draw_agenda (w : Config.Open) : ((s.draw w).2).agenda = s.agenda := rfl
@[simp] theorem State.draw_fired (w : Config.Open) : ((s.draw w).2).fired = s.fired := rfl
@[simp] theorem State.draw_nextId (w : Config.Open) : ((s.draw w).2).nextId = s.nextId := rfl
@[simp] theorem State.draw_iss (w : Config.Open) : ((s.draw w).2).iss = s.iss := rfl
@[simp] theorem State.draw_cores (w : Config.Open) : ((s.draw w).2).cores = s.cores := rfl
@[simp] theorem State.draw_dies (w : Config.Open) : ((s.draw w).2).dies = s.dies := rfl
@[simp] theorem State.draw_links (w : Config.Open) : ((s.draw w).2).links = s.links := rfl
@[simp] theorem State.draw_hosts (w : Config.Open) : ((s.draw w).2).hosts = s.hosts := rfl
@[simp] theorem State.draw_mem (w : Config.Open) : ((s.draw w).2).mem = s.mem := rfl
@[simp] theorem State.draw_jobs (w : Config.Open) : ((s.draw w).2).jobs = s.jobs := rfl
@[simp] theorem State.draw_tensors (w : Config.Open) : ((s.draw w).2).tensors = s.tensors := rfl
@[simp] theorem State.draw_kvs (w : Config.Open) : ((s.draw w).2).kvs = s.kvs := rfl
@[simp] theorem State.draw_work (w : Config.Open) : ((s.draw w).2).work = s.work := rfl
@[simp] theorem State.draw_power (w : Config.Open) : ((s.draw w).2).power = s.power := rfl
@[simp] theorem State.draw_tables (w : Config.Open) : ((s.draw w).2).tables = s.tables := rfl

/-! ### An operation number taken -/

@[simp] theorem State.newId_dc : (s.newId.2).dc = s.dc := rfl
@[simp] theorem State.newId_turn : (s.newId.2).turn = s.turn := rfl
@[simp] theorem State.newId_occ : (s.newId.2).occ = s.occ := rfl
@[simp] theorem State.newId_inputs : (s.newId.2).inputs = s.inputs := rfl
@[simp] theorem State.newId_agenda : (s.newId.2).agenda = s.agenda := rfl
@[simp] theorem State.newId_fired : (s.newId.2).fired = s.fired := rfl
@[simp] theorem State.newId_fresh : (s.newId.2).fresh = s.fresh := rfl
@[simp] theorem State.newId_iss : (s.newId.2).iss = s.iss := rfl
@[simp] theorem State.newId_cores : (s.newId.2).cores = s.cores := rfl
@[simp] theorem State.newId_dies : (s.newId.2).dies = s.dies := rfl
@[simp] theorem State.newId_links : (s.newId.2).links = s.links := rfl
@[simp] theorem State.newId_hosts : (s.newId.2).hosts = s.hosts := rfl
@[simp] theorem State.newId_mem : (s.newId.2).mem = s.mem := rfl
@[simp] theorem State.newId_jobs : (s.newId.2).jobs = s.jobs := rfl
@[simp] theorem State.newId_tensors : (s.newId.2).tensors = s.tensors := rfl
@[simp] theorem State.newId_kvs : (s.newId.2).kvs = s.kvs := rfl
@[simp] theorem State.newId_work : (s.newId.2).work = s.work := rfl
@[simp] theorem State.newId_power : (s.newId.2).power = s.power := rfl
@[simp] theorem State.newId_tables : (s.newId.2).tables = s.tables := rfl

/-! ### Names that stand for an update -/

@[simp] theorem State.modCur_eq (f : Ctx → Ctx) : s.modCur f = s.modCtx s.iss.x f := rfl
@[simp] theorem State.modRegs_eq (f : Regs → Regs) : s.modRegs x f = s.modCtx x fun c => { c with regs := f c.regs } := rfl
@[simp] theorem State.modFlow_eq (f : Flow → Flow) : s.modFlow x f = s.modCtx x fun c => { c with flow := f c.flow } := rfl
@[simp] theorem State.count_eq (f : Counters → Counters) : s.count d f = s.modDie d fun e => { e with ctr := f e.ctr } := rfl
@[simp] theorem State.cur_eq : s.cur = s.ctx s.iss.x := rfl

/-! ### What an update does to its own place and to another -/

theorem BitVec.toNat_ne_of_ne {w : Nat} {a b : BitVec w} (h : a ≠ b) : a.toNat ≠ b.toNat := fun e => h (BitVec.eq_of_toNat_eq e)

@[simp] theorem State.core_modCore (f : Core → Core) : (s.modCore c f).core c = f (s.core c) := by
  simp [State.core, State.modCore]
theorem State.core_modCore_of_ne (f : Core → Core) (h : e ≠ c) : (s.modCore c f).core e = s.core e := by
  simp [State.core, State.modCore, Vector.getElem_set_ne, (BitVec.toNat_ne_of_ne h).symm]
@[simp] theorem State.die_modDie (f : Die → Die) : (s.modDie d f).die d = f (s.die d) := by
  simp [State.die, State.modDie]
theorem State.die_modDie_of_ne (f : Die → Die) (h : d' ≠ d) : (s.modDie d f).die d' = s.die d' := by
  simp [State.die, State.modDie, Vector.getElem_set_ne, (BitVec.toNat_ne_of_ne h).symm]
@[simp] theorem State.host_modHost (f : HostFn → HostFn) : (s.modHost d f).host d = f (s.host d) := by
  simp [State.host, State.modHost]
theorem State.host_modHost_of_ne (f : HostFn → HostFn) (h : d' ≠ d) : (s.modHost d f).host d' = s.host d' := by
  simp [State.host, State.modHost, Vector.getElem_set_ne, (BitVec.toNat_ne_of_ne h).symm]
@[simp] theorem State.link_modLink (f : Link → Link) : (s.modLink d d' f).link d d' = f (s.link d d') := by
  simp [State.link, State.modLink]

@[simp] theorem Core.ctx_modCtx (k : Core) (b : Bool) (f : Ctx → Ctx) : (k.modCtx b f).ctx b = f (k.ctx b) := by
  cases b <;> rfl
@[simp] theorem Core.ctx_modCtx_not (k : Core) (b : Bool) (f : Ctx → Ctx) : (k.modCtx b f).ctx (!b) = k.ctx (!b) := by
  cases b <;> rfl
@[simp] theorem Core.modCtx_sp (k : Core) (b : Bool) (f : Ctx → Ctx) : (k.modCtx b f).sp = k.sp := by
  cases b <;> rfl
@[simp] theorem Core.modCtx_l1 (k : Core) (b : Bool) (f : Ctx → Ctx) : (k.modCtx b f).l1 = k.l1 := by
  cases b <;> rfl
@[simp] theorem Core.modCtx_tlb (k : Core) (b : Bool) (f : Ctx → Ctx) : (k.modCtx b f).tlb = k.tlb := by
  cases b <;> rfl

@[simp] theorem State.ctx_modCtx (f : Ctx → Ctx) : (s.modCtx x f).ctx x = f (s.ctx x) := by
  simp [State.ctx, State.modCtx]
theorem State.ctx_modCtx_of_ne (f : Ctx → Ctx) (h : y ≠ x) : (s.modCtx x f).ctx y = s.ctx y := by
  obtain ⟨c, b⟩ := x
  obtain ⟨e, a⟩ := y
  simp only [State.ctx, State.modCtx]
  by_cases hc : e = c
  · subst hc
    have hb : a = !b := by
      cases a <;> cases b <;> simp_all
    subst hb
    simp
  · rw [State.core_modCore_of_ne _ _ _ _ hc]
@[simp] theorem State.sp_modCtx (f : Ctx → Ctx) : ((s.modCtx x f).core c).sp = (s.core c).sp := by
  by_cases h : c = x.core
  · subst h
    simp [State.modCtx]
  · simp [State.modCtx, State.core_modCore_of_ne _ _ _ _ h]

@[simp] theorem State.ctx_modTask (k : Nat) (f : Task → Task) : (s.modTask k f).ctx x = s.ctx x := rfl
@[simp] theorem State.ctx_modIss (f : Iss → Iss) : (s.modIss f).ctx x = s.ctx x := rfl
@[simp] theorem State.ctx_modDie (f : Die → Die) : (s.modDie d f).ctx x = s.ctx x := rfl
@[simp] theorem State.ctx_modMem (f : Mem → Mem) : (s.modMem f).ctx x = s.ctx x := rfl
@[simp] theorem State.ctx_at (n : Nat) (a : Act) : (s.at_ n a).ctx x = s.ctx x := rfl
@[simp] theorem State.core_modIss (f : Iss → Iss) : (s.modIss f).core c = s.core c := rfl
@[simp] theorem State.core_modDie (f : Die → Die) : (s.modDie d f).core c = s.core c := rfl
@[simp] theorem State.core_modMem (f : Mem → Mem) : (s.modMem f).core c = s.core c := rfl
@[simp] theorem State.die_modCore (f : Core → Core) : (s.modCore c f).die d = s.die d := rfl
@[simp] theorem State.die_modCtx (f : Ctx → Ctx) : (s.modCtx x f).die d = s.die d := rfl
@[simp] theorem State.die_modIss (f : Iss → Iss) : (s.modIss f).die d = s.die d := rfl
@[simp] theorem State.die_modMem (f : Mem → Mem) : (s.modMem f).die d = s.die d := rfl
@[simp] theorem State.modIss_iss (f : Iss → Iss) : (s.modIss f).iss = f s.iss := rfl
@[simp] theorem State.modMem_mem (f : Mem → Mem) : (s.modMem f).mem = f s.mem := rfl

/-! ### Registers of a context (03 R50, R52) -/

/-- g0 reads zero whatever is written to it. -/
@[simp] theorem Ctx.readG_zero (k : Ctx) : k.readG 0 = 0 := rfl
/-- p0 reads true. -/
@[simp] theorem Ctx.readP_zero (k : Ctx) : k.readP 0 = true := rfl
/-- k0 reads as all ones. -/
@[simp] theorem Ctx.readK_zero (k : Ctx) : k.readK 0 = BitVec.allOnes 64 := rfl
@[simp] theorem Regs.setG_zero (r : Regs) (v : Word) : r.setG 0 v = r := rfl
@[simp] theorem Regs.setK_zero (r : Regs) (v : Mask) : r.setK 0 v = r := rfl

theorem Ctx.readG_land_g (k : Ctx) (n : GReg) (v : Word) (h : n ≠ 0) : (k.land (.g n v)).readG n = v := by
  simp only [Ctx.land, Ctx.readG, Regs.setG, if_neg h, Vector.getElem_set_self]
theorem Ctx.readG_land_g_of_ne (k : Ctx) (n m : GReg) (v : Word) (h : m ≠ n) : (k.land (.g n v)).readG m = k.readG m := by
  by_cases hn : n = 0
  · subst hn; rfl
  · by_cases hm : m = 0
    · subst hm; rfl
    · simp only [Ctx.land, Ctx.readG, Regs.setG, if_neg hn, if_neg hm]
      exact Vector.getElem_set_ne _ _ (BitVec.toNat_ne_of_ne h).symm
theorem Ctx.readK_land_k (k : Ctx) (n : KReg) (v : Mask) (h : n ≠ 0) : (k.land (.k n v)).readK n = v := by
  simp only [Ctx.land, Ctx.readK, Regs.setK, if_neg h, Vector.getElem_set_self]
@[simp] theorem Ctx.readV_setV (k : Ctx) (n : VReg) (v : VWord) : (k.setV n v).readV n = v := by
  simp [Ctx.setV, Ctx.readV]
theorem Ctx.readV_setV_of_ne (k : Ctx) (n m : VReg) (v : VWord) (h : m ≠ n) : (k.setV n v).readV m = k.readV m := by
  simp [Ctx.setV, Ctx.readV, Vector.getElem_set_ne, (BitVec.toNat_ne_of_ne h).symm]
@[simp] theorem Ctx.setV_regs (k : Ctx) (n : VReg) (v : VWord) : (k.setV n v).regs = k.regs := rfl
@[simp] theorem Ctx.setV_flow (k : Ctx) (n : VReg) (v : VWord) : (k.setV n v).flow = k.flow := rfl
@[simp] theorem Ctx.setV_sys (k : Ctx) (n : VReg) (v : VWord) : (k.setV n v).sys = k.sys := rfl
@[simp] theorem Ctx.setV_seg (k : Ctx) (n : VReg) (v : VWord) : (k.setV n v).seg = k.seg := rfl
@[simp] theorem Ctx.setV_counts (k : Ctx) (n : VReg) (v : VWord) : (k.setV n v).counts = k.counts := rfl
@[simp] theorem Ctx.setV_task (k : Ctx) (n : VReg) (v : VWord) : (k.setV n v).task = k.task := rfl

end Sys2Proof.Machine
end

