-- ==== Sys2Proof/Laws/Memory.lean ====
section
/-! SUPPORT. Lists of cells: a write keeps the canonical form, a read after a write gives the value written there and what
stood elsewhere. -/

namespace Sys2Proof.Machine

/-- The addresses of a list all lie above one. -/
def Above (a : Nat) (l : List Host.Cell) : Prop := ∀ p ∈ l, a < p.1

theorem above_cons {a : Nat} {q : Host.Cell} {t : List Host.Cell} : Above a (q :: t) ↔ a < q.1 ∧ Above a t := List.forall_mem_cons
theorem above_nil (a : Nat) : Above a [] := fun _ h => nomatch h
theorem Above.mono {a b : Nat} {l : List Host.Cell} (h : Above b l) (hab : a ≤ b) : Above a l :=
  fun p hp => lt_of_le_of_lt hab (h p hp)

theorem cellsWf_cons (a : Nat) (v : Byte) (t : List Host.Cell) :
    cellsWf ((a, v) :: t) = true ↔ v ≠ 0 ∧ Above a t ∧ cellsWf t = true := by
  induction t generalizing a v with
  | nil => simp [cellsWf, above_nil]
  | cons q t ih =>
    rw [cellsWf, above_cons, Bool.and_eq_true, Bool.and_eq_true, decide_eq_true_iff, bne_iff_ne]
    exact ⟨fun h => ⟨h.1.1, ⟨h.1.2, ((ih q.1 q.2).1 h.2).2.1.mono h.1.2.le⟩, h.2⟩, fun h => ⟨⟨h.1, h.2.1.1⟩, h.2.2⟩⟩

theorem above_cellsWrite {a b : Nat} {v : Byte} {l : List Host.Cell} (h : Above a l) (hab : a < b) :
    Above a (cellsWrite l b v) := by
  induction l with
  | nil => unfold cellsWrite; split_ifs <;> simp [above_cons, above_nil, hab]
  | cons q t ih =>
    have hq := above_cons.1 h
    unfold cellsWrite
    split_ifs <;> simp [above_cons, hq, hab, ih hq.2]

/-- A write keeps the canonical form. -/
theorem cellsWf_cellsWrite {l : List Host.Cell} (h : cellsWf l = true) (a : Nat) (v : Byte) :
    cellsWf (cellsWrite l a v) = true := by
  induction l with
  | nil =>
    unfold cellsWrite
    split_ifs with hv
    · exact h
    · exact (cellsWf_cons ..).2 ⟨hv, above_nil a, h⟩
  | cons q t ih =>
    have hq := (cellsWf_cons q.1 q.2 t).1 h
    unfold cellsWrite
    split_ifs with h1 hv h2 hv
    · exact h
    · exact (cellsWf_cons ..).2 ⟨hv, above_cons.2 ⟨h1, hq.2.1.mono h1.le⟩, h⟩
    · exact hq.2.2
    · exact (cellsWf_cons ..).2 ⟨hv, h2 ▸ hq.2⟩
    · exact (cellsWf_cons ..).2 ⟨hq.1, above_cellsWrite hq.2.1 (by omega), ih hq.2.2⟩

/-- So do several writes. -/
theorem cellsWf_cellsWriteAll {l : List Host.Cell} (h : cellsWf l = true) (ps : List Host.Cell) :
    cellsWf (cellsWriteAll l ps) = true := by
  induction ps generalizing l with
  | nil => exact h
  | cons p t ih => exact ih (cellsWf_cellsWrite h p.1 p.2)

theorem cellsRead_of_above {a : Nat} {l : List Host.Cell} (h : Above a l) : cellsRead l a = 0 := by
  induction l with
  | nil => rfl
  | cons q t ih =>
    obtain ⟨b, w⟩ := q
    have hq := above_cons.1 h
    rw [cellsRead, if_neg hq.1.ne', ih hq.2]

/-- A read after a write: the value written there, what stood elsewhere. -/
theorem cellsRead_cellsWrite {l : List Host.Cell} (h : cellsWf l = true) (a b : Nat) (v : Byte) :
    cellsRead (cellsWrite l a v) b = if b = a then v else cellsRead l b := by
  have lone : ∀ t, cellsRead ((a, v) :: t) b = if b = a then v else cellsRead t b := fun t => by
    rw [cellsRead]
    by_cases hb : b = a
    · rw [if_pos hb.symm, if_pos hb]
    · rw [if_neg (Ne.symm hb), if_neg hb]
  induction l with
  | nil =>
    rw [cellsWrite]
    split_ifs with hv hb hb
    · exact hv.symm
    · rfl
    · rw [lone, if_pos hb]
    · rw [lone, if_neg hb]
  | cons q t ih =>
    obtain ⟨c, w⟩ := q
    obtain ⟨hw, hc, ht⟩ := (cellsWf_cons c w t).1 h
    rw [cellsWrite]
    by_cases h1 : a < c
    · rw [if_pos h1]
      have zero : b = a → cellsRead ((c, w) :: t) b = 0 := fun e => by
        subst e
        rw [cellsRead, if_neg (by omega), cellsRead_of_above (hc.mono (by omega))]
      split_ifs with hv hb hb
      · rw [zero hb, hv]
      · rfl
      · rw [lone, if_pos hb]
      · rw [lone, if_neg hb]
    · rw [if_neg h1]
      by_cases h2 : a = c
      · subst h2
        rw [if_pos rfl]
        split_ifs with hv hb hb
        · rw [hb, cellsRead_of_above hc, hv]
        · rw [cellsRead, if_neg (Ne.symm hb)]
        · rw [lone, if_pos hb]
        · rw [lone, if_neg hb, cellsRead, if_neg (Ne.symm hb)]
      · rw [if_neg h2, cellsRead, cellsRead, ih ht]
        by_cases hb : c = b
        · rw [if_pos hb, if_neg (by omega), if_pos hb]
        · rw [if_neg hb, if_neg hb]

theorem cellsRead_cellsWrite_self {l : List Host.Cell} (h : cellsWf l = true) (a : Nat) (v : Byte) :
    cellsRead (cellsWrite l a v) a = v := by
  rw [cellsRead_cellsWrite h, if_pos rfl]
theorem cellsRead_cellsWrite_of_ne {l : List Host.Cell} (h : cellsWf l = true) {a b : Nat} (v : Byte) (hab : b ≠ a) :
    cellsRead (cellsWrite l a v) b = cellsRead l b := by
  rw [cellsRead_cellsWrite h, if_neg hab]

/-- A write of several bytes leaves every other address alone. -/
theorem cellsRead_cellsWriteAll_of_not_mem {l : List Host.Cell} (h : cellsWf l = true) (ps : List Host.Cell) (b : Nat)
    (hb : ∀ p ∈ ps, p.1 ≠ b) : cellsRead (cellsWriteAll l ps) b = cellsRead l b := by
  induction ps generalizing l with
  | nil => rfl
  | cons p t ih =>
    obtain ⟨a, v⟩ := p
    rw [cellsWriteAll, ih (cellsWf_cellsWrite h a v) fun q hq => hb q (List.mem_cons_of_mem _ hq),
      cellsRead_cellsWrite_of_ne h v (hb (a, v) List.mem_cons_self).symm]

theorem mem_bytesAt {a b : Nat} {v : Byte} {bs : List Byte} (h : (b, v) ∈ bytesAt a bs) : a ≤ b ∧ b < a + bs.length := by
  induction bs generalizing a with
  | nil => simp [bytesAt] at h
  | cons x t ih =>
    simp only [bytesAt, List.mem_cons, Prod.mk.injEq, List.length_cons] at h ⊢
    rcases h with ⟨rfl, rfl⟩ | h
    · omega
    · have := ih h
      omega

/-- A write of consecutive bytes leaves every address outside them alone. -/
theorem cellsRead_bytesAt_of_outside {l : List Host.Cell} (h : cellsWf l = true) (a b : Nat) (bs : List Byte)
    (hb : b < a ∨ a + bs.length ≤ b) : cellsRead (cellsWriteAll l (bytesAt a bs)) b = cellsRead l b := by
  refine cellsRead_cellsWriteAll_of_not_mem h _ b fun p hp => ?_
  have := mem_bytesAt (a := a) (b := p.1) (v := p.2) hp
  omega

/-! ### The operations on memory -/

theorem State.wf_poke {s : State} (h : Memory.wf s.mem = true) (pa : Nat) (bs : List Byte) :
    Memory.wf (s.poke pa bs).mem = true := cellsWf_cellsWriteAll h _

/-- What a write through `poke` changes: the bytes written. -/
theorem State.poke_read (s : State) (h : Memory.wf s.mem = true) (pa b : Nat) (bs : List Byte)
    (hb : b < pa ∨ pa + bs.length ≤ b) : cellsRead (s.poke pa bs).mem.cells b = cellsRead s.mem.cells b :=
  cellsRead_bytesAt_of_outside h pa b bs hb

/-- The memory after reset has the canonical form. -/
theorem reset_memory_wf : Memory.wf State.reset.mem = true := rfl

end Sys2Proof.Machine
end

