-- ==== Sys2Proof/Laws/Ops.lean ====
section
/-! SUPPORT. What the shared operations can do, said once: results posted, faults raised, aborts, traps taken, tasks ended,
events recorded, bytes read and written at home; callers cite these and do not unfold the operations. -/

namespace Sys2Proof.Machine

variable (s : State) (x y : CtxId) (d : BitVec 2) (c : BitVec 8)

/-! ### Posting results and faults -/

/-- A posted result joins the results in flight of the issuing context and touches nothing else of it (05 R100). -/
@[simp] theorem State.ctx_post (lat : Nat) (r : Res) :
    (s.post lat r).ctx s.iss.x = (s.ctx s.iss.x).post s.iss.slot lat r := by
  simp [State.post]
theorem State.ctx_post_of_ne (lat : Nat) (r : Res) (h : x ≠ s.iss.x) : (s.post lat r).ctx x = s.ctx x := by
  simp [State.post, State.ctx_modCtx_of_ne _ _ _ _ h]
@[simp] theorem State.post_mem (lat : Nat) (r : Res) : (s.post lat r).mem = s.mem := rfl
@[simp] theorem State.post_iss (lat : Nat) (r : Res) : (s.post lat r).iss = s.iss := rfl
@[simp] theorem State.post_dies (lat : Nat) (r : Res) : (s.post lat r).dies = s.dies := rfl
@[simp] theorem State.sp_post (lat : Nat) (r : Res) : ((s.post lat r).core c).sp = (s.core c).sp := by
  simp [State.post]
@[simp] theorem Ctx.post_regs (k : Ctx) (sl : Slot) (lat : Nat) (r : Res) : (k.post sl lat r).regs = k.regs := rfl
@[simp] theorem Ctx.post_sys (k : Ctx) (sl : Slot) (lat : Nat) (r : Res) : (k.post sl lat r).sys = k.sys := rfl
@[simp] theorem Ctx.post_v (k : Ctx) (sl : Slot) (lat : Nat) (r : Res) : (k.post sl lat r).v = k.v := rfl

/-- A fault changes the bundle's record alone (17 R322). -/
@[simp] theorem State.ctx_raise (code : BitVec 16) (tval : Word) (imm : BitVec 32) : (s.raise code tval imm).ctx x = s.ctx x := rfl
@[simp] theorem State.raise_mem (code : BitVec 16) (tval : Word) (imm : BitVec 32) : (s.raise code tval imm).mem = s.mem := rfl
@[simp] theorem State.raise_faults (code : BitVec 16) (tval : Word) (imm : BitVec 32) :
    (s.raise code tval imm).iss.faults = s.iss.faults ++ [⟨s.iss.slot, code, tval, imm⟩] := rfl
@[simp] theorem State.ctx_blockOn (v : Word) : (s.blockOn v).ctx x = s.ctx x := rfl
@[simp] theorem State.ctx_missOn (i : Item) : (s.missOn i).ctx x = s.ctx x := rfl
@[simp] theorem State.ctx_holdOn (h : Hold) : (s.holdOn h).ctx x = s.ctx x := rfl
@[simp] theorem State.ctx_endsSeg : s.endsSeg.ctx x = s.ctx x := rfl

/-! ### The black-box record -/

@[simp] theorem State.bbDie_mem (t : BitVec 8) (a b : Word) : (s.bbDie d t a b).mem = s.mem := rfl
@[simp] theorem State.bbCore_mem (t : BitVec 8) (a b : Word) : (s.bbCore c t a b).mem = s.mem := rfl
@[simp] theorem State.bbCtx_mem (t : BitVec 8) (a b : Word) : (s.bbCtx x t a b).mem = s.mem := rfl
@[simp] theorem State.bbDie_work (t : BitVec 8) (a b : Word) : (s.bbDie d t a b).work = s.work := rfl
@[simp] theorem State.bbDie_occ (t : BitVec 8) (a b : Word) : (s.bbDie d t a b).occ = s.occ := rfl
@[simp] theorem State.bbDie_cores (t : BitVec 8) (a b : Word) : (s.bbDie d t a b).cores = s.cores := rfl
@[simp] theorem State.bbCore_cores (t : BitVec 8) (a b : Word) : (s.bbCore c t a b).cores = s.cores := rfl
@[simp] theorem State.bbCtx_cores (t : BitVec 8) (a b : Word) : (s.bbCtx x t a b).cores = s.cores := rfl

/-! ### Aborts, ends and traps (02 R44, 17 R321-R323) -/

/-- An abort leaves memory, the dies and every other context alone (02 R44). -/
@[simp] theorem State.abort_mem : (s.abort x).mem = s.mem := rfl
@[simp] theorem State.abort_dies : (s.abort x).dies = s.dies := rfl
@[simp] theorem State.abort_work : (s.abort x).work = s.work := rfl
@[simp] theorem State.ctx_abort : (s.abort x).ctx x = (s.ctx x).abort (s.abortIds x) := by
  rw [State.abort, State.ctx_modCtx]
  rfl
theorem State.ctx_abort_of_ne (h : y ≠ x) : (s.abort x).ctx y = s.ctx y := by
  rw [State.abort, State.ctx_modCtx_of_ne _ _ _ _ h]
  rfl
/-- An abort keeps v, s, scratchpad bindings and system registers: only the registers of R44 go back. -/
@[simp] theorem Ctx.abort_v (k : Ctx) (l : List Nat) : (k.abort l).v = k.v := rfl
@[simp] theorem Ctx.abort_sys (k : Ctx) (l : List Nat) : (k.abort l).sys = k.sys := rfl
@[simp] theorem Ctx.abort_task (k : Ctx) (l : List Nat) : (k.abort l).task = k.task := rfl
theorem Ctx.abort_pc (k : Ctx) (l : List Nat) : (k.abort l).flow.pc = k.entryPc := rfl
theorem Ctx.abort_regs (k : Ctx) (l : List Nat) : (k.abort l).regs = if k.flow.asEntry then k.regs else k.seg.snap := rfl

/-- A change of the task's record touches no context and no memory. -/
@[simp] theorem State.modOwnTask_mem (f : Task → Task) : (s.modOwnTask x f).mem = s.mem := by
  unfold State.modOwnTask
  cases (s.ctx x).task <;> rfl
@[simp] theorem State.modOwnTask_cores (f : Task → Task) : (s.modOwnTask x f).cores = s.cores := by
  unfold State.modOwnTask
  cases (s.ctx x).task <;> rfl
@[simp] theorem State.ctx_modOwnTask (f : Task → Task) : (s.modOwnTask x f).ctx y = s.ctx y := by
  unfold State.modOwnTask
  cases (s.ctx x).task <;> rfl

/-- A task that ends changes its record and the flow of its context. -/
@[simp] theorem State.endTask_mem (st : BitVec 4) (f : BitVec 16) (e : Option BAddr) : (s.endTask x st f e).mem = s.mem := by
  unfold State.endTask
  cases (s.ctx x).task <;> rfl
theorem State.ctx_endTask (st : BitVec 4) (f : BitVec 16) (e : Option BAddr) :
    ((s.endTask x st f e).ctx x).regs = (s.ctx x).regs ∧ ((s.endTask x st f e).ctx x).sys = (s.ctx x).sys
      ∧ ((s.endTask x st f e).ctx x).flow.phase = .ending st := by
  unfold State.endTask
  cases h : (s.ctx x).task <;> simp

/-- A trap either ends the task (at system level with 0x0704; else where no handler takes the cause, with its code), or enters
the handler of its class (17 R321, R323). -/
theorem State.takeTrap_cases (code : BitVec 16) (mask : BitVec 9) (tval : Word) (imm : BitVec 32) (async : Bool) (r b : BAddr) :
    ((s.ctx x).sys.pl = true ∧ s.takeTrap x code mask tval imm async r b = s.endTask x 6 0x0704 (some r))
    ∨ ((s.ctx x).sys.pl = false ∧ (hardwareCause code = true ∨ (s.ctx x).sys.tvecEn = false)
        ∧ s.takeTrap x code mask tval imm async r b = s.endTask x 6 code (some r))
    ∨ ((s.ctx x).sys.pl = false ∧ hardwareCause code = false ∧ (s.ctx x).sys.tvecEn = true
        ∧ (s.takeTrap x code mask tval imm async r b).mem = s.mem
        ∧ let k := (s.takeTrap x code mask tval imm async r b).ctx x
          k.sys.pl = true ∧ k.sys.tepc = r ∧ k.sys.tbun = b ∧ k.sys.tval = tval ∧ k.regs = (s.ctx x).regs
          ∧ k.flow.pc = (s.ctx x).sys.tvecBase + BitVec.ofNat 51 (16 * (code.extractLsb' 8 4).toNat)) := by
  unfold State.takeTrap
  cases h1 : (s.ctx x).sys.pl
  · cases h2 : hardwareCause code <;> cases h3 : (s.ctx x).sys.tvecEn <;> simp [h1, h3]
  · simp [h1]

@[simp] theorem State.takeTrap_mem (code : BitVec 16) (mask : BitVec 9) (tval : Word) (imm : BitVec 32) (async : Bool) (r b : BAddr) :
    (s.takeTrap x code mask tval imm async r b).mem = s.mem := by
  rcases s.takeTrap_cases x code mask tval imm async r b with ⟨-, h⟩ | ⟨-, -, h⟩ | ⟨-, -, -, h, -⟩
  · rw [h, State.endTask_mem]
  · rw [h, State.endTask_mem]
  · exact h
@[simp] theorem State.syncTrap_mem (code : BitVec 16) (mask : BitVec 9) (tval : Word) (imm : BitVec 32) (b : BAddr) :
    (s.syncTrap x code mask tval imm b).mem = s.mem := by
  rw [State.syncTrap, State.takeTrap_mem, State.modOwnTask_mem, State.abort_mem]

/-! ### Bytes at home (20 R356-R361): every operation on memory keeps the canonical form -/

theorem cellsWf_filter {l : List Host.Cell} (h : cellsWf l = true) (p : Host.Cell → Bool) : cellsWf (l.filter p) = true := by
  induction l with
  | nil => rfl
  | cons q t ih =>
    obtain ⟨a, v⟩ := q
    obtain ⟨hv, ha, ht⟩ := (cellsWf_cons a v t).1 h
    rw [List.filter_cons]
    split_ifs
    · exact (cellsWf_cons _ _ _).2 ⟨hv, fun r hr => ha r (List.mem_of_mem_filter hr), ih ht⟩
    · exact ih ht

variable {s}

theorem State.wf_markUncorrectable (h : Memory.wf s.mem = true) (b : Nat) : Memory.wf (s.markUncorrectable b).mem = true := by
  unfold State.markUncorrectable
  dsimp only
  split_ifs <;> simp only [State.bbDie_mem, State.count_eq, State.modDie_mem, State.modMem_mem] <;> exact h

theorem State.wf_eccBlock (h : Memory.wf s.mem = true) (b : Nat) : Memory.wf (s.eccBlock b).2.mem = true := by
  unfold State.eccBlock
  split
  · exact h
  · dsimp only [State.draw]
    split_ifs
    · exact h
    · exact s.wf_markUncorrectable h _
    · refine State.wf_markUncorrectable ?_ _
      exact h
    · rw [State.bbDie_mem, State.count_eq, State.modDie_mem]
      refine State.wf_poke ?_ _ _
      exact h
    · refine State.wf_poke ?_ _ _
      exact h

theorem State.wf_foldl {α : Type} (f : State → α → State)
    (hf : ∀ s a, Memory.wf s.mem = true → Memory.wf (f s a).mem = true) (l : List α) (s : State) (h : Memory.wf s.mem = true) :
    Memory.wf (l.foldl f s).mem = true := by
  induction l generalizing s with
  | nil => exact h
  | cons a t ih => exact ih _ (hf s a h)

theorem State.wf_eccRange (h : Memory.wf s.mem = true) (a n : Nat) : Memory.wf (s.eccRange a n).mem = true :=
  State.wf_foldl _ (fun _ _ h => State.wf_eccBlock h _) _ _ h

/-- Room in the memory-side cache changes no byte (20 R356). -/
@[simp] theorem State.mscRoom_cells (s : State) (b : Nat) : (s.mscRoom b).mem.cells = s.mem.cells := by
  unfold State.mscRoom
  dsimp only [State.draw]
  split_ifs
  · rfl
  · split <;> rfl
theorem State.wf_mscBlock (h : Memory.wf s.mem = true) (b : Nat) (whole write : Bool) :
    Memory.wf (s.mscBlock b whole write).2.mem = true := by
  have read : Memory.wf (if whole = true then (false, s) else s.eccBlock b).2.mem = true := by
    split_ifs
    · exact h
    · exact State.wf_eccBlock h b
  unfold State.mscBlock
  dsimp only
  split_ifs at read ⊢ <;> simp only [Memory.wf, State.modMem, State.mscRoom_cells] <;> first | exact h | exact read

theorem State.wf_homeRead (h : Memory.wf s.mem = true) (pa n : Nat) : Memory.wf (s.homeRead pa n).2.2.2.mem = true := by
  have key : ∀ (l : List Nat) (p : Bool × State), Memory.wf p.2.mem = true →
      Memory.wf (l.foldl (fun (p : Bool × State) b => (p.1 || (p.2.mscBlock b false false).1, (p.2.mscBlock b false false).2)) p).2.mem = true := by
    intro l
    induction l with
    | nil => exact fun p hp => hp
    | cons b t ih => exact fun p hp => ih _ (State.wf_mscBlock hp b false false)
  unfold State.homeRead
  refine key _ (false, _) ?_
  dsimp only
  split_ifs <;> exact h

theorem State.noteWrite_mem (s : State) (hit : Nat → Nat → Bool) : (s.noteWrite hit).mem = s.mem := by
  unfold State.noteWrite
  dsimp only
  split_ifs <;> rfl
theorem State.wakeMons_mem (s : State) (pa n : Nat) : (s.wakeMons pa n).mem = s.mem := by
  unfold State.wakeMons
  generalize s.occ = l
  induction l generalizing s with
  | nil => rfl
  | cons c t ih => exact ih _

theorem State.wf_homeWrite (h : Memory.wf s.mem = true) (l : List Host.Cell) : Memory.wf (s.homeWrite l).2.mem = true := by
  unfold State.homeWrite
  split
  · exact h
  · refine State.wf_foldl _ (fun s a h => by rw [State.wakeMons_mem]; exact h) _ _ ?_
    rw [State.noteWrite_mem]
    refine cellsWf_cellsWriteAll ?_ _
    refine State.wf_foldl _ (fun s b h => ?_) _ _ ?_
    · split_ifs <;> exact State.wf_mscBlock h _ _ _
    · split_ifs <;> exact h

theorem State.wf_homeWriteAt (h : Memory.wf s.mem = true) (pa : Nat) (bs : List Byte) :
    Memory.wf (s.homeWriteAt pa bs).2.mem = true := State.wf_homeWrite h _

/-! What memory at home does to the cores: nothing, but that a write gives their monitors events (10 R220). -/

/-- The contexts, the records of the tasks and the list of the running cores are the same. -/
def SameCores (s t : State) : Prop := t.cores = s.cores ∧ t.work = s.work ∧ t.occ = s.occ
theorem SameCores.trans {s t u : State} (h : SameCores s t) (k : SameCores t u) : SameCores s u :=
  ⟨k.1.trans h.1, k.2.1.trans h.2.1, k.2.2.trans h.2.2⟩
theorem SameCores.foldl {α : Type} (f : State → α → State) (hf : ∀ s a, SameCores s (f s a)) (l : List α) (s : State) :
    SameCores s (l.foldl f s) := by
  induction l generalizing s with
  | nil => exact ⟨rfl, rfl, rfl⟩
  | cons a t ih => exact (hf s a).trans (ih _)
theorem State.markUncorrectable_cores (s : State) (b : Nat) : SameCores s (s.markUncorrectable b) := by
  unfold State.markUncorrectable
  dsimp only
  split_ifs <;> refine ⟨?_, ?_, ?_⟩ <;>
    simp only [State.bbDie_cores, State.bbDie_work, State.bbDie_occ, State.count_eq, State.modDie_cores, State.modDie_work, State.modDie_occ,
      State.modMem_cores, State.modMem_work, State.modMem_occ]
theorem State.corrected_cores (s : State) (b : Nat) (a c : Word) (f : Counters → Counters) :
    SameCores s ((s.count (homeDie b) f).bbDie (homeDie b) 0x10 a c) := ⟨rfl, rfl, rfl⟩
theorem State.eccBlock_cores (s : State) (b : Nat) : SameCores s (s.eccBlock b).2 := by
  unfold State.eccBlock
  split
  · exact ⟨rfl, rfl, rfl⟩
  · dsimp only [State.draw]
    split_ifs
    · exact SameCores.trans (t := s.modMem _) ⟨rfl, rfl, rfl⟩ (State.corrected_cores _ _ _ _ _)
    · exact State.markUncorrectable_cores _ _
    · exact SameCores.trans (t := { s with fresh := s.fresh + 1 + 1 }) ⟨rfl, rfl, rfl⟩ (State.markUncorrectable_cores _ _)
    · refine SameCores.trans ?_ (State.corrected_cores _ _ _ _ _)
      exact ⟨rfl, rfl, rfl⟩
    · exact ⟨rfl, rfl, rfl⟩
theorem State.mscRoom_cores (s : State) (b : Nat) : SameCores s (s.mscRoom b) := by
  unfold State.mscRoom
  dsimp only [State.draw]
  split_ifs
  · exact ⟨rfl, rfl, rfl⟩
  · split <;> exact ⟨rfl, rfl, rfl⟩
theorem State.mscBlock_cores (s : State) (b : Nat) (whole write : Bool) : SameCores s (s.mscBlock b whole write).2 := by
  unfold State.mscBlock
  dsimp only
  split_ifs <;> first | exact ⟨rfl, rfl, rfl⟩ | exact State.eccBlock_cores _ _ | skip
  · exact State.mscRoom_cores _ _
  · exact (State.eccBlock_cores _ _).trans (State.mscRoom_cores _ _)
theorem State.noteWrite_cores (s : State) (hit : Nat → Nat → Bool) : SameCores s (s.noteWrite hit) := by
  unfold State.noteWrite
  dsimp only
  split_ifs <;> exact ⟨rfl, rfl, rfl⟩
/-- With no core occupied no monitor watches, and a write changes no context. -/
theorem State.homeWrite_cores (s : State) (l : List Host.Cell) (h : s.occ = []) : SameCores s (s.homeWrite l).2 := by
  unfold State.homeWrite
  split
  · exact ⟨rfl, rfl, rfl⟩
  · rename_i pa v t
    have wake : ∀ (ls : List Nat) (u : State), SameCores s u → SameCores s (ls.foldl (fun s l => s.wakeMons (l * 64) 64) u) := by
      intro ls
      induction ls with
      | nil => exact fun _ h => h
      | cons a t ih => exact fun u hu => ih _ (by
        have e : u.wakeMons (a * 64) 64 = u := by simp only [State.wakeMons, hu.2.2, h, List.foldl_nil]
        change SameCores s (u.wakeMons (a * 64) 64)
        rw [e]
        exact hu)
    refine wake _ _ (SameCores.trans ?_ (State.noteWrite_cores _ _))
    refine SameCores.trans (t := List.foldl _ _ _) (SameCores.trans ?_ (SameCores.foldl _ (fun u b => ?_) _ _)) ⟨rfl, rfl, rfl⟩
    · split <;> exact ⟨rfl, rfl, rfl⟩
    · dsimp only
      split_ifs
      all_goals first
        | exact State.mscBlock_cores u b false true
        | exact SameCores.trans (t := (u.mscBlock b true true).2) (State.mscBlock_cores u b true true) ⟨rfl, rfl, rfl⟩

theorem State.mem_foldl {α : Type} (f : State → α → State) (hf : ∀ s a, (f s a).mem = s.mem) (l : List α) (s : State) :
    (l.foldl f s).mem = s.mem := by
  induction l generalizing s with
  | nil => rfl
  | cons a t ih => rw [List.foldl_cons, ih, hf]

@[simp] theorem State.mapActs_mem (s : State) (f : Act → Act) : (s.mapActs f).mem = s.mem := rfl
/-- Bringing an L1's newer data home writes a line there and changes no other byte (11 R230, 19 R340). -/
theorem State.wf_bringHome (h : Memory.wf s.mem = true) (line : Nat) : Memory.wf (s.bringHome line).mem = true := by
  unfold State.bringHome
  split
  · exact State.wf_homeWriteAt h _ _
  · exact h
theorem State.wf_pullLine (h : Memory.wf s.mem = true) (line : Nat) : Memory.wf (s.pullLine line).mem = true := by
  unfold State.pullLine
  split
  · exact h
  · dsimp only
    split_ifs
    · exact State.wf_bringHome h _
    · rw [State.modDie_mem, State.mem_foldl _ fun s a => s.modCore_mem a _]
      exact State.wf_bringHome h _
    · exact State.wf_bringHome h _
theorem State.wf_pushLine (h : Memory.wf s.mem = true) (line pa : Nat) (bs : List Byte) : Memory.wf (s.pushLine line pa bs).mem = true := by
  unfold State.pushLine
  dsimp only
  split
  · exact h
  · split_ifs
    · rw [State.mapActs_mem, State.mem_foldl _ fun s a => s.modCore_mem a _]
      exact State.wf_bringHome h _
    · rw [State.modDie_mem, State.mem_foldl _ fun s a => s.modCore_mem a _]
      exact State.wf_bringHome h _
theorem State.wf_readHome (h : Memory.wf s.mem = true) (pa n : Nat) : Memory.wf (s.readHome pa n).2.2.2.mem = true :=
  State.wf_homeRead (State.wf_foldl _ (fun _ _ h => State.wf_pullLine h _) _ _ h) _ _
theorem State.wf_writeHome (h : Memory.wf s.mem = true) (pa : Nat) (bs : List Byte) : Memory.wf (s.writeHome pa bs).mem = true :=
  State.wf_homeWriteAt (State.wf_foldl _ (fun _ _ h => State.wf_pushLine h _ _ _) _ _ h) _ _
/-- A page-table entry read at its home. -/
theorem State.wf_readEntry (h : Memory.wf s.mem = true) (pa : Nat) : Memory.wf (s.readEntry pa).1.mem = true := by
  have r := State.wf_readHome h pa 8
  unfold State.readEntry State.logEngine
  dsimp only
  split
  · rw [State.bbDie_mem]
    exact r
  · exact r
/-- A page-table entry written at its home. -/
theorem State.wf_writeEntry (h : Memory.wf s.mem = true) (pa : Nat) (e : Word) : Memory.wf (s.writeEntry pa e).mem = true :=
  State.wf_writeHome h _ _

theorem State.wf_bbWrite (h : Memory.wf s.mem = true) (e : BbEvent) : Memory.wf (s.bbWrite d e).mem = true := by
  simp only [Memory.wf, State.bbWrite, State.modDie_mem]
  exact cellsWf_cellsWriteAll h _
theorem State.wf_bbFlushDie (h : Memory.wf s.mem = true) : Memory.wf (s.bbFlushDie d).mem = true :=
  State.wf_foldl _ (fun _ _ h => State.wf_bbWrite d h _) _ _ h
theorem State.wf_bbFlush (h : Memory.wf s.mem = true) : Memory.wf s.bbFlush.mem = true :=
  State.wf_bbFlushDie _ (State.wf_bbFlushDie _ (State.wf_bbFlushDie _ (State.wf_bbFlushDie _ h)))

theorem State.wf_moveFrames (h : Memory.wf s.mem = true) (src dst : List (Nat × Nat)) : Memory.wf (s.moveFrames src dst).mem = true :=
  cellsWf_cellsWriteAll (cellsWf_filter (State.wf_foldl _ (fun _ _ h => State.wf_eccRange h _ _) _ _ h) _) _

/-- A write of the scratchpad keeps its canonical form and touches no other core's. -/
theorem State.sp_spPoke (h : cellsWf (s.core c).sp = true) (pos : Nat) (bs : List Byte) :
    cellsWf ((s.spPoke c pos bs).core c).sp = true := by
  rw [State.spPoke, State.core_modCore]
  exact cellsWf_cellsWriteAll h _
@[simp] theorem State.spPoke_mem (s : State) (c : BitVec 8) (pos : Nat) (bs : List Byte) : (s.spPoke c pos bs).mem = s.mem := rfl

end Sys2Proof.Machine
end

