-- ==== Sys2Proof/Laws/PerInstr.lean ====
section
/-! SUPPORT. Per instruction: its operand fields fit their places, and the builder of its opcode reads them back
(05 R89, R91, R93). -/

/-- What the encoder says of an instruction with lawful operands, the builder of its opcode map reads back: the widths of its
fields are those of the encoding table, every field fits, and the fields build the instruction. -/
def Sys2Proof.Laws.RoundTrip.Statement (i : Sys2Proof.Instr) : Prop :=
  i.wf = true → ∀ mp opc fs, Sys2Proof.encodeFields i = some (mp, opc, fs) →
    mp.widths opc = some (fs.map Prod.fst) ∧ mp.build opc (fs.map Prod.snd) = some i ∧ (∀ p ∈ fs, p.2 < 2 ^ p.1)
      ∧ (fs.map Prod.fst).sum ≤ mp.area ∧ opc < 2 ^ mp.opcBits

namespace Sys2Proof

/-- The statement from its parts. -/
theorem roundTrip_of {i : Instr} {mp : OpMap} {opc : Nat} {fs : List (Nat × Nat)} (he : encodeFields i = some (mp, opc, fs))
    (hw : mp.widths opc = some (fs.map Prod.fst)) (hs : (fs.map Prod.fst).sum ≤ mp.area) (ho : opc < 2 ^ mp.opcBits)
    (hb : i.wf = true → mp.build opc (fs.map Prod.snd) = some i) (hf : ∀ p ∈ fs, p.2 < 2 ^ p.1) :
    Laws.RoundTrip.Statement i := by
  intro hwf mp' opc' fs' h
  rw [he] at h
  obtain ⟨rfl, rfl, rfl⟩ : mp = mp' ∧ opc = opc' ∧ fs = fs' := by simpa using h
  exact ⟨hw, hb hwf, hf, hs, ho⟩
/-- A device event has no encoding. -/
theorem roundTrip_none {i : Instr} (he : encodeFields i = none) : Laws.RoundTrip.Statement i := by
  intro _ mp opc fs h
  rw [he] at h
  exact absurd h (by simp)

/-- Fields that fit, one after another. -/
theorem fits_cons {n v : Nat} {fs : List (Nat × Nat)} (h : v < 2 ^ n) (t : ∀ p ∈ fs, p.2 < 2 ^ p.1) :
    ∀ p ∈ (n, v) :: fs, p.2 < 2 ^ p.1 := by
  intro p hp
  rcases List.mem_cons.1 hp with rfl | hp
  · exact h
  · exact t p hp
theorem fits_nil : ∀ p ∈ ([] : List (Nat × Nat)), p.2 < 2 ^ p.1 := by simp

end Sys2Proof

open Sys2Proof

theorem Sys2Proof.Laws.RoundTrip.add (gd : GReg) (gs1 : GReg) (gs2 : GReg) : Sys2Proof.Laws.RoundTrip.Statement (.add gd gs1 gs2) :=
  roundTrip_of rfl rfl (Nat.le_of_ble_eq_true rfl) (by decide) (fun h => by show (some (Instr.add (BitVec.ofNat 6 (gd.toNat)) (BitVec.ofNat 6 (gs1.toNat)) (BitVec.ofNat 6 (gs2.toNat))) : Option Instr) = _; simp)
    (fits_cons gd.isLt (fits_cons gs1.isLt (fits_cons gs2.isLt fits_nil)))
theorem Sys2Proof.Laws.RoundTrip.sub (gd : GReg) (gs1 : GReg) (gs2 : GReg) : Sys2Proof.Laws.RoundTrip.Statement (.sub gd gs1 gs2) :=
  roundTrip_of rfl rfl (Nat.le_of_ble_eq_true rfl) (by decide) (fun h => by show (some (Instr.sub (BitVec.ofNat 6 (gd.toNat)) (BitVec.ofNat 6 (gs1.toNat)) (BitVec.ofNat 6 (gs2.toNat))) : Option Instr) = _; simp)
    (fits_cons gd.isLt (fits_cons gs1.isLt (fits_cons gs2.isLt fits_nil)))
theorem Sys2Proof.Laws.RoundTrip.mul (gd : GReg) (gs1 : GReg) (gs2 : GReg) : Sys2Proof.Laws.RoundTrip.Statement (.mul gd gs1 gs2) :=
  roundTrip_of rfl rfl (Nat.le_of_ble_eq_true rfl) (by decide) (fun h => by show (some (Instr.mul (BitVec.ofNat 6 (gd.toNat)) (BitVec.ofNat 6 (gs1.toNat)) (BitVec.ofNat 6 (gs2.toNat))) : Option Instr) = _; simp)
    (fits_cons gd.isLt (fits_cons gs1.isLt (fits_cons gs2.isLt fits_nil)))
theorem Sys2Proof.Laws.RoundTrip.mulh (gd : GReg) (gs1 : GReg) (gs2 : GReg) : Sys2Proof.Laws.RoundTrip.Statement (.mulh gd gs1 gs2) :=
  roundTrip_of rfl rfl (Nat.le_of_ble_eq_true rfl) (by decide) (fun h => by show (some (Instr.mulh (BitVec.ofNat 6 (gd.toNat)) (BitVec.ofNat 6 (gs1.toNat)) (BitVec.ofNat 6 (gs2.toNat))) : Option Instr) = _; simp)
    (fits_cons gd.isLt (fits_cons gs1.isLt (fits_cons gs2.isLt fits_nil)))
theorem Sys2Proof.Laws.RoundTrip.mulhn (gd : GReg) (gs1 : GReg) (gs2 : GReg) : Sys2Proof.Laws.RoundTrip.Statement (.mulhn gd gs1 gs2) :=
  roundTrip_of rfl rfl (Nat.le_of_ble_eq_true rfl) (by decide) (fun h => by show (some (Instr.mulhn (BitVec.ofNat 6 (gd.toNat)) (BitVec.ofNat 6 (gs1.toNat)) (BitVec.ofNat 6 (gs2.toNat))) : Option Instr) = _; simp)
    (fits_cons gd.isLt (fits_cons gs1.isLt (fits_cons gs2.isLt fits_nil)))
theorem Sys2Proof.Laws.RoundTrip.div (gd : GReg) (gs1 : GReg) (gs2 : GReg) : Sys2Proof.Laws.RoundTrip.Statement (.div gd gs1 gs2) :=
  roundTrip_of rfl rfl (Nat.le_of_ble_eq_true rfl) (by decide) (fun h => by show (some (Instr.div (BitVec.ofNat 6 (gd.toNat)) (BitVec.ofNat 6 (gs1.toNat)) (BitVec.ofNat 6 (gs2.toNat))) : Option Instr) = _; simp)
    (fits_cons gd.isLt (fits_cons gs1.isLt (fits_cons gs2.isLt fits_nil)))
theorem Sys2Proof.Laws.RoundTrip.divn (gd : GReg) (gs1 : GReg) (gs2 : GReg) : Sys2Proof.Laws.RoundTrip.Statement (.divn gd gs1 gs2) :=
  roundTrip_of rfl rfl (Nat.le_of_ble_eq_true rfl) (by decide) (fun h => by show (some (Instr.divn (BitVec.ofNat 6 (gd.toNat)) (BitVec.ofNat 6 (gs1.toNat)) (BitVec.ofNat 6 (gs2.toNat))) : Option Instr) = _; simp)
    (fits_cons gd.isLt (fits_cons gs1.isLt (fits_cons gs2.isLt fits_nil)))
theorem Sys2Proof.Laws.RoundTrip.rem (gd : GReg) (gs1 : GReg) (gs2 : GReg) : Sys2Proof.Laws.RoundTrip.Statement (.rem gd gs1 gs2) :=
  roundTrip_of rfl rfl (Nat.le_of_ble_eq_true rfl) (by decide) (fun h => by show (some (Instr.rem (BitVec.ofNat 6 (gd.toNat)) (BitVec.ofNat 6 (gs1.toNat)) (BitVec.ofNat 6 (gs2.toNat))) : Option Instr) = _; simp)
    (fits_cons gd.isLt (fits_cons gs1.isLt (fits_cons gs2.isLt fits_nil)))
theorem Sys2Proof.Laws.RoundTrip.remn (gd : GReg) (gs1 : GReg) (gs2 : GReg) : Sys2Proof.Laws.RoundTrip.Statement (.remn gd gs1 gs2) :=
  roundTrip_of rfl rfl (Nat.le_of_ble_eq_true rfl) (by decide) (fun h => by show (some (Instr.remn (BitVec.ofNat 6 (gd.toNat)) (BitVec.ofNat 6 (gs1.toNat)) (BitVec.ofNat 6 (gs2.toNat))) : Option Instr) = _; simp)
    (fits_cons gd.isLt (fits_cons gs1.isLt (fits_cons gs2.isLt fits_nil)))
theorem Sys2Proof.Laws.RoundTrip.and (gd : GReg) (gs1 : GReg) (gs2 : GReg) : Sys2Proof.Laws.RoundTrip.Statement (.and gd gs1 gs2) :=
  roundTrip_of rfl rfl (Nat.le_of_ble_eq_true rfl) (by decide) (fun h => by show (some (Instr.and (BitVec.ofNat 6 (gd.toNat)) (BitVec.ofNat 6 (gs1.toNat)) (BitVec.ofNat 6 (gs2.toNat))) : Option Instr) = _; simp)
    (fits_cons gd.isLt (fits_cons gs1.isLt (fits_cons gs2.isLt fits_nil)))
theorem Sys2Proof.Laws.RoundTrip.or (gd : GReg) (gs1 : GReg) (gs2 : GReg) : Sys2Proof.Laws.RoundTrip.Statement (.or gd gs1 gs2) :=
  roundTrip_of rfl rfl (Nat.le_of_ble_eq_true rfl) (by decide) (fun h => by show (some (Instr.or (BitVec.ofNat 6 (gd.toNat)) (BitVec.ofNat 6 (gs1.toNat)) (BitVec.ofNat 6 (gs2.toNat))) : Option Instr) = _; simp)
    (fits_cons gd.isLt (fits_cons gs1.isLt (fits_cons gs2.isLt fits_nil)))
theorem Sys2Proof.Laws.RoundTrip.xor (gd : GReg) (gs1 : GReg) (gs2 : GReg) : Sys2Proof.Laws.RoundTrip.Statement (.xor gd gs1 gs2) :=
  roundTrip_of rfl rfl (Nat.le_of_ble_eq_true rfl) (by decide) (fun h => by show (some (Instr.xor (BitVec.ofNat 6 (gd.toNat)) (BitVec.ofNat 6 (gs1.toNat)) (BitVec.ofNat 6 (gs2.toNat))) : Option Instr) = _; simp)
    (fits_cons gd.isLt (fits_cons gs1.isLt (fits_cons gs2.isLt fits_nil)))
theorem Sys2Proof.Laws.RoundTrip.andn (gd : GReg) (gs1 : GReg) (gs2 : GReg) : Sys2Proof.Laws.RoundTrip.Statement (.andn gd gs1 gs2) :=
  roundTrip_of rfl rfl (Nat.le_of_ble_eq_true rfl) (by decide) (fun h => by show (some (Instr.andn (BitVec.ofNat 6 (gd.toNat)) (BitVec.ofNat 6 (gs1.toNat)) (BitVec.ofNat 6 (gs2.toNat))) : Option Instr) = _; simp)
    (fits_cons gd.isLt (fits_cons gs1.isLt (fits_cons gs2.isLt fits_nil)))
theorem Sys2Proof.Laws.RoundTrip.shl (gd : GReg) (gs1 : GReg) (gs2 : GReg) : Sys2Proof.Laws.RoundTrip.Statement (.shl gd gs1 gs2) :=
  roundTrip_of rfl rfl (Nat.le_of_ble_eq_true rfl) (by decide) (fun h => by show (some (Instr.shl (BitVec.ofNat 6 (gd.toNat)) (BitVec.ofNat 6 (gs1.toNat)) (BitVec.ofNat 6 (gs2.toNat))) : Option Instr) = _; simp)
    (fits_cons gd.isLt (fits_cons gs1.isLt (fits_cons gs2.isLt fits_nil)))
theorem Sys2Proof.Laws.RoundTrip.shr (gd : GReg) (gs1 : GReg) (gs2 : GReg) : Sys2Proof.Laws.RoundTrip.Statement (.shr gd gs1 gs2) :=
  roundTrip_of rfl rfl (Nat.le_of_ble_eq_true rfl) (by decide) (fun h => by show (some (Instr.shr (BitVec.ofNat 6 (gd.toNat)) (BitVec.ofNat 6 (gs1.toNat)) (BitVec.ofNat 6 (gs2.toNat))) : Option Instr) = _; simp)
    (fits_cons gd.isLt (fits_cons gs1.isLt (fits_cons gs2.isLt fits_nil)))
theorem Sys2Proof.Laws.RoundTrip.sha (gd : GReg) (gs1 : GReg) (gs2 : GReg) : Sys2Proof.Laws.RoundTrip.Statement (.sha gd gs1 gs2) :=
  roundTrip_of rfl rfl (Nat.le_of_ble_eq_true rfl) (by decide) (fun h => by show (some (Instr.sha (BitVec.ofNat 6 (gd.toNat)) (BitVec.ofNat 6 (gs1.toNat)) (BitVec.ofNat 6 (gs2.toNat))) : Option Instr) = _; simp)
    (fits_cons gd.isLt (fits_cons gs1.isLt (fits_cons gs2.isLt fits_nil)))
theorem Sys2Proof.Laws.RoundTrip.rot (gd : GReg) (gs1 : GReg) (gs2 : GReg) : Sys2Proof.Laws.RoundTrip.Statement (.rot gd gs1 gs2) :=
  roundTrip_of rfl rfl (Nat.le_of_ble_eq_true rfl) (by decide) (fun h => by show (some (Instr.rot (BitVec.ofNat 6 (gd.toNat)) (BitVec.ofNat 6 (gs1.toNat)) (BitVec.ofNat 6 (gs2.toNat))) : Option Instr) = _; simp)
    (fits_cons gd.isLt (fits_cons gs1.isLt (fits_cons gs2.isLt fits_nil)))
theorem Sys2Proof.Laws.RoundTrip.min (gd : GReg) (gs1 : GReg) (gs2 : GReg) : Sys2Proof.Laws.RoundTrip.Statement (.min gd gs1 gs2) :=
  roundTrip_of rfl rfl (Nat.le_of_ble_eq_true rfl) (by decide) (fun h => by show (some (Instr.min (BitVec.ofNat 6 (gd.toNat)) (BitVec.ofNat 6 (gs1.toNat)) (BitVec.ofNat 6 (gs2.toNat))) : Option Instr) = _; simp)
    (fits_cons gd.isLt (fits_cons gs1.isLt (fits_cons gs2.isLt fits_nil)))
theorem Sys2Proof.Laws.RoundTrip.max (gd : GReg) (gs1 : GReg) (gs2 : GReg) : Sys2Proof.Laws.RoundTrip.Statement (.max gd gs1 gs2) :=
  roundTrip_of rfl rfl (Nat.le_of_ble_eq_true rfl) (by decide) (fun h => by show (some (Instr.max (BitVec.ofNat 6 (gd.toNat)) (BitVec.ofNat 6 (gs1.toNat)) (BitVec.ofNat 6 (gs2.toNat))) : Option Instr) = _; simp)
    (fits_cons gd.isLt (fits_cons gs1.isLt (fits_cons gs2.isLt fits_nil)))
theorem Sys2Proof.Laws.RoundTrip.minn (gd : GReg) (gs1 : GReg) (gs2 : GReg) : Sys2Proof.Laws.RoundTrip.Statement (.minn gd gs1 gs2) :=
  roundTrip_of rfl rfl (Nat.le_of_ble_eq_true rfl) (by decide) (fun h => by show (some (Instr.minn (BitVec.ofNat 6 (gd.toNat)) (BitVec.ofNat 6 (gs1.toNat)) (BitVec.ofNat 6 (gs2.toNat))) : Option Instr) = _; simp)
    (fits_cons gd.isLt (fits_cons gs1.isLt (fits_cons gs2.isLt fits_nil)))
theorem Sys2Proof.Laws.RoundTrip.maxn (gd : GReg) (gs1 : GReg) (gs2 : GReg) : Sys2Proof.Laws.RoundTrip.Statement (.maxn gd gs1 gs2) :=
  roundTrip_of rfl rfl (Nat.le_of_ble_eq_true rfl) (by decide) (fun h => by show (some (Instr.maxn (BitVec.ofNat 6 (gd.toNat)) (BitVec.ofNat 6 (gs1.toNat)) (BitVec.ofNat 6 (gs2.toNat))) : Option Instr) = _; simp)
    (fits_cons gd.isLt (fits_cons gs1.isLt (fits_cons gs2.isLt fits_nil)))
theorem Sys2Proof.Laws.RoundTrip.clz (gd : GReg) (gs1 : GReg) : Sys2Proof.Laws.RoundTrip.Statement (.clz gd gs1) :=
  roundTrip_of rfl rfl (Nat.le_of_ble_eq_true rfl) (by decide) (fun h => by show (some (Instr.clz (BitVec.ofNat 6 (gd.toNat)) (BitVec.ofNat 6 (gs1.toNat))) : Option Instr) = _; simp)
    (fits_cons gd.isLt (fits_cons gs1.isLt fits_nil))
theorem Sys2Proof.Laws.RoundTrip.ctz (gd : GReg) (gs1 : GReg) : Sys2Proof.Laws.RoundTrip.Statement (.ctz gd gs1) :=
  roundTrip_of rfl rfl (Nat.le_of_ble_eq_true rfl) (by decide) (fun h => by show (some (Instr.ctz (BitVec.ofNat 6 (gd.toNat)) (BitVec.ofNat 6 (gs1.toNat))) : Option Instr) = _; simp)
    (fits_cons gd.isLt (fits_cons gs1.isLt fits_nil))
theorem Sys2Proof.Laws.RoundTrip.popc (gd : GReg) (gs1 : GReg) : Sys2Proof.Laws.RoundTrip.Statement (.popc gd gs1) :=
  roundTrip_of rfl rfl (Nat.le_of_ble_eq_true rfl) (by decide) (fun h => by show (some (Instr.popc (BitVec.ofNat 6 (gd.toNat)) (BitVec.ofNat 6 (gs1.toNat))) : Option Instr) = _; simp)
    (fits_cons gd.isLt (fits_cons gs1.isLt fits_nil))
theorem Sys2Proof.Laws.RoundTrip.sel (gd : GReg) (ps : PReg) (gs1 : GReg) (gs2 : GReg) : Sys2Proof.Laws.RoundTrip.Statement (.sel gd ps gs1 gs2) :=
  roundTrip_of rfl rfl (Nat.le_of_ble_eq_true rfl) (by decide) (fun h => by show (some (Instr.sel (BitVec.ofNat 6 (gd.toNat)) (BitVec.ofNat 7 (ps.toNat)) (BitVec.ofNat 6 (gs1.toNat)) (BitVec.ofNat 6 (gs2.toNat))) : Option Instr) = _; simp)
    (fits_cons gd.isLt (fits_cons ps.isLt (fits_cons gs1.isLt (fits_cons gs2.isLt fits_nil))))
theorem Sys2Proof.Laws.RoundTrip.addi (gd : GReg) (gs1 : GReg) (imm : BitVec 36) : Sys2Proof.Laws.RoundTrip.Statement (.addi gd gs1 imm) :=
  roundTrip_of rfl rfl (Nat.le_of_ble_eq_true rfl) (by decide) (fun h => by show (some (Instr.addi (BitVec.ofNat 6 (gd.toNat)) (BitVec.ofNat 6 (gs1.toNat)) (BitVec.ofNat 36 (imm.toNat))) : Option Instr) = _; simp)
    (fits_cons gd.isLt (fits_cons gs1.isLt (fits_cons imm.isLt fits_nil)))
theorem Sys2Proof.Laws.RoundTrip.andi (gd : GReg) (gs1 : GReg) (imm : BitVec 36) : Sys2Proof.Laws.RoundTrip.Statement (.andi gd gs1 imm) :=
  roundTrip_of rfl rfl (Nat.le_of_ble_eq_true rfl) (by decide) (fun h => by show (some (Instr.andi (BitVec.ofNat 6 (gd.toNat)) (BitVec.ofNat 6 (gs1.toNat)) (BitVec.ofNat 36 (imm.toNat))) : Option Instr) = _; simp)
    (fits_cons gd.isLt (fits_cons gs1.isLt (fits_cons imm.isLt fits_nil)))
theorem Sys2Proof.Laws.RoundTrip.ori (gd : GReg) (gs1 : GReg) (imm : BitVec 36) : Sys2Proof.Laws.RoundTrip.Statement (.ori gd gs1 imm) :=
  roundTrip_of rfl rfl (Nat.le_of_ble_eq_true rfl) (by decide) (fun h => by show (some (Instr.ori (BitVec.ofNat 6 (gd.toNat)) (BitVec.ofNat 6 (gs1.toNat)) (BitVec.ofNat 36 (imm.toNat))) : Option Instr) = _; simp)
    (fits_cons gd.isLt (fits_cons gs1.isLt (fits_cons imm.isLt fits_nil)))
theorem Sys2Proof.Laws.RoundTrip.xori (gd : GReg) (gs1 : GReg) (imm : BitVec 36) : Sys2Proof.Laws.RoundTrip.Statement (.xori gd gs1 imm) :=
  roundTrip_of rfl rfl (Nat.le_of_ble_eq_true rfl) (by decide) (fun h => by show (some (Instr.xori (BitVec.ofNat 6 (gd.toNat)) (BitVec.ofNat 6 (gs1.toNat)) (BitVec.ofNat 36 (imm.toNat))) : Option Instr) = _; simp)
    (fits_cons gd.isLt (fits_cons gs1.isLt (fits_cons imm.isLt fits_nil)))
theorem Sys2Proof.Laws.RoundTrip.shli (gd : GReg) (gs1 : GReg) (n : BitVec 6) : Sys2Proof.Laws.RoundTrip.Statement (.shli gd gs1 n) :=
  roundTrip_of rfl rfl (Nat.le_of_ble_eq_true rfl) (by decide) (fun h => by show (some (Instr.shli (BitVec.ofNat 6 (gd.toNat)) (BitVec.ofNat 6 (gs1.toNat)) (BitVec.ofNat 6 (n.toNat))) : Option Instr) = _; simp)
    (fits_cons gd.isLt (fits_cons gs1.isLt (fits_cons n.isLt fits_nil)))
theorem Sys2Proof.Laws.RoundTrip.shri (gd : GReg) (gs1 : GReg) (n : BitVec 6) : Sys2Proof.Laws.RoundTrip.Statement (.shri gd gs1 n) :=
  roundTrip_of rfl rfl (Nat.le_of_ble_eq_true rfl) (by decide) (fun h => by show (some (Instr.shri (BitVec.ofNat 6 (gd.toNat)) (BitVec.ofNat 6 (gs1.toNat)) (BitVec.ofNat 6 (n.toNat))) : Option Instr) = _; simp)
    (fits_cons gd.isLt (fits_cons gs1.isLt (fits_cons n.isLt fits_nil)))
theorem Sys2Proof.Laws.RoundTrip.shai (gd : GReg) (gs1 : GReg) (n : BitVec 6) : Sys2Proof.Laws.RoundTrip.Statement (.shai gd gs1 n) :=
  roundTrip_of rfl rfl (Nat.le_of_ble_eq_true rfl) (by decide) (fun h => by show (some (Instr.shai (BitVec.ofNat 6 (gd.toNat)) (BitVec.ofNat 6 (gs1.toNat)) (BitVec.ofNat 6 (n.toNat))) : Option Instr) = _; simp)
    (fits_cons gd.isLt (fits_cons gs1.isLt (fits_cons n.isLt fits_nil)))
theorem Sys2Proof.Laws.RoundTrip.movi (gd : GReg) (imm : BitVec 42) : Sys2Proof.Laws.RoundTrip.Statement (.movi gd imm) :=
  roundTrip_of rfl rfl (Nat.le_of_ble_eq_true rfl) (by decide) (fun h => by show (some (Instr.movi (BitVec.ofNat 6 (gd.toNat)) (BitVec.ofNat 42 (imm.toNat))) : Option Instr) = _; simp)
    (fits_cons gd.isLt (fits_cons imm.isLt fits_nil))
theorem Sys2Proof.Laws.RoundTrip.movhi (gd : GReg) (imm : BitVec 22) : Sys2Proof.Laws.RoundTrip.Statement (.movhi gd imm) :=
  roundTrip_of rfl rfl (Nat.le_of_ble_eq_true rfl) (by decide) (fun h => by show (some (Instr.movhi (BitVec.ofNat 6 (gd.toNat)) (BitVec.ofNat 22 (imm.toNat))) : Option Instr) = _; simp)
    (fits_cons gd.isLt (fits_cons imm.isLt fits_nil))
theorem Sys2Proof.Laws.RoundTrip.cmpi (pd : PReg) (gs1 : GReg) (imm : BitVec 27) (cond : Cond) : Sys2Proof.Laws.RoundTrip.Statement (.cmpi pd gs1 imm cond) :=
  roundTrip_of rfl rfl (Nat.le_of_ble_eq_true rfl) (by decide) (fun h => by show ((Cond.ofCode (cond.toCode)).bind fun cond => some (Instr.cmpi (BitVec.ofNat 7 (pd.toNat)) (BitVec.ofNat 6 (gs1.toNat)) (BitVec.ofNat 27 (imm.toNat)) cond) : Option Instr) = _; simp)
    (fits_cons pd.isLt (fits_cons gs1.isLt (fits_cons imm.isLt (fits_cons cond.toCode_lt fits_nil))))
theorem Sys2Proof.Laws.RoundTrip.cmp (pd : PReg) (gs1 : GReg) (gs2 : GReg) (cond : Cond) : Sys2Proof.Laws.RoundTrip.Statement (.cmp pd gs1 gs2 cond) :=
  roundTrip_of rfl rfl (Nat.le_of_ble_eq_true rfl) (by decide) (fun h => by show ((Cond.ofCode (cond.toCode)).bind fun cond => some (Instr.cmp (BitVec.ofNat 7 (pd.toNat)) (BitVec.ofNat 6 (gs1.toNat)) (BitVec.ofNat 6 (gs2.toNat)) cond) : Option Instr) = _; simp)
    (fits_cons pd.isLt (fits_cons gs1.isLt (fits_cons gs2.isLt (fits_cons cond.toCode_lt fits_nil))))
theorem Sys2Proof.Laws.RoundTrip.pand (pd : PReg) (ps1 : PReg) (ps2 : PReg) : Sys2Proof.Laws.RoundTrip.Statement (.pand pd ps1 ps2) :=
  roundTrip_of rfl rfl (Nat.le_of_ble_eq_true rfl) (by decide) (fun h => by show (some (Instr.pand (BitVec.ofNat 7 (pd.toNat)) (BitVec.ofNat 7 (ps1.toNat)) (BitVec.ofNat 7 (ps2.toNat))) : Option Instr) = _; simp)
    (fits_cons pd.isLt (fits_cons ps1.isLt (fits_cons ps2.isLt fits_nil)))
theorem Sys2Proof.Laws.RoundTrip.por (pd : PReg) (ps1 : PReg) (ps2 : PReg) : Sys2Proof.Laws.RoundTrip.Statement (.por pd ps1 ps2) :=
  roundTrip_of rfl rfl (Nat.le_of_ble_eq_true rfl) (by decide) (fun h => by show (some (Instr.por (BitVec.ofNat 7 (pd.toNat)) (BitVec.ofNat 7 (ps1.toNat)) (BitVec.ofNat 7 (ps2.toNat))) : Option Instr) = _; simp)
    (fits_cons pd.isLt (fits_cons ps1.isLt (fits_cons ps2.isLt fits_nil)))
theorem Sys2Proof.Laws.RoundTrip.pxor (pd : PReg) (ps1 : PReg) (ps2 : PReg) : Sys2Proof.Laws.RoundTrip.Statement (.pxor pd ps1 ps2) :=
  roundTrip_of rfl rfl (Nat.le_of_ble_eq_true rfl) (by decide) (fun h => by show (some (Instr.pxor (BitVec.ofNat 7 (pd.toNat)) (BitVec.ofNat 7 (ps1.toNat)) (BitVec.ofNat 7 (ps2.toNat))) : Option Instr) = _; simp)
    (fits_cons pd.isLt (fits_cons ps1.isLt (fits_cons ps2.isLt fits_nil)))
theorem Sys2Proof.Laws.RoundTrip.pandn (pd : PReg) (ps1 : PReg) (ps2 : PReg) : Sys2Proof.Laws.RoundTrip.Statement (.pandn pd ps1 ps2) :=
  roundTrip_of rfl rfl (Nat.le_of_ble_eq_true rfl) (by decide) (fun h => by show (some (Instr.pandn (BitVec.ofNat 7 (pd.toNat)) (BitVec.ofNat 7 (ps1.toNat)) (BitVec.ofNat 7 (ps2.toNat))) : Option Instr) = _; simp)
    (fits_cons pd.isLt (fits_cons ps1.isLt (fits_cons ps2.isLt fits_nil)))
theorem Sys2Proof.Laws.RoundTrip.pnot (pd : PReg) (ps1 : PReg) : Sys2Proof.Laws.RoundTrip.Statement (.pnot pd ps1) :=
  roundTrip_of rfl rfl (Nat.le_of_ble_eq_true rfl) (by decide) (fun h => by show (some (Instr.pnot (BitVec.ofNat 7 (pd.toNat)) (BitVec.ofNat 7 (ps1.toNat))) : Option Instr) = _; simp)
    (fits_cons pd.isLt (fits_cons ps1.isLt fits_nil))
theorem Sys2Proof.Laws.RoundTrip.pmov (pd : PReg) (ps1 : PReg) : Sys2Proof.Laws.RoundTrip.Statement (.pmov pd ps1) :=
  roundTrip_of rfl rfl (Nat.le_of_ble_eq_true rfl) (by decide) (fun h => by show (some (Instr.pmov (BitVec.ofNat 7 (pd.toNat)) (BitVec.ofNat 7 (ps1.toNat))) : Option Instr) = _; simp)
    (fits_cons pd.isLt (fits_cons ps1.isLt fits_nil))
theorem Sys2Proof.Laws.RoundTrip.amov (ad : AReg) (asr : AReg) : Sys2Proof.Laws.RoundTrip.Statement (.amov ad asr) :=
  roundTrip_of rfl rfl (Nat.le_of_ble_eq_true rfl) (by decide) (fun h => by show (some (Instr.amov (BitVec.ofNat 4 (ad.toNat)) (BitVec.ofNat 4 (asr.toNat))) : Option Instr) = _; simp)
    (fits_cons ad.isLt (fits_cons asr.isLt fits_nil))
theorem Sys2Proof.Laws.RoundTrip.aadd (ad : AReg) (asr : AReg) (gs : GReg) (imm : BitVec 16) : Sys2Proof.Laws.RoundTrip.Statement (.aadd ad asr gs imm) :=
  roundTrip_of rfl rfl (Nat.le_of_ble_eq_true rfl) (by decide) (fun h => by show (some (Instr.aadd (BitVec.ofNat 4 (ad.toNat)) (BitVec.ofNat 4 (asr.toNat)) (BitVec.ofNat 6 (gs.toNat)) (BitVec.ofNat 16 (imm.toNat))) : Option Instr) = _; simp)
    (fits_cons ad.isLt (fits_cons asr.isLt (fits_cons gs.isLt (fits_cons imm.isLt fits_nil))))
theorem Sys2Proof.Laws.RoundTrip.aget (gd : GReg) (asr : AReg) (sel : AgetSel) : Sys2Proof.Laws.RoundTrip.Statement (.aget gd asr sel) :=
  roundTrip_of rfl rfl (Nat.le_of_ble_eq_true rfl) (by decide) (fun h => by show ((AgetSel.ofCode (sel.toCode)).bind fun sel => some (Instr.aget (BitVec.ofNat 6 (gd.toNat)) (BitVec.ofNat 4 (asr.toNat)) sel) : Option Instr) = _; simp)
    (fits_cons gd.isLt (fits_cons asr.isLt (fits_cons sel.toCode_lt fits_nil)))
theorem Sys2Proof.Laws.RoundTrip.abind (ad : AReg) (gs1 : GReg) (gs2 : GReg) : Sys2Proof.Laws.RoundTrip.Statement (.abind ad gs1 gs2) :=
  roundTrip_of rfl rfl (Nat.le_of_ble_eq_true rfl) (by decide) (fun h => by show (some (Instr.abind (BitVec.ofNat 4 (ad.toNat)) (BitVec.ofNat 6 (gs1.toNat)) (BitVec.ofNat 6 (gs2.toNat))) : Option Instr) = _; simp)
    (fits_cons ad.isLt (fits_cons gs1.isLt (fits_cons gs2.isLt fits_nil)))
theorem Sys2Proof.Laws.RoundTrip.astr (ad : AReg) (gs : GReg) (imm : BitVec 24) : Sys2Proof.Laws.RoundTrip.Statement (.astr ad gs imm) :=
  roundTrip_of rfl rfl (Nat.le_of_ble_eq_true rfl) (by decide) (fun h => by show (some (Instr.astr (BitVec.ofNat 4 (ad.toNat)) (BitVec.ofNat 6 (gs.toNat)) (BitVec.ofNat 24 (imm.toNat))) : Option Instr) = _; simp)
    (fits_cons ad.isLt (fits_cons gs.isLt (fits_cons imm.isLt fits_nil)))
theorem Sys2Proof.Laws.RoundTrip.br (off : BitVec 32) : Sys2Proof.Laws.RoundTrip.Statement (.br off) :=
  roundTrip_of rfl rfl (Nat.le_of_ble_eq_true rfl) (by decide) (fun h => by show (some (Instr.br (BitVec.ofNat 32 (off.toNat))) : Option Instr) = _; simp)
    (fits_cons off.isLt fits_nil)
theorem Sys2Proof.Laws.RoundTrip.brc (gs1 : GReg) (gs2 : GReg) (off : BitVec 24) (cond : Cond) : Sys2Proof.Laws.RoundTrip.Statement (.brc gs1 gs2 off cond) :=
  roundTrip_of rfl rfl (Nat.le_of_ble_eq_true rfl) (by decide) (fun h => by show ((Cond.ofCode (cond.toCode)).bind fun cond => some (Instr.brc (BitVec.ofNat 6 (gs1.toNat)) (BitVec.ofNat 6 (gs2.toNat)) (BitVec.ofNat 24 (off.toNat)) cond) : Option Instr) = _; simp)
    (fits_cons gs1.isLt (fits_cons gs2.isLt (fits_cons off.isLt (fits_cons cond.toCode_lt fits_nil))))
theorem Sys2Proof.Laws.RoundTrip.jmp (gs : GReg) : Sys2Proof.Laws.RoundTrip.Statement (.jmp gs) :=
  roundTrip_of rfl rfl (Nat.le_of_ble_eq_true rfl) (by decide) (fun h => by show (some (Instr.jmp (BitVec.ofNat 6 (gs.toNat))) : Option Instr) = _; simp)
    (fits_cons gs.isLt fits_nil)
theorem Sys2Proof.Laws.RoundTrip.call (gd : GReg) (off : BitVec 32) : Sys2Proof.Laws.RoundTrip.Statement (.call gd off) :=
  roundTrip_of rfl rfl (Nat.le_of_ble_eq_true rfl) (by decide) (fun h => by show (some (Instr.call (BitVec.ofNat 6 (gd.toNat)) (BitVec.ofNat 32 (off.toNat))) : Option Instr) = _; simp)
    (fits_cons gd.isLt (fits_cons off.isLt fits_nil))
theorem Sys2Proof.Laws.RoundTrip.ret (gs : GReg) : Sys2Proof.Laws.RoundTrip.Statement (.ret gs) :=
  roundTrip_of rfl rfl (Nat.le_of_ble_eq_true rfl) (by decide) (fun h => by show (some (Instr.ret (BitVec.ofNat 6 (gs.toNat))) : Option Instr) = _; simp)
    (fits_cons gs.isLt fits_nil)
theorem Sys2Proof.Laws.RoundTrip.loop (lc : CReg) (gs : GReg) (off : BitVec 12) (sm1 : BitVec 3) : Sys2Proof.Laws.RoundTrip.Statement (.loop lc gs off sm1) :=
  roundTrip_of rfl rfl (Nat.le_of_ble_eq_true rfl) (by decide) (fun h => by show (some (Instr.loop (BitVec.ofNat 2 (lc.toNat)) (BitVec.ofNat 6 (gs.toNat)) (BitVec.ofNat 12 (off.toNat)) (BitVec.ofNat 3 (sm1.toNat))) : Option Instr) = _; simp)
    (fits_cons lc.isLt (fits_cons gs.isLt (fits_cons off.isLt (fits_cons sm1.isLt fits_nil))))
theorem Sys2Proof.Laws.RoundTrip.lexit (lc : CReg) (off : BitVec 32) : Sys2Proof.Laws.RoundTrip.Statement (.lexit lc off) :=
  roundTrip_of rfl rfl (Nat.le_of_ble_eq_true rfl) (by decide) (fun h => by show (some (Instr.lexit (BitVec.ofNat 2 (lc.toNat)) (BitVec.ofNat 32 (off.toNat))) : Option Instr) = _; simp)
    (fits_cons lc.isLt (fits_cons off.isLt fits_nil))
theorem Sys2Proof.Laws.RoundTrip.spawn (gs : GReg) (q : BitVec 4) : Sys2Proof.Laws.RoundTrip.Statement (.spawn gs q) :=
  roundTrip_of rfl rfl (Nat.le_of_ble_eq_true rfl) (by decide) (fun h => by show (some (Instr.spawn (BitVec.ofNat 6 (gs.toNat)) (BitVec.ofNat 4 (q.toNat))) : Option Instr) = _; simp)
    (fits_cons gs.isLt (fits_cons q.isLt fits_nil))
theorem Sys2Proof.Laws.RoundTrip.tend : Sys2Proof.Laws.RoundTrip.Statement (.tend) :=
  roundTrip_of rfl rfl (Nat.le_of_ble_eq_true rfl) (by decide) (fun _ => rfl)
    fits_nil
theorem Sys2Proof.Laws.RoundTrip.trap (imm : BitVec 16) : Sys2Proof.Laws.RoundTrip.Statement (.trap imm) :=
  roundTrip_of rfl rfl (Nat.le_of_ble_eq_true rfl) (by decide) (fun h => by show (some (Instr.trap (BitVec.ofNat 16 (imm.toNat))) : Option Instr) = _; simp)
    (fits_cons imm.isLt fits_nil)
theorem Sys2Proof.Laws.RoundTrip.chk (x1 : BitVec 6) (x2 : BitVec 6) (kind : ChkKind) : Sys2Proof.Laws.RoundTrip.Statement (.chk x1 x2 kind) :=
  roundTrip_of rfl rfl (Nat.le_of_ble_eq_true rfl) (by decide) (fun h => by show ((ChkKind.ofCode (kind.toCode)).bind fun kind => some (Instr.chk (BitVec.ofNat 6 (x1.toNat)) (BitVec.ofNat 6 (x2.toNat)) kind) : Option Instr) = _; simp)
    (fits_cons x1.isLt (fits_cons x2.isLt (fits_cons kind.toCode_lt fits_nil)))
theorem Sys2Proof.Laws.RoundTrip.chkp (ps1 : PReg) (ps2 : PReg) : Sys2Proof.Laws.RoundTrip.Statement (.chkp ps1 ps2) :=
  roundTrip_of rfl rfl (Nat.le_of_ble_eq_true rfl) (by decide) (fun h => by show (some (Instr.chkp (BitVec.ofNat 7 (ps1.toNat)) (BitVec.ofNat 7 (ps2.toNat))) : Option Instr) = _; simp)
    (fits_cons ps1.isLt (fits_cons ps2.isLt fits_nil))
theorem Sys2Proof.Laws.RoundTrip.mfc (gd : GReg) (num : BitVec 8) : Sys2Proof.Laws.RoundTrip.Statement (.mfc gd num) :=
  roundTrip_of rfl rfl (Nat.le_of_ble_eq_true rfl) (by decide) (fun h => by show (some (Instr.mfc (BitVec.ofNat 6 (gd.toNat)) (BitVec.ofNat 8 (num.toNat))) : Option Instr) = _; simp)
    (fits_cons gd.isLt (fits_cons num.isLt fits_nil))
theorem Sys2Proof.Laws.RoundTrip.mtc (num : BitVec 8) (gs : GReg) : Sys2Proof.Laws.RoundTrip.Statement (.mtc num gs) :=
  roundTrip_of rfl rfl (Nat.le_of_ble_eq_true rfl) (by decide) (fun h => by show (some (Instr.mtc (BitVec.ofNat 8 (num.toNat)) (BitVec.ofNat 6 (gs.toNat))) : Option Instr) = _; simp)
    (fits_cons num.isLt (fits_cons gs.isLt fits_nil))
theorem Sys2Proof.Laws.RoundTrip.mfs (gd : GReg) (num : BitVec 10) : Sys2Proof.Laws.RoundTrip.Statement (.mfs gd num) :=
  roundTrip_of rfl rfl (Nat.le_of_ble_eq_true rfl) (by decide) (fun h => by show (some (Instr.mfs (BitVec.ofNat 6 (gd.toNat)) (BitVec.ofNat 10 (num.toNat))) : Option Instr) = _; simp)
    (fits_cons gd.isLt (fits_cons num.isLt fits_nil))
theorem Sys2Proof.Laws.RoundTrip.mts (num : BitVec 10) (gs : GReg) : Sys2Proof.Laws.RoundTrip.Statement (.mts num gs) :=
  roundTrip_of rfl rfl (Nat.le_of_ble_eq_true rfl) (by decide) (fun h => by show (some (Instr.mts (BitVec.ofNat 10 (num.toNat)) (BitVec.ofNat 6 (gs.toNat))) : Option Instr) = _; simp)
    (fits_cons num.isLt (fits_cons gs.isLt fits_nil))
theorem Sys2Proof.Laws.RoundTrip.tret : Sys2Proof.Laws.RoundTrip.Statement (.tret) :=
  roundTrip_of rfl rfl (Nat.le_of_ble_eq_true rfl) (by decide) (fun _ => rfl)
    (fits_cons (by decide) (fits_cons (by decide) fits_nil))
theorem Sys2Proof.Laws.RoundTrip.tretEnd (gs : GReg) : Sys2Proof.Laws.RoundTrip.Statement (.tretEnd gs) :=
  roundTrip_of rfl rfl (Nat.le_of_ble_eq_true rfl) (by decide) (fun h => by show (some (Instr.tretEnd (BitVec.ofNat 6 (gs.toNat))) : Option Instr) = _; simp)
    (fits_cons (by decide) (fits_cons gs.isLt fits_nil))
theorem Sys2Proof.Laws.RoundTrip.tretYield : Sys2Proof.Laws.RoundTrip.Statement (.tretYield) :=
  roundTrip_of rfl rfl (Nat.le_of_ble_eq_true rfl) (by decide) (fun _ => rfl)
    (fits_cons (by decide) (fits_cons (by decide) fits_nil))
theorem Sys2Proof.Laws.RoundTrip.ctxsv (gs : GReg) : Sys2Proof.Laws.RoundTrip.Statement (.ctxsv gs) :=
  roundTrip_of rfl rfl (Nat.le_of_ble_eq_true rfl) (by decide) (fun h => by show (some (Instr.ctxsv (BitVec.ofNat 6 (gs.toNat))) : Option Instr) = _; simp)
    (fits_cons gs.isLt fits_nil)
theorem Sys2Proof.Laws.RoundTrip.ctxld (gs : GReg) : Sys2Proof.Laws.RoundTrip.Statement (.ctxld gs) :=
  roundTrip_of rfl rfl (Nat.le_of_ble_eq_true rfl) (by decide) (fun h => by show (some (Instr.ctxld (BitVec.ofNat 6 (gs.toNat))) : Option Instr) = _; simp)
    (fits_cons gs.isLt fits_nil)
theorem Sys2Proof.Laws.RoundTrip.mown : Sys2Proof.Laws.RoundTrip.Statement (.mown) :=
  roundTrip_of rfl rfl (Nat.le_of_ble_eq_true rfl) (by decide) (fun _ => rfl)
    fits_nil
theorem Sys2Proof.Laws.RoundTrip.mgive : Sys2Proof.Laws.RoundTrip.Statement (.mgive) :=
  roundTrip_of rfl rfl (Nat.le_of_ble_eq_true rfl) (by decide) (fun _ => rfl)
    fits_nil
theorem Sys2Proof.Laws.RoundTrip.tlbiAll (sc : BitVec 1) (gs : GReg) : Sys2Proof.Laws.RoundTrip.Statement (.tlbiAll sc gs) :=
  roundTrip_of rfl rfl (Nat.le_of_ble_eq_true rfl) (by decide) (fun h => by show (some (Instr.tlbiAll (BitVec.ofNat 1 (sc.toNat)) (BitVec.ofNat 6 (gs.toNat))) : Option Instr) = _; simp)
    (fits_cons (by decide) (fits_cons sc.isLt (fits_cons gs.isLt fits_nil)))
theorem Sys2Proof.Laws.RoundTrip.tlbiVa (sc : BitVec 1) (gs : GReg) : Sys2Proof.Laws.RoundTrip.Statement (.tlbiVa sc gs) :=
  roundTrip_of rfl rfl (Nat.le_of_ble_eq_true rfl) (by decide) (fun h => by show (some (Instr.tlbiVa (BitVec.ofNat 1 (sc.toNat)) (BitVec.ofNat 6 (gs.toNat))) : Option Instr) = _; simp)
    (fits_cons (by decide) (fits_cons sc.isLt (fits_cons gs.isLt fits_nil)))
theorem Sys2Proof.Laws.RoundTrip.tlbiWalk (sc : BitVec 1) (gs : GReg) : Sys2Proof.Laws.RoundTrip.Statement (.tlbiWalk sc gs) :=
  roundTrip_of rfl rfl (Nat.le_of_ble_eq_true rfl) (by decide) (fun h => by show (some (Instr.tlbiWalk (BitVec.ofNat 1 (sc.toNat)) (BitVec.ofNat 6 (gs.toNat))) : Option Instr) = _; simp)
    (fits_cons (by decide) (fits_cons sc.isLt (fits_cons gs.isLt fits_nil)))
theorem Sys2Proof.Laws.RoundTrip.vadd (vd : VReg) (vs1 : VReg) (src : VSrc) (km : KReg) (sat : Sat) : Sys2Proof.Laws.RoundTrip.Statement (.vadd vd vs1 src km sat) :=
  roundTrip_of rfl rfl (Nat.le_of_ble_eq_true rfl) (by decide) (fun h => by show ((VSrc.ofRaw (src.toRaw.1) (src.toRaw.2.1) (src.toRaw.2.2)).bind fun src => (Sat.ofCode (sat.toCode)).bind fun sat => some (Instr.vadd (BitVec.ofNat 6 (vd.toNat)) (BitVec.ofNat 6 (vs1.toNat)) src (BitVec.ofNat 4 (km.toNat)) sat) : Option Instr) = _; simp)
    (fits_cons vd.isLt (fits_cons vs1.isLt (fits_cons src.toRaw_lt.1 (fits_cons km.isLt (fits_cons sat.toCode_lt (fits_cons src.toRaw_lt.2.1 (fits_cons src.toRaw_lt.2.2 fits_nil)))))))
theorem Sys2Proof.Laws.RoundTrip.vsub (vd : VReg) (vs1 : VReg) (src : VSrc) (km : KReg) (sat : Sat) : Sys2Proof.Laws.RoundTrip.Statement (.vsub vd vs1 src km sat) :=
  roundTrip_of rfl rfl (Nat.le_of_ble_eq_true rfl) (by decide) (fun h => by show ((VSrc.ofRaw (src.toRaw.1) (src.toRaw.2.1) (src.toRaw.2.2)).bind fun src => (Sat.ofCode (sat.toCode)).bind fun sat => some (Instr.vsub (BitVec.ofNat 6 (vd.toNat)) (BitVec.ofNat 6 (vs1.toNat)) src (BitVec.ofNat 4 (km.toNat)) sat) : Option Instr) = _; simp)
    (fits_cons vd.isLt (fits_cons vs1.isLt (fits_cons src.toRaw_lt.1 (fits_cons km.isLt (fits_cons sat.toCode_lt (fits_cons src.toRaw_lt.2.1 (fits_cons src.toRaw_lt.2.2 fits_nil)))))))
theorem Sys2Proof.Laws.RoundTrip.vmul (vd : VReg) (vs1 : VReg) (src : VSrc) (km : KReg) (sat : Sat) : Sys2Proof.Laws.RoundTrip.Statement (.vmul vd vs1 src km sat) :=
  roundTrip_of rfl rfl (Nat.le_of_ble_eq_true rfl) (by decide) (fun h => by show ((VSrc.ofRaw (src.toRaw.1) (src.toRaw.2.1) (src.toRaw.2.2)).bind fun src => (Sat.ofCode (sat.toCode)).bind fun sat => some (Instr.vmul (BitVec.ofNat 6 (vd.toNat)) (BitVec.ofNat 6 (vs1.toNat)) src (BitVec.ofNat 4 (km.toNat)) sat) : Option Instr) = _; simp)
    (fits_cons vd.isLt (fits_cons vs1.isLt (fits_cons src.toRaw_lt.1 (fits_cons km.isLt (fits_cons sat.toCode_lt (fits_cons src.toRaw_lt.2.1 (fits_cons src.toRaw_lt.2.2 fits_nil)))))))
theorem Sys2Proof.Laws.RoundTrip.vmulh (vd : VReg) (vs1 : VReg) (src : VSrc) (km : KReg) (sat : Sat) : Sys2Proof.Laws.RoundTrip.Statement (.vmulh vd vs1 src km sat) :=
  roundTrip_of rfl rfl (Nat.le_of_ble_eq_true rfl) (by decide) (fun h => by show ((VSrc.ofRaw (src.toRaw.1) (src.toRaw.2.1) (src.toRaw.2.2)).bind fun src => (Sat.ofCode (sat.toCode)).bind fun sat => some (Instr.vmulh (BitVec.ofNat 6 (vd.toNat)) (BitVec.ofNat 6 (vs1.toNat)) src (BitVec.ofNat 4 (km.toNat)) sat) : Option Instr) = _; simp)
    (fits_cons vd.isLt (fits_cons vs1.isLt (fits_cons src.toRaw_lt.1 (fits_cons km.isLt (fits_cons sat.toCode_lt (fits_cons src.toRaw_lt.2.1 (fits_cons src.toRaw_lt.2.2 fits_nil)))))))
theorem Sys2Proof.Laws.RoundTrip.vmin (vd : VReg) (vs1 : VReg) (src : VSrc) (km : KReg) (sat : Sat) : Sys2Proof.Laws.RoundTrip.Statement (.vmin vd vs1 src km sat) :=
  roundTrip_of rfl rfl (Nat.le_of_ble_eq_true rfl) (by decide) (fun h => by show ((VSrc.ofRaw (src.toRaw.1) (src.toRaw.2.1) (src.toRaw.2.2)).bind fun src => (Sat.ofCode (sat.toCode)).bind fun sat => some (Instr.vmin (BitVec.ofNat 6 (vd.toNat)) (BitVec.ofNat 6 (vs1.toNat)) src (BitVec.ofNat 4 (km.toNat)) sat) : Option Instr) = _; simp)
    (fits_cons vd.isLt (fits_cons vs1.isLt (fits_cons src.toRaw_lt.1 (fits_cons km.isLt (fits_cons sat.toCode_lt (fits_cons src.toRaw_lt.2.1 (fits_cons src.toRaw_lt.2.2 fits_nil)))))))
theorem Sys2Proof.Laws.RoundTrip.vmax (vd : VReg) (vs1 : VReg) (src : VSrc) (km : KReg) (sat : Sat) : Sys2Proof.Laws.RoundTrip.Statement (.vmax vd vs1 src km sat) :=
  roundTrip_of rfl rfl (Nat.le_of_ble_eq_true rfl) (by decide) (fun h => by show ((VSrc.ofRaw (src.toRaw.1) (src.toRaw.2.1) (src.toRaw.2.2)).bind fun src => (Sat.ofCode (sat.toCode)).bind fun sat => some (Instr.vmax (BitVec.ofNat 6 (vd.toNat)) (BitVec.ofNat 6 (vs1.toNat)) src (BitVec.ofNat 4 (km.toNat)) sat) : Option Instr) = _; simp)
    (fits_cons vd.isLt (fits_cons vs1.isLt (fits_cons src.toRaw_lt.1 (fits_cons km.isLt (fits_cons sat.toCode_lt (fits_cons src.toRaw_lt.2.1 (fits_cons src.toRaw_lt.2.2 fits_nil)))))))
theorem Sys2Proof.Laws.RoundTrip.vminn (vd : VReg) (vs1 : VReg) (src : VSrc) (km : KReg) (sat : Sat) : Sys2Proof.Laws.RoundTrip.Statement (.vminn vd vs1 src km sat) :=
  roundTrip_of rfl rfl (Nat.le_of_ble_eq_true rfl) (by decide) (fun h => by show ((VSrc.ofRaw (src.toRaw.1) (src.toRaw.2.1) (src.toRaw.2.2)).bind fun src => (Sat.ofCode (sat.toCode)).bind fun sat => some (Instr.vminn (BitVec.ofNat 6 (vd.toNat)) (BitVec.ofNat 6 (vs1.toNat)) src (BitVec.ofNat 4 (km.toNat)) sat) : Option Instr) = _; simp)
    (fits_cons vd.isLt (fits_cons vs1.isLt (fits_cons src.toRaw_lt.1 (fits_cons km.isLt (fits_cons sat.toCode_lt (fits_cons src.toRaw_lt.2.1 (fits_cons src.toRaw_lt.2.2 fits_nil)))))))
theorem Sys2Proof.Laws.RoundTrip.vmaxn (vd : VReg) (vs1 : VReg) (src : VSrc) (km : KReg) (sat : Sat) : Sys2Proof.Laws.RoundTrip.Statement (.vmaxn vd vs1 src km sat) :=
  roundTrip_of rfl rfl (Nat.le_of_ble_eq_true rfl) (by decide) (fun h => by show ((VSrc.ofRaw (src.toRaw.1) (src.toRaw.2.1) (src.toRaw.2.2)).bind fun src => (Sat.ofCode (sat.toCode)).bind fun sat => some (Instr.vmaxn (BitVec.ofNat 6 (vd.toNat)) (BitVec.ofNat 6 (vs1.toNat)) src (BitVec.ofNat 4 (km.toNat)) sat) : Option Instr) = _; simp)
    (fits_cons vd.isLt (fits_cons vs1.isLt (fits_cons src.toRaw_lt.1 (fits_cons km.isLt (fits_cons sat.toCode_lt (fits_cons src.toRaw_lt.2.1 (fits_cons src.toRaw_lt.2.2 fits_nil)))))))
theorem Sys2Proof.Laws.RoundTrip.vabs (vd : VReg) (vs1 : VReg) (km : KReg) (sat : Sat) : Sys2Proof.Laws.RoundTrip.Statement (.vabs vd vs1 km sat) :=
  roundTrip_of rfl rfl (Nat.le_of_ble_eq_true rfl) (by decide) (fun h => by show ((Sat.ofCode (sat.toCode)).bind fun sat => some (Instr.vabs (BitVec.ofNat 6 (vd.toNat)) (BitVec.ofNat 6 (vs1.toNat)) (BitVec.ofNat 4 (km.toNat)) sat) : Option Instr) = _; simp)
    (fits_cons vd.isLt (fits_cons vs1.isLt (fits_cons km.isLt (fits_cons sat.toCode_lt fits_nil))))
theorem Sys2Proof.Laws.RoundTrip.vand (vd : VReg) (vs1 : VReg) (src : VSrc) (km : KReg) (sat : Sat) : Sys2Proof.Laws.RoundTrip.Statement (.vand vd vs1 src km sat) :=
  roundTrip_of rfl rfl (Nat.le_of_ble_eq_true rfl) (by decide) (fun h => by show ((VSrc.ofRaw (src.toRaw.1) (src.toRaw.2.1) (src.toRaw.2.2)).bind fun src => (Sat.ofCode (sat.toCode)).bind fun sat => some (Instr.vand (BitVec.ofNat 6 (vd.toNat)) (BitVec.ofNat 6 (vs1.toNat)) src (BitVec.ofNat 4 (km.toNat)) sat) : Option Instr) = _; simp)
    (fits_cons vd.isLt (fits_cons vs1.isLt (fits_cons src.toRaw_lt.1 (fits_cons km.isLt (fits_cons sat.toCode_lt (fits_cons src.toRaw_lt.2.1 (fits_cons src.toRaw_lt.2.2 fits_nil)))))))
theorem Sys2Proof.Laws.RoundTrip.vor (vd : VReg) (vs1 : VReg) (src : VSrc) (km : KReg) (sat : Sat) : Sys2Proof.Laws.RoundTrip.Statement (.vor vd vs1 src km sat) :=
  roundTrip_of rfl rfl (Nat.le_of_ble_eq_true rfl) (by decide) (fun h => by show ((VSrc.ofRaw (src.toRaw.1) (src.toRaw.2.1) (src.toRaw.2.2)).bind fun src => (Sat.ofCode (sat.toCode)).bind fun sat => some (Instr.vor (BitVec.ofNat 6 (vd.toNat)) (BitVec.ofNat 6 (vs1.toNat)) src (BitVec.ofNat 4 (km.toNat)) sat) : Option Instr) = _; simp)
    (fits_cons vd.isLt (fits_cons vs1.isLt (fits_cons src.toRaw_lt.1 (fits_cons km.isLt (fits_cons sat.toCode_lt (fits_cons src.toRaw_lt.2.1 (fits_cons src.toRaw_lt.2.2 fits_nil)))))))
theorem Sys2Proof.Laws.RoundTrip.vxor (vd : VReg) (vs1 : VReg) (src : VSrc) (km : KReg) (sat : Sat) : Sys2Proof.Laws.RoundTrip.Statement (.vxor vd vs1 src km sat) :=
  roundTrip_of rfl rfl (Nat.le_of_ble_eq_true rfl) (by decide) (fun h => by show ((VSrc.ofRaw (src.toRaw.1) (src.toRaw.2.1) (src.toRaw.2.2)).bind fun src => (Sat.ofCode (sat.toCode)).bind fun sat => some (Instr.vxor (BitVec.ofNat 6 (vd.toNat)) (BitVec.ofNat 6 (vs1.toNat)) src (BitVec.ofNat 4 (km.toNat)) sat) : Option Instr) = _; simp)
    (fits_cons vd.isLt (fits_cons vs1.isLt (fits_cons src.toRaw_lt.1 (fits_cons km.isLt (fits_cons sat.toCode_lt (fits_cons src.toRaw_lt.2.1 (fits_cons src.toRaw_lt.2.2 fits_nil)))))))
theorem Sys2Proof.Laws.RoundTrip.vandn (vd : VReg) (vs1 : VReg) (src : VSrc) (km : KReg) (sat : Sat) : Sys2Proof.Laws.RoundTrip.Statement (.vandn vd vs1 src km sat) :=
  roundTrip_of rfl rfl (Nat.le_of_ble_eq_true rfl) (by decide) (fun h => by show ((VSrc.ofRaw (src.toRaw.1) (src.toRaw.2.1) (src.toRaw.2.2)).bind fun src => (Sat.ofCode (sat.toCode)).bind fun sat => some (Instr.vandn (BitVec.ofNat 6 (vd.toNat)) (BitVec.ofNat 6 (vs1.toNat)) src (BitVec.ofNat 4 (km.toNat)) sat) : Option Instr) = _; simp)
    (fits_cons vd.isLt (fits_cons vs1.isLt (fits_cons src.toRaw_lt.1 (fits_cons km.isLt (fits_cons sat.toCode_lt (fits_cons src.toRaw_lt.2.1 (fits_cons src.toRaw_lt.2.2 fits_nil)))))))
theorem Sys2Proof.Laws.RoundTrip.vshl (vd : VReg) (vs1 : VReg) (src : VSrc) (km : KReg) (sat : Sat) : Sys2Proof.Laws.RoundTrip.Statement (.vshl vd vs1 src km sat) :=
  roundTrip_of rfl rfl (Nat.le_of_ble_eq_true rfl) (by decide) (fun h => by show ((VSrc.ofRaw (src.toRaw.1) (src.toRaw.2.1) (src.toRaw.2.2)).bind fun src => (Sat.ofCode (sat.toCode)).bind fun sat => some (Instr.vshl (BitVec.ofNat 6 (vd.toNat)) (BitVec.ofNat 6 (vs1.toNat)) src (BitVec.ofNat 4 (km.toNat)) sat) : Option Instr) = _; simp)
    (fits_cons vd.isLt (fits_cons vs1.isLt (fits_cons src.toRaw_lt.1 (fits_cons km.isLt (fits_cons sat.toCode_lt (fits_cons src.toRaw_lt.2.1 (fits_cons src.toRaw_lt.2.2 fits_nil)))))))
theorem Sys2Proof.Laws.RoundTrip.vshr (vd : VReg) (vs1 : VReg) (src : VSrc) (km : KReg) (sat : Sat) : Sys2Proof.Laws.RoundTrip.Statement (.vshr vd vs1 src km sat) :=
  roundTrip_of rfl rfl (Nat.le_of_ble_eq_true rfl) (by decide) (fun h => by show ((VSrc.ofRaw (src.toRaw.1) (src.toRaw.2.1) (src.toRaw.2.2)).bind fun src => (Sat.ofCode (sat.toCode)).bind fun sat => some (Instr.vshr (BitVec.ofNat 6 (vd.toNat)) (BitVec.ofNat 6 (vs1.toNat)) src (BitVec.ofNat 4 (km.toNat)) sat) : Option Instr) = _; simp)
    (fits_cons vd.isLt (fits_cons vs1.isLt (fits_cons src.toRaw_lt.1 (fits_cons km.isLt (fits_cons sat.toCode_lt (fits_cons src.toRaw_lt.2.1 (fits_cons src.toRaw_lt.2.2 fits_nil)))))))
theorem Sys2Proof.Laws.RoundTrip.vsha (vd : VReg) (vs1 : VReg) (src : VSrc) (km : KReg) (sat : Sat) : Sys2Proof.Laws.RoundTrip.Statement (.vsha vd vs1 src km sat) :=
  roundTrip_of rfl rfl (Nat.le_of_ble_eq_true rfl) (by decide) (fun h => by show ((VSrc.ofRaw (src.toRaw.1) (src.toRaw.2.1) (src.toRaw.2.2)).bind fun src => (Sat.ofCode (sat.toCode)).bind fun sat => some (Instr.vsha (BitVec.ofNat 6 (vd.toNat)) (BitVec.ofNat 6 (vs1.toNat)) src (BitVec.ofNat 4 (km.toNat)) sat) : Option Instr) = _; simp)
    (fits_cons vd.isLt (fits_cons vs1.isLt (fits_cons src.toRaw_lt.1 (fits_cons km.isLt (fits_cons sat.toCode_lt (fits_cons src.toRaw_lt.2.1 (fits_cons src.toRaw_lt.2.2 fits_nil)))))))
theorem Sys2Proof.Laws.RoundTrip.vcmp (kd : KReg) (vs1 : VReg) (src : VSrc) (km : KReg) (cond : Cond) : Sys2Proof.Laws.RoundTrip.Statement (.vcmp kd vs1 src km cond) :=
  roundTrip_of rfl rfl (Nat.le_of_ble_eq_true rfl) (by decide) (fun h => by show ((VSrc.ofRaw (src.toRaw.1) (src.toRaw.2.1) (src.toRaw.2.2)).bind fun src => (Cond.ofCode (cond.toCode)).bind fun cond => some (Instr.vcmp (BitVec.ofNat 4 (kd.toNat)) (BitVec.ofNat 6 (vs1.toNat)) src (BitVec.ofNat 4 (km.toNat)) cond) : Option Instr) = _; simp)
    (fits_cons kd.isLt (fits_cons vs1.isLt (fits_cons src.toRaw_lt.1 (fits_cons km.isLt (fits_cons cond.toCode_lt (fits_cons src.toRaw_lt.2.1 (fits_cons src.toRaw_lt.2.2 fits_nil)))))))
theorem Sys2Proof.Laws.RoundTrip.vsel (vd : VReg) (vs1 : VReg) (vs2 : VReg) (km : KReg) : Sys2Proof.Laws.RoundTrip.Statement (.vsel vd vs1 vs2 km) :=
  roundTrip_of rfl rfl (Nat.le_of_ble_eq_true rfl) (by decide) (fun h => by show (some (Instr.vsel (BitVec.ofNat 6 (vd.toNat)) (BitVec.ofNat 6 (vs1.toNat)) (BitVec.ofNat 6 (vs2.toNat)) (BitVec.ofNat 4 (km.toNat))) : Option Instr) = _; simp)
    (fits_cons vd.isLt (fits_cons vs1.isLt (fits_cons vs2.isLt (fits_cons km.isLt fits_nil))))
theorem Sys2Proof.Laws.RoundTrip.vfadd (vd : VReg) (vs1 : VReg) (vs2 : VReg) (km : KReg) : Sys2Proof.Laws.RoundTrip.Statement (.vfadd vd vs1 vs2 km) :=
  roundTrip_of rfl rfl (Nat.le_of_ble_eq_true rfl) (by decide) (fun h => by show (some (Instr.vfadd (BitVec.ofNat 6 (vd.toNat)) (BitVec.ofNat 6 (vs1.toNat)) (BitVec.ofNat 6 (vs2.toNat)) (BitVec.ofNat 4 (km.toNat))) : Option Instr) = _; simp)
    (fits_cons vd.isLt (fits_cons vs1.isLt (fits_cons vs2.isLt (fits_cons km.isLt fits_nil))))
theorem Sys2Proof.Laws.RoundTrip.vfsub (vd : VReg) (vs1 : VReg) (vs2 : VReg) (km : KReg) : Sys2Proof.Laws.RoundTrip.Statement (.vfsub vd vs1 vs2 km) :=
  roundTrip_of rfl rfl (Nat.le_of_ble_eq_true rfl) (by decide) (fun h => by show (some (Instr.vfsub (BitVec.ofNat 6 (vd.toNat)) (BitVec.ofNat 6 (vs1.toNat)) (BitVec.ofNat 6 (vs2.toNat)) (BitVec.ofNat 4 (km.toNat))) : Option Instr) = _; simp)
    (fits_cons vd.isLt (fits_cons vs1.isLt (fits_cons vs2.isLt (fits_cons km.isLt fits_nil))))
theorem Sys2Proof.Laws.RoundTrip.vfmul (vd : VReg) (vs1 : VReg) (vs2 : VReg) (km : KReg) : Sys2Proof.Laws.RoundTrip.Statement (.vfmul vd vs1 vs2 km) :=
  roundTrip_of rfl rfl (Nat.le_of_ble_eq_true rfl) (by decide) (fun h => by show (some (Instr.vfmul (BitVec.ofNat 6 (vd.toNat)) (BitVec.ofNat 6 (vs1.toNat)) (BitVec.ofNat 6 (vs2.toNat)) (BitVec.ofNat 4 (km.toNat))) : Option Instr) = _; simp)
    (fits_cons vd.isLt (fits_cons vs1.isLt (fits_cons vs2.isLt (fits_cons km.isLt fits_nil))))
theorem Sys2Proof.Laws.RoundTrip.vfma (vd : VReg) (vs1 : VReg) (vs2 : VReg) (vs3 : VReg) (km : KReg) : Sys2Proof.Laws.RoundTrip.Statement (.vfma vd vs1 vs2 vs3 km) :=
  roundTrip_of rfl rfl (Nat.le_of_ble_eq_true rfl) (by decide) (fun h => by show (some (Instr.vfma (BitVec.ofNat 6 (vd.toNat)) (BitVec.ofNat 6 (vs1.toNat)) (BitVec.ofNat 6 (vs2.toNat)) (BitVec.ofNat 6 (vs3.toNat)) (BitVec.ofNat 4 (km.toNat))) : Option Instr) = _; simp)
    (fits_cons vd.isLt (fits_cons vs1.isLt (fits_cons vs2.isLt (fits_cons vs3.isLt (fits_cons km.isLt fits_nil)))))
theorem Sys2Proof.Laws.RoundTrip.vfms (vd : VReg) (vs1 : VReg) (vs2 : VReg) (vs3 : VReg) (km : KReg) : Sys2Proof.Laws.RoundTrip.Statement (.vfms vd vs1 vs2 vs3 km) :=
  roundTrip_of rfl rfl (Nat.le_of_ble_eq_true rfl) (by decide) (fun h => by show (some (Instr.vfms (BitVec.ofNat 6 (vd.toNat)) (BitVec.ofNat 6 (vs1.toNat)) (BitVec.ofNat 6 (vs2.toNat)) (BitVec.ofNat 6 (vs3.toNat)) (BitVec.ofNat 4 (km.toNat))) : Option Instr) = _; simp)
    (fits_cons vd.isLt (fits_cons vs1.isLt (fits_cons vs2.isLt (fits_cons vs3.isLt (fits_cons km.isLt fits_nil)))))
theorem Sys2Proof.Laws.RoundTrip.vfmin (vd : VReg) (vs1 : VReg) (vs2 : VReg) (km : KReg) : Sys2Proof.Laws.RoundTrip.Statement (.vfmin vd vs1 vs2 km) :=
  roundTrip_of rfl rfl (Nat.le_of_ble_eq_true rfl) (by decide) (fun h => by show (some (Instr.vfmin (BitVec.ofNat 6 (vd.toNat)) (BitVec.ofNat 6 (vs1.toNat)) (BitVec.ofNat 6 (vs2.toNat)) (BitVec.ofNat 4 (km.toNat))) : Option Instr) = _; simp)
    (fits_cons vd.isLt (fits_cons vs1.isLt (fits_cons vs2.isLt (fits_cons km.isLt fits_nil))))
theorem Sys2Proof.Laws.RoundTrip.vfmax (vd : VReg) (vs1 : VReg) (vs2 : VReg) (km : KReg) : Sys2Proof.Laws.RoundTrip.Statement (.vfmax vd vs1 vs2 km) :=
  roundTrip_of rfl rfl (Nat.le_of_ble_eq_true rfl) (by decide) (fun h => by show (some (Instr.vfmax (BitVec.ofNat 6 (vd.toNat)) (BitVec.ofNat 6 (vs1.toNat)) (BitVec.ofNat 6 (vs2.toNat)) (BitVec.ofNat 4 (km.toNat))) : Option Instr) = _; simp)
    (fits_cons vd.isLt (fits_cons vs1.isLt (fits_cons vs2.isLt (fits_cons km.isLt fits_nil))))
theorem Sys2Proof.Laws.RoundTrip.vfabs (vd : VReg) (vs1 : VReg) (km : KReg) : Sys2Proof.Laws.RoundTrip.Statement (.vfabs vd vs1 km) :=
  roundTrip_of rfl rfl (Nat.le_of_ble_eq_true rfl) (by decide) (fun h => by show (some (Instr.vfabs (BitVec.ofNat 6 (vd.toNat)) (BitVec.ofNat 6 (vs1.toNat)) (BitVec.ofNat 4 (km.toNat))) : Option Instr) = _; simp)
    (fits_cons vd.isLt (fits_cons vs1.isLt (fits_cons km.isLt fits_nil)))
theorem Sys2Proof.Laws.RoundTrip.vfneg (vd : VReg) (vs1 : VReg) (km : KReg) : Sys2Proof.Laws.RoundTrip.Statement (.vfneg vd vs1 km) :=
  roundTrip_of rfl rfl (Nat.le_of_ble_eq_true rfl) (by decide) (fun h => by show (some (Instr.vfneg (BitVec.ofNat 6 (vd.toNat)) (BitVec.ofNat 6 (vs1.toNat)) (BitVec.ofNat 4 (km.toNat))) : Option Instr) = _; simp)
    (fits_cons vd.isLt (fits_cons vs1.isLt (fits_cons km.isLt fits_nil)))
theorem Sys2Proof.Laws.RoundTrip.vfcmp (kd : KReg) (vs1 : VReg) (vs2 : VReg) (km : KReg) (cond : FCond) : Sys2Proof.Laws.RoundTrip.Statement (.vfcmp kd vs1 vs2 km cond) :=
  roundTrip_of rfl rfl (Nat.le_of_ble_eq_true rfl) (by decide) (fun h => by show ((FCond.ofCode (cond.toCode)).bind fun cond => some (Instr.vfcmp (BitVec.ofNat 4 (kd.toNat)) (BitVec.ofNat 6 (vs1.toNat)) (BitVec.ofNat 6 (vs2.toNat)) (BitVec.ofNat 4 (km.toNat)) cond) : Option Instr) = _; simp)
    (fits_cons kd.isLt (fits_cons vs1.isLt (fits_cons vs2.isLt (fits_cons km.isLt (fits_cons (Nat.lt_trans cond.toCode_lt (by decide)) fits_nil)))))
theorem Sys2Proof.Laws.RoundTrip.vexp2 (vd : VReg) (vs1 : VReg) (km : KReg) : Sys2Proof.Laws.RoundTrip.Statement (.vexp2 vd vs1 km) :=
  roundTrip_of rfl rfl (Nat.le_of_ble_eq_true rfl) (by decide) (fun h => by show (some (Instr.vexp2 (BitVec.ofNat 6 (vd.toNat)) (BitVec.ofNat 6 (vs1.toNat)) (BitVec.ofNat 4 (km.toNat))) : Option Instr) = _; simp)
    (fits_cons vd.isLt (fits_cons vs1.isLt (fits_cons km.isLt fits_nil)))
theorem Sys2Proof.Laws.RoundTrip.vlog2 (vd : VReg) (vs1 : VReg) (km : KReg) : Sys2Proof.Laws.RoundTrip.Statement (.vlog2 vd vs1 km) :=
  roundTrip_of rfl rfl (Nat.le_of_ble_eq_true rfl) (by decide) (fun h => by show (some (Instr.vlog2 (BitVec.ofNat 6 (vd.toNat)) (BitVec.ofNat 6 (vs1.toNat)) (BitVec.ofNat 4 (km.toNat))) : Option Instr) = _; simp)
    (fits_cons vd.isLt (fits_cons vs1.isLt (fits_cons km.isLt fits_nil)))
theorem Sys2Proof.Laws.RoundTrip.vrcp (vd : VReg) (vs1 : VReg) (km : KReg) : Sys2Proof.Laws.RoundTrip.Statement (.vrcp vd vs1 km) :=
  roundTrip_of rfl rfl (Nat.le_of_ble_eq_true rfl) (by decide) (fun h => by show (some (Instr.vrcp (BitVec.ofNat 6 (vd.toNat)) (BitVec.ofNat 6 (vs1.toNat)) (BitVec.ofNat 4 (km.toNat))) : Option Instr) = _; simp)
    (fits_cons vd.isLt (fits_cons vs1.isLt (fits_cons km.isLt fits_nil)))
theorem Sys2Proof.Laws.RoundTrip.vrsq (vd : VReg) (vs1 : VReg) (km : KReg) : Sys2Proof.Laws.RoundTrip.Statement (.vrsq vd vs1 km) :=
  roundTrip_of rfl rfl (Nat.le_of_ble_eq_true rfl) (by decide) (fun h => by show (some (Instr.vrsq (BitVec.ofNat 6 (vd.toNat)) (BitVec.ofNat 6 (vs1.toNat)) (BitVec.ofNat 4 (km.toNat))) : Option Instr) = _; simp)
    (fits_cons vd.isLt (fits_cons vs1.isLt (fits_cons km.isLt fits_nil)))
theorem Sys2Proof.Laws.RoundTrip.vcvt (vd : VReg) (vs1 : VReg) (km : KReg) (src : CvtFmt) (tgt : CvtFmt) : Sys2Proof.Laws.RoundTrip.Statement (.vcvt vd vs1 km src tgt) :=
  roundTrip_of rfl rfl (Nat.le_of_ble_eq_true rfl) (by decide) (fun h => by show ((CvtFmt.ofRaw (src.toRaw.1) (src.toRaw.2)).bind fun src => (CvtFmt.ofRaw (tgt.toRaw.1) (tgt.toRaw.2)).bind fun tgt => some (Instr.vcvt (BitVec.ofNat 6 (vd.toNat)) (BitVec.ofNat 6 (vs1.toNat)) (BitVec.ofNat 4 (km.toNat)) src tgt) : Option Instr) = _; simp [Instr.wf] at h; simp [CvtFmt.ofRaw_toRaw, h])
    (fits_cons vd.isLt (fits_cons vs1.isLt (fits_cons km.isLt (fits_cons src.toRaw_lt.1 (fits_cons tgt.toRaw_lt.1 (fits_cons src.toRaw_lt.2 (fits_cons tgt.toRaw_lt.2 fits_nil)))))))
theorem Sys2Proof.Laws.RoundTrip.vcvts (vd : VReg) (vs1 : VReg) (vs2 : VReg) (km : KReg) (src : CvtFmt) (tgt : CvtFmt) : Sys2Proof.Laws.RoundTrip.Statement (.vcvts vd vs1 vs2 km src tgt) :=
  roundTrip_of rfl rfl (Nat.le_of_ble_eq_true rfl) (by decide) (fun h => by show ((CvtFmt.ofRaw (src.toRaw.1) (src.toRaw.2)).bind fun src => (CvtFmt.ofRaw (tgt.toRaw.1) (tgt.toRaw.2)).bind fun tgt => some (Instr.vcvts (BitVec.ofNat 6 (vd.toNat)) (BitVec.ofNat 6 (vs1.toNat)) (BitVec.ofNat 6 (vs2.toNat)) (BitVec.ofNat 4 (km.toNat)) src tgt) : Option Instr) = _; simp [Instr.wf] at h; simp [CvtFmt.ofRaw_toRaw, h])
    (fits_cons vd.isLt (fits_cons vs1.isLt (fits_cons vs2.isLt (fits_cons km.isLt (fits_cons src.toRaw_lt.1 (fits_cons tgt.toRaw_lt.1 (fits_cons src.toRaw_lt.2 (fits_cons tgt.toRaw_lt.2 fits_nil))))))))
theorem Sys2Proof.Laws.RoundTrip.vbfx (vd : VReg) (vs1 : VReg) (pos : BitPos) (len : BitVec 6) (sx : BitVec 1) (km : KReg) : Sys2Proof.Laws.RoundTrip.Statement (.vbfx vd vs1 pos len sx km) :=
  roundTrip_of rfl rfl (Nat.le_of_ble_eq_true rfl) (by decide) (fun h => by show ((BitPos.ofRaw (pos.toRaw.1) (pos.toRaw.2.1) (pos.toRaw.2.2)).bind fun pos => some (Instr.vbfx (BitVec.ofNat 6 (vd.toNat)) (BitVec.ofNat 6 (vs1.toNat)) pos (BitVec.ofNat 6 (len.toNat)) (BitVec.ofNat 1 (sx.toNat)) (BitVec.ofNat 4 (km.toNat))) : Option Instr) = _; simp)
    (fits_cons vd.isLt (fits_cons vs1.isLt (fits_cons pos.toRaw_lt.1 (fits_cons km.isLt (fits_cons pos.toRaw_lt.2.1 (fits_cons pos.toRaw_lt.2.2 (fits_cons len.isLt (fits_cons sx.isLt fits_nil))))))))
theorem Sys2Proof.Laws.RoundTrip.vbfi (vd : VReg) (vs1 : VReg) (pos : BitPos) (len : BitVec 6) (km : KReg) : Sys2Proof.Laws.RoundTrip.Statement (.vbfi vd vs1 pos len km) :=
  roundTrip_of rfl rfl (Nat.le_of_ble_eq_true rfl) (by decide) (fun h => by show ((BitPos.ofRaw (pos.toRaw.1) (pos.toRaw.2.1) (pos.toRaw.2.2)).bind fun pos => some (Instr.vbfi (BitVec.ofNat 6 (vd.toNat)) (BitVec.ofNat 6 (vs1.toNat)) pos (BitVec.ofNat 6 (len.toNat)) (BitVec.ofNat 4 (km.toNat))) : Option Instr) = _; simp)
    (fits_cons vd.isLt (fits_cons vs1.isLt (fits_cons pos.toRaw_lt.1 (fits_cons km.isLt (fits_cons pos.toRaw_lt.2.1 (fits_cons pos.toRaw_lt.2.2 (fits_cons len.isLt fits_nil)))))))
theorem Sys2Proof.Laws.RoundTrip.vfsh (vd : VReg) (vs1 : VReg) (vs2 : VReg) (amt : FunAmt) (km : KReg) : Sys2Proof.Laws.RoundTrip.Statement (.vfsh vd vs1 vs2 amt km) :=
  roundTrip_of rfl rfl (Nat.le_of_ble_eq_true rfl) (by decide) (fun h => by show ((FunAmt.ofRaw (amt.toRaw.1) (amt.toRaw.2.1) (amt.toRaw.2.2)).bind fun amt => some (Instr.vfsh (BitVec.ofNat 6 (vd.toNat)) (BitVec.ofNat 6 (vs1.toNat)) (BitVec.ofNat 6 (vs2.toNat)) amt (BitVec.ofNat 4 (km.toNat))) : Option Instr) = _; simp)
    (fits_cons vd.isLt (fits_cons vs1.isLt (fits_cons vs2.isLt (fits_cons amt.toRaw_lt.1 (fits_cons km.isLt (fits_cons amt.toRaw_lt.2.1 (fits_cons amt.toRaw_lt.2.2 fits_nil)))))))
theorem Sys2Proof.Laws.RoundTrip.vpopc (vd : VReg) (vs1 : VReg) (km : KReg) : Sys2Proof.Laws.RoundTrip.Statement (.vpopc vd vs1 km) :=
  roundTrip_of rfl rfl (Nat.le_of_ble_eq_true rfl) (by decide) (fun h => by show (some (Instr.vpopc (BitVec.ofNat 6 (vd.toNat)) (BitVec.ofNat 6 (vs1.toNat)) (BitVec.ofNat 4 (km.toNat))) : Option Instr) = _; simp)
    (fits_cons vd.isLt (fits_cons vs1.isLt (fits_cons km.isLt fits_nil)))
theorem Sys2Proof.Laws.RoundTrip.vclz (vd : VReg) (vs1 : VReg) (km : KReg) : Sys2Proof.Laws.RoundTrip.Statement (.vclz vd vs1 km) :=
  roundTrip_of rfl rfl (Nat.le_of_ble_eq_true rfl) (by decide) (fun h => by show (some (Instr.vclz (BitVec.ofNat 6 (vd.toNat)) (BitVec.ofNat 6 (vs1.toNat)) (BitVec.ofNat 4 (km.toNat))) : Option Instr) = _; simp)
    (fits_cons vd.isLt (fits_cons vs1.isLt (fits_cons km.isLt fits_nil)))
theorem Sys2Proof.Laws.RoundTrip.vperm (vd : VReg) (vs1 : VReg) (vs2 : VReg) (km : KReg) : Sys2Proof.Laws.RoundTrip.Statement (.vperm vd vs1 vs2 km) :=
  roundTrip_of rfl rfl (Nat.le_of_ble_eq_true rfl) (by decide) (fun h => by show (some (Instr.vperm (BitVec.ofNat 6 (vd.toNat)) (BitVec.ofNat 6 (vs1.toNat)) (BitVec.ofNat 6 (vs2.toNat)) (BitVec.ofNat 4 (km.toNat))) : Option Instr) = _; simp)
    (fits_cons vd.isLt (fits_cons vs1.isLt (fits_cons vs2.isLt (fits_cons km.isLt fits_nil))))
theorem Sys2Proof.Laws.RoundTrip.vbcast (vd : VReg) (src : BcastSrc) (km : KReg) : Sys2Proof.Laws.RoundTrip.Statement (.vbcast vd src km) :=
  roundTrip_of rfl rfl (Nat.le_of_ble_eq_true rfl) (by decide) (fun h => by show ((BcastSrc.ofRaw (src.toRaw.1) (src.toRaw.2.1) (src.toRaw.2.2)).bind fun src => some (Instr.vbcast (BitVec.ofNat 6 (vd.toNat)) src (BitVec.ofNat 4 (km.toNat))) : Option Instr) = _; simp)
    (fits_cons vd.isLt (fits_cons src.toRaw_lt.1 (fits_cons src.toRaw_lt.2.1 (fits_cons src.toRaw_lt.2.2 (fits_cons km.isLt fits_nil)))))
theorem Sys2Proof.Laws.RoundTrip.vslide (vd : VReg) (vs1 : VReg) (vs2 : VReg) (n : BitVec 6) (km : KReg) : Sys2Proof.Laws.RoundTrip.Statement (.vslide vd vs1 vs2 n km) :=
  roundTrip_of rfl rfl (Nat.le_of_ble_eq_true rfl) (by decide) (fun h => by show (some (Instr.vslide (BitVec.ofNat 6 (vd.toNat)) (BitVec.ofNat 6 (vs1.toNat)) (BitVec.ofNat 6 (vs2.toNat)) (BitVec.ofNat 6 (n.toNat)) (BitVec.ofNat 4 (km.toNat))) : Option Instr) = _; simp)
    (fits_cons vd.isLt (fits_cons vs1.isLt (fits_cons vs2.isLt (fits_cons n.isLt (fits_cons km.isLt fits_nil)))))
theorem Sys2Proof.Laws.RoundTrip.vlut (vd : VReg) (vs1 : VReg) (bank : BitVec 6) (row0 : BitVec 11) (sz : BitVec 4) (km : KReg) : Sys2Proof.Laws.RoundTrip.Statement (.vlut vd vs1 bank row0 sz km) :=
  roundTrip_of rfl rfl (Nat.le_of_ble_eq_true rfl) (by decide) (fun h => by show (some (Instr.vlut (BitVec.ofNat 6 (vd.toNat)) (BitVec.ofNat 6 (vs1.toNat)) (BitVec.ofNat 6 (bank.toNat)) (BitVec.ofNat 11 (row0.toNat)) (BitVec.ofNat 4 (sz.toNat)) (BitVec.ofNat 4 (km.toNat))) : Option Instr) = _; simp)
    (fits_cons vd.isLt (fits_cons vs1.isLt (fits_cons bank.isLt (fits_cons row0.isLt (fits_cons sz.isLt (fits_cons km.isLt fits_nil))))))
theorem Sys2Proof.Laws.RoundTrip.vcomp (vd : VReg) (vs1 : VReg) (km : KReg) : Sys2Proof.Laws.RoundTrip.Statement (.vcomp vd vs1 km) :=
  roundTrip_of rfl rfl (Nat.le_of_ble_eq_true rfl) (by decide) (fun h => by show (some (Instr.vcomp (BitVec.ofNat 6 (vd.toNat)) (BitVec.ofNat 6 (vs1.toNat)) (BitVec.ofNat 4 (km.toNat))) : Option Instr) = _; simp)
    (fits_cons vd.isLt (fits_cons vs1.isLt (fits_cons km.isLt fits_nil)))
theorem Sys2Proof.Laws.RoundTrip.vexpd (vd : VReg) (vs1 : VReg) (km : KReg) : Sys2Proof.Laws.RoundTrip.Statement (.vexpd vd vs1 km) :=
  roundTrip_of rfl rfl (Nat.le_of_ble_eq_true rfl) (by decide) (fun h => by show (some (Instr.vexpd (BitVec.ofNat 6 (vd.toNat)) (BitVec.ofNat 6 (vs1.toNat)) (BitVec.ofNat 4 (km.toNat))) : Option Instr) = _; simp)
    (fits_cons vd.isLt (fits_cons vs1.isLt (fits_cons km.isLt fits_nil)))
theorem Sys2Proof.Laws.RoundTrip.vradd (gd : GReg) (vs1 : VReg) (km : KReg) : Sys2Proof.Laws.RoundTrip.Statement (.vradd gd vs1 km) :=
  roundTrip_of rfl rfl (Nat.le_of_ble_eq_true rfl) (by decide) (fun h => by show (some (Instr.vradd (BitVec.ofNat 6 (gd.toNat)) (BitVec.ofNat 6 (vs1.toNat)) (BitVec.ofNat 4 (km.toNat))) : Option Instr) = _; simp)
    (fits_cons gd.isLt (fits_cons vs1.isLt (fits_cons km.isLt fits_nil)))
theorem Sys2Proof.Laws.RoundTrip.vrmax (gd : GReg) (vs1 : VReg) (km : KReg) : Sys2Proof.Laws.RoundTrip.Statement (.vrmax gd vs1 km) :=
  roundTrip_of rfl rfl (Nat.le_of_ble_eq_true rfl) (by decide) (fun h => by show (some (Instr.vrmax (BitVec.ofNat 6 (gd.toNat)) (BitVec.ofNat 6 (vs1.toNat)) (BitVec.ofNat 4 (km.toNat))) : Option Instr) = _; simp)
    (fits_cons gd.isLt (fits_cons vs1.isLt (fits_cons km.isLt fits_nil)))
theorem Sys2Proof.Laws.RoundTrip.vrmin (gd : GReg) (vs1 : VReg) (km : KReg) : Sys2Proof.Laws.RoundTrip.Statement (.vrmin gd vs1 km) :=
  roundTrip_of rfl rfl (Nat.le_of_ble_eq_true rfl) (by decide) (fun h => by show (some (Instr.vrmin (BitVec.ofNat 6 (gd.toNat)) (BitVec.ofNat 6 (vs1.toNat)) (BitVec.ofNat 4 (km.toNat))) : Option Instr) = _; simp)
    (fits_cons gd.isLt (fits_cons vs1.isLt (fits_cons km.isLt fits_nil)))
theorem Sys2Proof.Laws.RoundTrip.vrfadd (gd : GReg) (vs1 : VReg) (km : KReg) : Sys2Proof.Laws.RoundTrip.Statement (.vrfadd gd vs1 km) :=
  roundTrip_of rfl rfl (Nat.le_of_ble_eq_true rfl) (by decide) (fun h => by show (some (Instr.vrfadd (BitVec.ofNat 6 (gd.toNat)) (BitVec.ofNat 6 (vs1.toNat)) (BitVec.ofNat 4 (km.toNat))) : Option Instr) = _; simp)
    (fits_cons gd.isLt (fits_cons vs1.isLt (fits_cons km.isLt fits_nil)))
theorem Sys2Proof.Laws.RoundTrip.vrfmax (gd : GReg) (vs1 : VReg) (km : KReg) : Sys2Proof.Laws.RoundTrip.Statement (.vrfmax gd vs1 km) :=
  roundTrip_of rfl rfl (Nat.le_of_ble_eq_true rfl) (by decide) (fun h => by show (some (Instr.vrfmax (BitVec.ofNat 6 (gd.toNat)) (BitVec.ofNat 6 (vs1.toNat)) (BitVec.ofNat 4 (km.toNat))) : Option Instr) = _; simp)
    (fits_cons gd.isLt (fits_cons vs1.isLt (fits_cons km.isLt fits_nil)))
theorem Sys2Proof.Laws.RoundTrip.vmov (vd : VReg) (vs1 : VReg) (km : KReg) : Sys2Proof.Laws.RoundTrip.Statement (.vmov vd vs1 km) :=
  roundTrip_of rfl rfl (Nat.le_of_ble_eq_true rfl) (by decide) (fun h => by show (some (Instr.vmov (BitVec.ofNat 6 (vd.toNat)) (BitVec.ofNat 6 (vs1.toNat)) (BitVec.ofNat 4 (km.toNat))) : Option Instr) = _; simp)
    (fits_cons vd.isLt (fits_cons vs1.isLt (fits_cons km.isLt fits_nil)))
theorem Sys2Proof.Laws.RoundTrip.vmovi (vd : VReg) (imm : BitVec 32) (km : KReg) : Sys2Proof.Laws.RoundTrip.Statement (.vmovi vd imm km) :=
  roundTrip_of rfl rfl (Nat.le_of_ble_eq_true rfl) (by decide) (fun h => by show (some (Instr.vmovi (BitVec.ofNat 6 (vd.toNat)) (BitVec.ofNat 32 (imm.toNat)) (BitVec.ofNat 4 (km.toNat))) : Option Instr) = _; simp)
    (fits_cons vd.isLt (fits_cons imm.isLt (fits_cons km.isLt fits_nil)))
theorem Sys2Proof.Laws.RoundTrip.vins (vd : VReg) (gs : GReg) (lane : BitVec 6) : Sys2Proof.Laws.RoundTrip.Statement (.vins vd gs lane) :=
  roundTrip_of rfl rfl (Nat.le_of_ble_eq_true rfl) (by decide) (fun h => by show (some (Instr.vins (BitVec.ofNat 6 (vd.toNat)) (BitVec.ofNat 6 (gs.toNat)) (BitVec.ofNat 6 (lane.toNat))) : Option Instr) = _; simp)
    (fits_cons vd.isLt (fits_cons gs.isLt (fits_cons lane.isLt fits_nil)))
theorem Sys2Proof.Laws.RoundTrip.vext (gd : GReg) (vs1 : VReg) (lane : BitVec 6) (sx : BitVec 1) : Sys2Proof.Laws.RoundTrip.Statement (.vext gd vs1 lane sx) :=
  roundTrip_of rfl rfl (Nat.le_of_ble_eq_true rfl) (by decide) (fun h => by show (some (Instr.vext (BitVec.ofNat 6 (gd.toNat)) (BitVec.ofNat 6 (vs1.toNat)) (BitVec.ofNat 6 (lane.toNat)) (BitVec.ofNat 1 (sx.toNat))) : Option Instr) = _; simp)
    (fits_cons gd.isLt (fits_cons vs1.isLt (fits_cons lane.isLt (fits_cons sx.isLt fits_nil))))
theorem Sys2Proof.Laws.RoundTrip.kand (kd : KReg) (ks1 : KReg) (ks2 : KReg) : Sys2Proof.Laws.RoundTrip.Statement (.kand kd ks1 ks2) :=
  roundTrip_of rfl rfl (Nat.le_of_ble_eq_true rfl) (by decide) (fun h => by show (some (Instr.kand (BitVec.ofNat 4 (kd.toNat)) (BitVec.ofNat 4 (ks1.toNat)) (BitVec.ofNat 4 (ks2.toNat))) : Option Instr) = _; simp)
    (fits_cons kd.isLt (fits_cons ks1.isLt (fits_cons ks2.isLt fits_nil)))
theorem Sys2Proof.Laws.RoundTrip.kor (kd : KReg) (ks1 : KReg) (ks2 : KReg) : Sys2Proof.Laws.RoundTrip.Statement (.kor kd ks1 ks2) :=
  roundTrip_of rfl rfl (Nat.le_of_ble_eq_true rfl) (by decide) (fun h => by show (some (Instr.kor (BitVec.ofNat 4 (kd.toNat)) (BitVec.ofNat 4 (ks1.toNat)) (BitVec.ofNat 4 (ks2.toNat))) : Option Instr) = _; simp)
    (fits_cons kd.isLt (fits_cons ks1.isLt (fits_cons ks2.isLt fits_nil)))
theorem Sys2Proof.Laws.RoundTrip.kxor (kd : KReg) (ks1 : KReg) (ks2 : KReg) : Sys2Proof.Laws.RoundTrip.Statement (.kxor kd ks1 ks2) :=
  roundTrip_of rfl rfl (Nat.le_of_ble_eq_true rfl) (by decide) (fun h => by show (some (Instr.kxor (BitVec.ofNat 4 (kd.toNat)) (BitVec.ofNat 4 (ks1.toNat)) (BitVec.ofNat 4 (ks2.toNat))) : Option Instr) = _; simp)
    (fits_cons kd.isLt (fits_cons ks1.isLt (fits_cons ks2.isLt fits_nil)))
theorem Sys2Proof.Laws.RoundTrip.knot (kd : KReg) (ks1 : KReg) : Sys2Proof.Laws.RoundTrip.Statement (.knot kd ks1) :=
  roundTrip_of rfl rfl (Nat.le_of_ble_eq_true rfl) (by decide) (fun h => by show (some (Instr.knot (BitVec.ofNat 4 (kd.toNat)) (BitVec.ofNat 4 (ks1.toNat))) : Option Instr) = _; simp)
    (fits_cons kd.isLt (fits_cons ks1.isLt fits_nil))
theorem Sys2Proof.Laws.RoundTrip.kmov (form : KmovForm) : Sys2Proof.Laws.RoundTrip.Statement (.kmov form) :=
  roundTrip_of rfl rfl (Nat.le_of_ble_eq_true rfl) (by decide) (fun h => by show ((KmovForm.ofRaw (form.toRaw.1) (form.toRaw.2.1) (form.toRaw.2.2)).bind fun form => some (Instr.kmov form) : Option Instr) = _; simp)
    (fits_cons form.toRaw_lt.1 (fits_cons form.toRaw_lt.2.1 (fits_cons form.toRaw_lt.2.2 fits_nil)))
theorem Sys2Proof.Laws.RoundTrip.kpop (gd : GReg) (ks1 : KReg) : Sys2Proof.Laws.RoundTrip.Statement (.kpop gd ks1) :=
  roundTrip_of rfl rfl (Nat.le_of_ble_eq_true rfl) (by decide) (fun h => by show (some (Instr.kpop (BitVec.ofNat 6 (gd.toNat)) (BitVec.ofNat 4 (ks1.toNat))) : Option Instr) = _; simp)
    (fits_cons gd.isLt (fits_cons ks1.isLt fits_nil))
theorem Sys2Proof.Laws.RoundTrip.sseed (gen : BitVec 4) (gs : GReg) (kind : BitVec 1) : Sys2Proof.Laws.RoundTrip.Statement (.sseed gen gs kind) :=
  roundTrip_of rfl rfl (Nat.le_of_ble_eq_true rfl) (by decide) (fun h => by show (some (Instr.sseed (BitVec.ofNat 4 (gen.toNat)) (BitVec.ofNat 6 (gs.toNat)) (BitVec.ofNat 1 (kind.toNat))) : Option Instr) = _; simp)
    (fits_cons gen.isLt (fits_cons gs.isLt (fits_cons kind.isLt fits_nil)))
theorem Sys2Proof.Laws.RoundTrip.sgen (sd : SReg) (vs : VReg) (gen : BitVec 4) (bp : BitVec 1) : Sys2Proof.Laws.RoundTrip.Statement (.sgen sd vs gen bp) :=
  roundTrip_of rfl rfl (Nat.le_of_ble_eq_true rfl) (by decide) (fun h => by show (some (Instr.sgen (BitVec.ofNat 4 (sd.toNat)) (BitVec.ofNat 6 (vs.toNat)) (BitVec.ofNat 4 (gen.toNat)) (BitVec.ofNat 1 (bp.toNat))) : Option Instr) = _; simp)
    (fits_cons sd.isLt (fits_cons vs.isLt (fits_cons gen.isLt (fits_cons bp.isLt fits_nil))))
theorem Sys2Proof.Laws.RoundTrip.sand (sd : SReg) (sa : SReg) (sb : SReg) : Sys2Proof.Laws.RoundTrip.Statement (.sand sd sa sb) :=
  roundTrip_of rfl rfl (Nat.le_of_ble_eq_true rfl) (by decide) (fun h => by show (some (Instr.sand (BitVec.ofNat 4 (sd.toNat)) (BitVec.ofNat 4 (sa.toNat)) (BitVec.ofNat 4 (sb.toNat))) : Option Instr) = _; simp)
    (fits_cons sd.isLt (fits_cons sa.isLt (fits_cons sb.isLt fits_nil)))
theorem Sys2Proof.Laws.RoundTrip.sor (sd : SReg) (sa : SReg) (sb : SReg) : Sys2Proof.Laws.RoundTrip.Statement (.sor sd sa sb) :=
  roundTrip_of rfl rfl (Nat.le_of_ble_eq_true rfl) (by decide) (fun h => by show (some (Instr.sor (BitVec.ofNat 4 (sd.toNat)) (BitVec.ofNat 4 (sa.toNat)) (BitVec.ofNat 4 (sb.toNat))) : Option Instr) = _; simp)
    (fits_cons sd.isLt (fits_cons sa.isLt (fits_cons sb.isLt fits_nil)))
theorem Sys2Proof.Laws.RoundTrip.smin (sd : SReg) (sa : SReg) (sb : SReg) : Sys2Proof.Laws.RoundTrip.Statement (.smin sd sa sb) :=
  roundTrip_of rfl rfl (Nat.le_of_ble_eq_true rfl) (by decide) (fun h => by show (some (Instr.smin (BitVec.ofNat 4 (sd.toNat)) (BitVec.ofNat 4 (sa.toNat)) (BitVec.ofNat 4 (sb.toNat))) : Option Instr) = _; simp)
    (fits_cons sd.isLt (fits_cons sa.isLt (fits_cons sb.isLt fits_nil)))
theorem Sys2Proof.Laws.RoundTrip.smax (sd : SReg) (sa : SReg) (sb : SReg) : Sys2Proof.Laws.RoundTrip.Statement (.smax sd sa sb) :=
  roundTrip_of rfl rfl (Nat.le_of_ble_eq_true rfl) (by decide) (fun h => by show (some (Instr.smax (BitVec.ofNat 4 (sd.toNat)) (BitVec.ofNat 4 (sa.toNat)) (BitVec.ofNat 4 (sb.toNat))) : Option Instr) = _; simp)
    (fits_cons sd.isLt (fits_cons sa.isLt (fits_cons sb.isLt fits_nil)))
theorem Sys2Proof.Laws.RoundTrip.sxnor (sd : SReg) (sa : SReg) (sb : SReg) : Sys2Proof.Laws.RoundTrip.Statement (.sxnor sd sa sb) :=
  roundTrip_of rfl rfl (Nat.le_of_ble_eq_true rfl) (by decide) (fun h => by show (some (Instr.sxnor (BitVec.ofNat 4 (sd.toNat)) (BitVec.ofNat 4 (sa.toNat)) (BitVec.ofNat 4 (sb.toNat))) : Option Instr) = _; simp)
    (fits_cons sd.isLt (fits_cons sa.isLt (fits_cons sb.isLt fits_nil)))
theorem Sys2Proof.Laws.RoundTrip.smux (sd : SReg) (sa : SReg) (sb : SReg) (ssel : SReg) : Sys2Proof.Laws.RoundTrip.Statement (.smux sd sa sb ssel) :=
  roundTrip_of rfl rfl (Nat.le_of_ble_eq_true rfl) (by decide) (fun h => by show (some (Instr.smux (BitVec.ofNat 4 (sd.toNat)) (BitVec.ofNat 4 (sa.toNat)) (BitVec.ofNat 4 (sb.toNat)) (BitVec.ofNat 4 (ssel.toNat))) : Option Instr) = _; simp)
    (fits_cons sd.isLt (fits_cons sa.isLt (fits_cons sb.isLt (fits_cons ssel.isLt fits_nil))))
theorem Sys2Proof.Laws.RoundTrip.scnt (vd : VReg) (ss : SReg) (mode : ScntMode) (km : KReg) : Sys2Proof.Laws.RoundTrip.Statement (.scnt vd ss mode km) :=
  roundTrip_of rfl rfl (Nat.le_of_ble_eq_true rfl) (by decide) (fun h => by show ((ScntMode.ofCode (mode.toCode)).bind fun mode => some (Instr.scnt (BitVec.ofNat 6 (vd.toNat)) (BitVec.ofNat 4 (ss.toNat)) mode (BitVec.ofNat 4 (km.toNat))) : Option Instr) = _; simp)
    (fits_cons vd.isLt (fits_cons ss.isLt (fits_cons mode.toCode_lt (fits_cons km.isLt fits_nil))))
theorem Sys2Proof.Laws.RoundTrip.sregen (sd : SReg) (ss : SReg) (gen : BitVec 4) : Sys2Proof.Laws.RoundTrip.Statement (.sregen sd ss gen) :=
  roundTrip_of rfl rfl (Nat.le_of_ble_eq_true rfl) (by decide) (fun h => by show (some (Instr.sregen (BitVec.ofNat 4 (sd.toNat)) (BitVec.ofNat 4 (ss.toNat)) (BitVec.ofNat 4 (gen.toNat))) : Option Instr) = _; simp)
    (fits_cons sd.isLt (fits_cons ss.isLt (fits_cons gen.isLt fits_nil)))
theorem Sys2Proof.Laws.RoundTrip.sdly (sd : SReg) (ss : SReg) (n : BitVec 10) : Sys2Proof.Laws.RoundTrip.Statement (.sdly sd ss n) :=
  roundTrip_of rfl rfl (Nat.le_of_ble_eq_true rfl) (by decide) (fun h => by show (some (Instr.sdly (BitVec.ofNat 4 (sd.toNat)) (BitVec.ofNat 4 (ss.toNat)) (BitVec.ofNat 10 (n.toNat))) : Option Instr) = _; simp)
    (fits_cons sd.isLt (fits_cons ss.isLt (fits_cons n.isLt fits_nil)))
theorem Sys2Proof.Laws.RoundTrip.scls (gd : GReg) (ss : SReg) : Sys2Proof.Laws.RoundTrip.Statement (.scls gd ss) :=
  roundTrip_of rfl rfl (Nat.le_of_ble_eq_true rfl) (by decide) (fun h => by show (some (Instr.scls (BitVec.ofNat 6 (gd.toNat)) (BitVec.ofNat 4 (ss.toNat))) : Option Instr) = _; simp)
    (fits_cons gd.isLt (fits_cons ss.isLt fits_nil))
theorem Sys2Proof.Laws.RoundTrip.mzero (ct : CReg) : Sys2Proof.Laws.RoundTrip.Statement (.mzero ct) :=
  roundTrip_of rfl rfl (Nat.le_of_ble_eq_true rfl) (by decide) (fun h => by show (some (Instr.mzero (BitVec.ofNat 2 (ct.toNat))) : Option Instr) = _; simp)
    (fits_cons ct.isLt fits_nil)
theorem Sys2Proof.Laws.RoundTrip.mldw (ws : CReg) (ad : AReg) (imm : BitVec 32) (gk : GReg) (mode : MldwMode) : Sys2Proof.Laws.RoundTrip.Statement (.mldw ws ad imm gk mode) :=
  roundTrip_of rfl rfl (Nat.le_of_ble_eq_true rfl) (by decide) (fun h => by show ((MldwMode.ofCode (mode.toCode)).bind fun mode => some (Instr.mldw (BitVec.ofNat 2 (ws.toNat)) (BitVec.ofNat 4 (ad.toNat)) (BitVec.ofNat 32 (imm.toNat)) (BitVec.ofNat 6 (gk.toNat)) mode) : Option Instr) = _; simp)
    (fits_cons ws.isLt (fits_cons ad.isLt (fits_cons imm.isLt (fits_cons gk.isLt (fits_cons mode.toCode_lt fits_nil)))))
theorem Sys2Proof.Laws.RoundTrip.mma (ct : CReg) (pos : SpPos) (ws : CReg) (fa : BitVec 5) (kr : BitVec 1) : Sys2Proof.Laws.RoundTrip.Statement (.mma ct pos ws fa kr) :=
  roundTrip_of rfl rfl (Nat.le_of_ble_eq_true rfl) (by decide) (fun h => by show ((SpPos.ofRaw (pos.toRaw)).bind fun pos => some (Instr.mma (BitVec.ofNat 2 (ct.toNat)) pos (BitVec.ofNat 2 (ws.toNat)) (BitVec.ofNat 5 (fa.toNat)) (BitVec.ofNat 1 (kr.toNat))) : Option Instr) = _; simp)
    (fits_cons ct.isLt (fits_cons pos.toRaw_lt (fits_cons ws.isLt (fits_cons fa.isLt (fits_cons kr.isLt fits_nil)))))
theorem Sys2Proof.Laws.RoundTrip.mmat (ct : CReg) (pos : SpPos) (ws : CReg) (fa : BitVec 5) (kr : BitVec 1) : Sys2Proof.Laws.RoundTrip.Statement (.mmat ct pos ws fa kr) :=
  roundTrip_of rfl rfl (Nat.le_of_ble_eq_true rfl) (by decide) (fun h => by show ((SpPos.ofRaw (pos.toRaw)).bind fun pos => some (Instr.mmat (BitVec.ofNat 2 (ct.toNat)) pos (BitVec.ofNat 2 (ws.toNat)) (BitVec.ofNat 5 (fa.toNat)) (BitVec.ofNat 1 (kr.toNat))) : Option Instr) = _; simp)
    (fits_cons ct.isLt (fits_cons pos.toRaw_lt (fits_cons ws.isLt (fits_cons fa.isLt (fits_cons kr.isLt fits_nil)))))
theorem Sys2Proof.Laws.RoundTrip.mdrain (ct : CReg) (tgt : DrainTgt) (zc : BitVec 1) : Sys2Proof.Laws.RoundTrip.Statement (.mdrain ct tgt zc) :=
  roundTrip_of rfl rfl (Nat.le_of_ble_eq_true rfl) (by decide) (fun h => by show ((DrainTgt.ofRaw (tgt.toRaw)).bind fun tgt => some (Instr.mdrain (BitVec.ofNat 2 (ct.toNat)) tgt (BitVec.ofNat 1 (zc.toNat))) : Option Instr) = _; simp)
    (fits_cons ct.isLt (fits_cons tgt.toRaw_lt (fits_cons (by decide) (fits_cons zc.isLt (fits_cons (by decide) fits_nil)))))
theorem Sys2Proof.Laws.RoundTrip.mdraina (ct : CReg) (tgt : DrainTgt) (gc : GReg) (zc : BitVec 1) (cl : BitVec 1) : Sys2Proof.Laws.RoundTrip.Statement (.mdraina ct tgt gc zc cl) :=
  roundTrip_of rfl rfl (Nat.le_of_ble_eq_true rfl) (by decide) (fun h => by show ((DrainTgt.ofRaw (tgt.toRaw)).bind fun tgt => some (Instr.mdraina (BitVec.ofNat 2 (ct.toNat)) tgt (BitVec.ofNat 6 (gc.toNat)) (BitVec.ofNat 1 (zc.toNat)) (BitVec.ofNat 1 (cl.toNat))) : Option Instr) = _; simp)
    (fits_cons ct.isLt (fits_cons tgt.toRaw_lt (fits_cons gc.isLt (fits_cons zc.isLt (fits_cons cl.isLt fits_nil)))))
theorem Sys2Proof.Laws.RoundTrip.mgemm (bank : BitVec 6) (row : BitVec 11) : Sys2Proof.Laws.RoundTrip.Statement (.mgemm bank row) :=
  roundTrip_of rfl rfl (Nat.le_of_ble_eq_true rfl) (by decide) (fun h => by show (some (Instr.mgemm (BitVec.ofNat 6 (bank.toNat)) (BitVec.ofNat 11 (row.toNat))) : Option Instr) = _; simp)
    (fits_cons bank.isLt (fits_cons row.isLt fits_nil))
theorem Sys2Proof.Laws.RoundTrip.mattn (bank : BitVec 6) (row : BitVec 11) : Sys2Proof.Laws.RoundTrip.Statement (.mattn bank row) :=
  roundTrip_of rfl rfl (Nat.le_of_ble_eq_true rfl) (by decide) (fun h => by show (some (Instr.mattn (BitVec.ofNat 6 (bank.toNat)) (BitVec.ofNat 11 (row.toNat))) : Option Instr) = _; simp)
    (fits_cons bank.isLt (fits_cons row.isLt fits_nil))
theorem Sys2Proof.Laws.RoundTrip.mstep : Sys2Proof.Laws.RoundTrip.Statement (.mstep) :=
  roundTrip_of rfl rfl (Nat.le_of_ble_eq_true rfl) (by decide) (fun _ => rfl)
    fits_nil
theorem Sys2Proof.Laws.RoundTrip.mcancel : Sys2Proof.Laws.RoundTrip.Statement (.mcancel) :=
  roundTrip_of rfl rfl (Nat.le_of_ble_eq_true rfl) (by decide) (fun _ => rfl)
    fits_nil
theorem Sys2Proof.Laws.RoundTrip.mbias (ct : CReg) (bank : BitVec 6) (row : BitVec 11) : Sys2Proof.Laws.RoundTrip.Statement (.mbias ct bank row) :=
  roundTrip_of rfl rfl (Nat.le_of_ble_eq_true rfl) (by decide) (fun h => by show (some (Instr.mbias (BitVec.ofNat 2 (ct.toNat)) (BitVec.ofNat 6 (bank.toNat)) (BitVec.ofNat 11 (row.toNat))) : Option Instr) = _; simp)
    (fits_cons ct.isLt (fits_cons bank.isLt (fits_cons row.isLt fits_nil)))
theorem Sys2Proof.Laws.RoundTrip.mscale (ct : CReg) (bank : BitVec 6) (row : BitVec 11) : Sys2Proof.Laws.RoundTrip.Statement (.mscale ct bank row) :=
  roundTrip_of rfl rfl (Nat.le_of_ble_eq_true rfl) (by decide) (fun h => by show (some (Instr.mscale (BitVec.ofNat 2 (ct.toNat)) (BitVec.ofNat 6 (bank.toNat)) (BitVec.ofNat 11 (row.toNat))) : Option Instr) = _; simp)
    (fits_cons ct.isLt (fits_cons bank.isLt (fits_cons row.isLt fits_nil)))
theorem Sys2Proof.Laws.RoundTrip.ld (gd : GReg) (ad : AReg) (sz : BitVec 2) (sx : BitVec 1) (imm : BitVec 35) : Sys2Proof.Laws.RoundTrip.Statement (.ld gd ad sz sx imm) :=
  roundTrip_of rfl rfl (Nat.le_of_ble_eq_true rfl) (by decide) (fun h => by show (some (Instr.ld (BitVec.ofNat 6 (gd.toNat)) (BitVec.ofNat 4 (ad.toNat)) (BitVec.ofNat 2 (sz.toNat)) (BitVec.ofNat 1 (sx.toNat)) (BitVec.ofNat 35 (imm.toNat))) : Option Instr) = _; simp)
    (fits_cons gd.isLt (fits_cons ad.isLt (fits_cons sz.isLt (fits_cons sx.isLt (fits_cons imm.isLt fits_nil)))))
theorem Sys2Proof.Laws.RoundTrip.ldv (vd : VReg) (ad : AReg) (km : KReg) (imm : BitVec 34) : Sys2Proof.Laws.RoundTrip.Statement (.ldv vd ad km imm) :=
  roundTrip_of rfl rfl (Nat.le_of_ble_eq_true rfl) (by decide) (fun h => by show (some (Instr.ldv (BitVec.ofNat 6 (vd.toNat)) (BitVec.ofNat 4 (ad.toNat)) (BitVec.ofNat 4 (km.toNat)) (BitVec.ofNat 34 (imm.toNat))) : Option Instr) = _; simp)
    (fits_cons vd.isLt (fits_cons ad.isLt (fits_cons km.isLt (fits_cons imm.isLt fits_nil))))
theorem Sys2Proof.Laws.RoundTrip.lds (form : LdsForm) (pos : SpPos) (ma : BitVec 1) : Sys2Proof.Laws.RoundTrip.Statement (.lds form pos ma) :=
  roundTrip_of rfl rfl (Nat.le_of_ble_eq_true rfl) (by decide) (fun h => by show ((LdsForm.ofRaw (form.toRaw.1) (form.toRaw.2.1) (form.toRaw.2.2.1) (form.toRaw.2.2.2.1) (form.toRaw.2.2.2.2.1) (form.toRaw.2.2.2.2.2)).bind fun form => (SpPos.ofRaw (pos.toRaw)).bind fun pos => some (Instr.lds form pos (BitVec.ofNat 1 (ma.toNat))) : Option Instr) = _; simp)
    (fits_cons form.toRaw_lt.1 (fits_cons form.toRaw_lt.2.1 (fits_cons pos.toRaw_lt (fits_cons form.toRaw_lt.2.2.1 (fits_cons form.toRaw_lt.2.2.2.1 (fits_cons form.toRaw_lt.2.2.2.2.1 (fits_cons form.toRaw_lt.2.2.2.2.2 (fits_cons ma.isLt fits_nil))))))))
theorem Sys2Proof.Laws.RoundTrip.ldsg (vd : VReg) (bank : BitVec 6) (row0 : BitVec 11) (vs : VReg) (km : KReg) (ma : BitVec 1) : Sys2Proof.Laws.RoundTrip.Statement (.ldsg vd bank row0 vs km ma) :=
  roundTrip_of rfl rfl (Nat.le_of_ble_eq_true rfl) (by decide) (fun h => by show (some (Instr.ldsg (BitVec.ofNat 6 (vd.toNat)) (BitVec.ofNat 6 (bank.toNat)) (BitVec.ofNat 11 (row0.toNat)) (BitVec.ofNat 6 (vs.toNat)) (BitVec.ofNat 4 (km.toNat)) (BitVec.ofNat 1 (ma.toNat))) : Option Instr) = _; simp)
    (fits_cons vd.isLt (fits_cons bank.isLt (fits_cons row0.isLt (fits_cons vs.isLt (fits_cons km.isLt (fits_cons ma.isLt fits_nil))))))
theorem Sys2Proof.Laws.RoundTrip.ldg (vd : VReg) (ad : AReg) (vs : VReg) (km : KReg) : Sys2Proof.Laws.RoundTrip.Statement (.ldg vd ad vs km) :=
  roundTrip_of rfl rfl (Nat.le_of_ble_eq_true rfl) (by decide) (fun h => by show (some (Instr.ldg (BitVec.ofNat 6 (vd.toNat)) (BitVec.ofNat 4 (ad.toNat)) (BitVec.ofNat 6 (vs.toNat)) (BitVec.ofNat 4 (km.toNat))) : Option Instr) = _; simp)
    (fits_cons vd.isLt (fits_cons ad.isLt (fits_cons vs.isLt (fits_cons km.isLt fits_nil))))
theorem Sys2Proof.Laws.RoundTrip.atadd (gd : GReg) (ad : AReg) (gs1 : GReg) (sz : BitVec 3) (imm : BitVec 23) : Sys2Proof.Laws.RoundTrip.Statement (.atadd gd ad gs1 sz imm) :=
  roundTrip_of rfl rfl (Nat.le_of_ble_eq_true rfl) (by decide) (fun h => by show (some (Instr.atadd (BitVec.ofNat 6 (gd.toNat)) (BitVec.ofNat 4 (ad.toNat)) (BitVec.ofNat 6 (gs1.toNat)) (BitVec.ofNat 3 (sz.toNat)) (BitVec.ofNat 23 (imm.toNat))) : Option Instr) = _; simp)
    (fits_cons gd.isLt (fits_cons ad.isLt (fits_cons gs1.isLt (fits_cons (by decide) (fits_cons sz.isLt (fits_cons imm.isLt fits_nil))))))
theorem Sys2Proof.Laws.RoundTrip.atand (gd : GReg) (ad : AReg) (gs1 : GReg) (sz : BitVec 3) (imm : BitVec 23) : Sys2Proof.Laws.RoundTrip.Statement (.atand gd ad gs1 sz imm) :=
  roundTrip_of rfl rfl (Nat.le_of_ble_eq_true rfl) (by decide) (fun h => by show (some (Instr.atand (BitVec.ofNat 6 (gd.toNat)) (BitVec.ofNat 4 (ad.toNat)) (BitVec.ofNat 6 (gs1.toNat)) (BitVec.ofNat 3 (sz.toNat)) (BitVec.ofNat 23 (imm.toNat))) : Option Instr) = _; simp)
    (fits_cons gd.isLt (fits_cons ad.isLt (fits_cons gs1.isLt (fits_cons (by decide) (fits_cons sz.isLt (fits_cons imm.isLt fits_nil))))))
theorem Sys2Proof.Laws.RoundTrip.ator (gd : GReg) (ad : AReg) (gs1 : GReg) (sz : BitVec 3) (imm : BitVec 23) : Sys2Proof.Laws.RoundTrip.Statement (.ator gd ad gs1 sz imm) :=
  roundTrip_of rfl rfl (Nat.le_of_ble_eq_true rfl) (by decide) (fun h => by show (some (Instr.ator (BitVec.ofNat 6 (gd.toNat)) (BitVec.ofNat 4 (ad.toNat)) (BitVec.ofNat 6 (gs1.toNat)) (BitVec.ofNat 3 (sz.toNat)) (BitVec.ofNat 23 (imm.toNat))) : Option Instr) = _; simp)
    (fits_cons gd.isLt (fits_cons ad.isLt (fits_cons gs1.isLt (fits_cons (by decide) (fits_cons sz.isLt (fits_cons imm.isLt fits_nil))))))
theorem Sys2Proof.Laws.RoundTrip.atxor (gd : GReg) (ad : AReg) (gs1 : GReg) (sz : BitVec 3) (imm : BitVec 23) : Sys2Proof.Laws.RoundTrip.Statement (.atxor gd ad gs1 sz imm) :=
  roundTrip_of rfl rfl (Nat.le_of_ble_eq_true rfl) (by decide) (fun h => by show (some (Instr.atxor (BitVec.ofNat 6 (gd.toNat)) (BitVec.ofNat 4 (ad.toNat)) (BitVec.ofNat 6 (gs1.toNat)) (BitVec.ofNat 3 (sz.toNat)) (BitVec.ofNat 23 (imm.toNat))) : Option Instr) = _; simp)
    (fits_cons gd.isLt (fits_cons ad.isLt (fits_cons gs1.isLt (fits_cons (by decide) (fits_cons sz.isLt (fits_cons imm.isLt fits_nil))))))
theorem Sys2Proof.Laws.RoundTrip.atmin (gd : GReg) (ad : AReg) (gs1 : GReg) (sz : BitVec 3) (imm : BitVec 23) : Sys2Proof.Laws.RoundTrip.Statement (.atmin gd ad gs1 sz imm) :=
  roundTrip_of rfl rfl (Nat.le_of_ble_eq_true rfl) (by decide) (fun h => by show (some (Instr.atmin (BitVec.ofNat 6 (gd.toNat)) (BitVec.ofNat 4 (ad.toNat)) (BitVec.ofNat 6 (gs1.toNat)) (BitVec.ofNat 3 (sz.toNat)) (BitVec.ofNat 23 (imm.toNat))) : Option Instr) = _; simp)
    (fits_cons gd.isLt (fits_cons ad.isLt (fits_cons gs1.isLt (fits_cons (by decide) (fits_cons sz.isLt (fits_cons imm.isLt fits_nil))))))
theorem Sys2Proof.Laws.RoundTrip.atmax (gd : GReg) (ad : AReg) (gs1 : GReg) (sz : BitVec 3) (imm : BitVec 23) : Sys2Proof.Laws.RoundTrip.Statement (.atmax gd ad gs1 sz imm) :=
  roundTrip_of rfl rfl (Nat.le_of_ble_eq_true rfl) (by decide) (fun h => by show (some (Instr.atmax (BitVec.ofNat 6 (gd.toNat)) (BitVec.ofNat 4 (ad.toNat)) (BitVec.ofNat 6 (gs1.toNat)) (BitVec.ofNat 3 (sz.toNat)) (BitVec.ofNat 23 (imm.toNat))) : Option Instr) = _; simp)
    (fits_cons gd.isLt (fits_cons ad.isLt (fits_cons gs1.isLt (fits_cons (by decide) (fits_cons sz.isLt (fits_cons imm.isLt fits_nil))))))
theorem Sys2Proof.Laws.RoundTrip.atminn (gd : GReg) (ad : AReg) (gs1 : GReg) (sz : BitVec 3) (imm : BitVec 23) : Sys2Proof.Laws.RoundTrip.Statement (.atminn gd ad gs1 sz imm) :=
  roundTrip_of rfl rfl (Nat.le_of_ble_eq_true rfl) (by decide) (fun h => by show (some (Instr.atminn (BitVec.ofNat 6 (gd.toNat)) (BitVec.ofNat 4 (ad.toNat)) (BitVec.ofNat 6 (gs1.toNat)) (BitVec.ofNat 3 (sz.toNat)) (BitVec.ofNat 23 (imm.toNat))) : Option Instr) = _; simp)
    (fits_cons gd.isLt (fits_cons ad.isLt (fits_cons gs1.isLt (fits_cons (by decide) (fits_cons sz.isLt (fits_cons imm.isLt fits_nil))))))
theorem Sys2Proof.Laws.RoundTrip.atmaxn (gd : GReg) (ad : AReg) (gs1 : GReg) (sz : BitVec 3) (imm : BitVec 23) : Sys2Proof.Laws.RoundTrip.Statement (.atmaxn gd ad gs1 sz imm) :=
  roundTrip_of rfl rfl (Nat.le_of_ble_eq_true rfl) (by decide) (fun h => by show (some (Instr.atmaxn (BitVec.ofNat 6 (gd.toNat)) (BitVec.ofNat 4 (ad.toNat)) (BitVec.ofNat 6 (gs1.toNat)) (BitVec.ofNat 3 (sz.toNat)) (BitVec.ofNat 23 (imm.toNat))) : Option Instr) = _; simp)
    (fits_cons gd.isLt (fits_cons ad.isLt (fits_cons gs1.isLt (fits_cons (by decide) (fits_cons sz.isLt (fits_cons imm.isLt fits_nil))))))
theorem Sys2Proof.Laws.RoundTrip.atswp (gd : GReg) (ad : AReg) (gs1 : GReg) (sz : BitVec 3) (imm : BitVec 23) : Sys2Proof.Laws.RoundTrip.Statement (.atswp gd ad gs1 sz imm) :=
  roundTrip_of rfl rfl (Nat.le_of_ble_eq_true rfl) (by decide) (fun h => by show (some (Instr.atswp (BitVec.ofNat 6 (gd.toNat)) (BitVec.ofNat 4 (ad.toNat)) (BitVec.ofNat 6 (gs1.toNat)) (BitVec.ofNat 3 (sz.toNat)) (BitVec.ofNat 23 (imm.toNat))) : Option Instr) = _; simp)
    (fits_cons gd.isLt (fits_cons ad.isLt (fits_cons gs1.isLt (fits_cons (by decide) (fits_cons sz.isLt (fits_cons imm.isLt fits_nil))))))
theorem Sys2Proof.Laws.RoundTrip.atcas (gd : GReg) (ad : AReg) (gs1 : GReg) (gs2 : GReg) (sz : BitVec 3) (imm : BitVec 23) : Sys2Proof.Laws.RoundTrip.Statement (.atcas gd ad gs1 gs2 sz imm) :=
  roundTrip_of rfl rfl (Nat.le_of_ble_eq_true rfl) (by decide) (fun h => by show (some (Instr.atcas (BitVec.ofNat 6 (gd.toNat)) (BitVec.ofNat 4 (ad.toNat)) (BitVec.ofNat 6 (gs1.toNat)) (BitVec.ofNat 6 (gs2.toNat)) (BitVec.ofNat 3 (sz.toNat)) (BitVec.ofNat 23 (imm.toNat))) : Option Instr) = _; simp)
    (fits_cons gd.isLt (fits_cons ad.isLt (fits_cons gs1.isLt (fits_cons gs2.isLt (fits_cons sz.isLt (fits_cons imm.isLt fits_nil))))))
theorem Sys2Proof.Laws.RoundTrip.atfadd (gd : GReg) (ad : AReg) (gs1 : GReg) (sz : BitVec 3) (imm : BitVec 23) : Sys2Proof.Laws.RoundTrip.Statement (.atfadd gd ad gs1 sz imm) :=
  roundTrip_of rfl rfl (Nat.le_of_ble_eq_true rfl) (by decide) (fun h => by show (some (Instr.atfadd (BitVec.ofNat 6 (gd.toNat)) (BitVec.ofNat 4 (ad.toNat)) (BitVec.ofNat 6 (gs1.toNat)) (BitVec.ofNat 3 (sz.toNat)) (BitVec.ofNat 23 (imm.toNat))) : Option Instr) = _; simp)
    (fits_cons gd.isLt (fits_cons ad.isLt (fits_cons gs1.isLt (fits_cons (by decide) (fits_cons sz.isLt (fits_cons imm.isLt fits_nil))))))
theorem Sys2Proof.Laws.RoundTrip.marm (mon : BitVec 12) (ad : AReg) (imm : BitVec 32) : Sys2Proof.Laws.RoundTrip.Statement (.marm mon ad imm) :=
  roundTrip_of rfl rfl (Nat.le_of_ble_eq_true rfl) (by decide) (fun h => by show (some (Instr.marm (BitVec.ofNat 12 (mon.toNat)) (BitVec.ofNat 4 (ad.toNat)) (BitVec.ofNat 32 (imm.toNat))) : Option Instr) = _; simp)
    (fits_cons mon.isLt (fits_cons ad.isLt (fits_cons imm.isLt fits_nil)))
theorem Sys2Proof.Laws.RoundTrip.st (gs : GReg) (ad : AReg) (sz : BitVec 2) (imm : BitVec 22) : Sys2Proof.Laws.RoundTrip.Statement (.st gs ad sz imm) :=
  roundTrip_of rfl rfl (Nat.le_of_ble_eq_true rfl) (by decide) (fun h => by show (some (Instr.st (BitVec.ofNat 6 (gs.toNat)) (BitVec.ofNat 4 (ad.toNat)) (BitVec.ofNat 2 (sz.toNat)) (BitVec.ofNat 22 (imm.toNat))) : Option Instr) = _; simp)
    (fits_cons gs.isLt (fits_cons ad.isLt (fits_cons sz.isLt (fits_cons imm.isLt fits_nil))))
theorem Sys2Proof.Laws.RoundTrip.stv (vs : VReg) (ad : AReg) (km : KReg) (lt : LaneTy) (imm : BitVec 18) : Sys2Proof.Laws.RoundTrip.Statement (.stv vs ad km lt imm) :=
  roundTrip_of rfl rfl (Nat.le_of_ble_eq_true rfl) (by decide) (fun h => by show ((LaneTy.ofCode (lt.toCode)).bind fun lt => some (Instr.stv (BitVec.ofNat 6 (vs.toNat)) (BitVec.ofNat 4 (ad.toNat)) (BitVec.ofNat 4 (km.toNat)) lt (BitVec.ofNat 18 (imm.toNat))) : Option Instr) = _; simp)
    (fits_cons vs.isLt (fits_cons ad.isLt (fits_cons km.isLt (fits_cons lt.toCode_lt (fits_cons imm.isLt fits_nil)))))
theorem Sys2Proof.Laws.RoundTrip.sts (vs : VReg) (pos : SpPos) (km : KReg) (ma : BitVec 1) : Sys2Proof.Laws.RoundTrip.Statement (.sts vs pos km ma) :=
  roundTrip_of rfl rfl (Nat.le_of_ble_eq_true rfl) (by decide) (fun h => by show ((SpPos.ofRaw (pos.toRaw)).bind fun pos => some (Instr.sts (BitVec.ofNat 6 (vs.toNat)) pos (BitVec.ofNat 4 (km.toNat)) (BitVec.ofNat 1 (ma.toNat))) : Option Instr) = _; simp)
    (fits_cons vs.isLt (fits_cons pos.toRaw_lt (fits_cons km.isLt (fits_cons ma.isLt fits_nil))))
theorem Sys2Proof.Laws.RoundTrip.stss (gs : GReg) (pos : SpPos) (byte : BitVec 6) (sz : BitVec 2) (ma : BitVec 1) : Sys2Proof.Laws.RoundTrip.Statement (.stss gs pos byte sz ma) :=
  roundTrip_of rfl rfl (Nat.le_of_ble_eq_true rfl) (by decide) (fun h => by show ((SpPos.ofRaw (pos.toRaw)).bind fun pos => some (Instr.stss (BitVec.ofNat 6 (gs.toNat)) pos (BitVec.ofNat 6 (byte.toNat)) (BitVec.ofNat 2 (sz.toNat)) (BitVec.ofNat 1 (ma.toNat))) : Option Instr) = _; simp)
    (fits_cons gs.isLt (fits_cons pos.toRaw_lt (fits_cons byte.isLt (fits_cons sz.isLt (fits_cons ma.isLt fits_nil)))))
theorem Sys2Proof.Laws.RoundTrip.stg (vs : VReg) (ad : AReg) (vi : VReg) (km : KReg) (lt : LaneTy) : Sys2Proof.Laws.RoundTrip.Statement (.stg vs ad vi km lt) :=
  roundTrip_of rfl rfl (Nat.le_of_ble_eq_true rfl) (by decide) (fun h => by show ((LaneTy.ofCode (lt.toCode)).bind fun lt => some (Instr.stg (BitVec.ofNat 6 (vs.toNat)) (BitVec.ofNat 4 (ad.toNat)) (BitVec.ofNat 6 (vi.toNat)) (BitVec.ofNat 4 (km.toNat)) lt) : Option Instr) = _; simp)
    (fits_cons vs.isLt (fits_cons ad.isLt (fits_cons vi.isLt (fits_cons km.isLt (fits_cons lt.toCode_lt fits_nil)))))
theorem Sys2Proof.Laws.RoundTrip.stz (ad : AReg) (imm : BitVec 30) : Sys2Proof.Laws.RoundTrip.Statement (.stz ad imm) :=
  roundTrip_of rfl rfl (Nat.le_of_ble_eq_true rfl) (by decide) (fun h => by show (some (Instr.stz (BitVec.ofNat 4 (ad.toNat)) (BitVec.ofNat 30 (imm.toNat))) : Option Instr) = _; simp)
    (fits_cons ad.isLt (fits_cons imm.isLt fits_nil))
theorem Sys2Proof.Laws.RoundTrip.cpy (pl : Places) (gn : GReg) : Sys2Proof.Laws.RoundTrip.Statement (.cpy pl gn) :=
  roundTrip_of rfl rfl (Nat.le_of_ble_eq_true rfl) (by decide) (fun h => by show ((Places.ofRaw (pl.toRaw.1) (pl.toRaw.2.1) (pl.toRaw.2.2)).bind fun pl => some (Instr.cpy pl (BitVec.ofNat 6 (gn.toNat))) : Option Instr) = _; simp)
    (fits_cons pl.toRaw_lt.1 (fits_cons pl.toRaw_lt.2.1 (fits_cons pl.toRaw_lt.2.2 (fits_cons gn.isLt fits_nil))))
theorem Sys2Proof.Laws.RoundTrip.cpyw (bank : BitVec 6) (row : BitVec 11) (ad : AReg) (gn : GReg) (gm : GReg) (fop : FollowOn) : Sys2Proof.Laws.RoundTrip.Statement (.cpyw bank row ad gn gm fop) :=
  roundTrip_of rfl rfl (Nat.le_of_ble_eq_true rfl) (by decide) (fun h => by show ((FollowOn.ofCode (fop.toCode)).bind fun fop => some (Instr.cpyw (BitVec.ofNat 6 (bank.toNat)) (BitVec.ofNat 11 (row.toNat)) (BitVec.ofNat 4 (ad.toNat)) (BitVec.ofNat 6 (gn.toNat)) (BitVec.ofNat 6 (gm.toNat)) fop) : Option Instr) = _; simp)
    (fits_cons bank.isLt (fits_cons row.isLt (fits_cons ad.isLt (fits_cons gn.isLt (fits_cons gm.isLt (fits_cons fop.toCode_lt fits_nil))))))
theorem Sys2Proof.Laws.RoundTrip.cpyx (pl : Places) (gn : GReg) (fs : BitVec 5) : Sys2Proof.Laws.RoundTrip.Statement (.cpyx pl gn fs) :=
  roundTrip_of rfl rfl (Nat.le_of_ble_eq_true rfl) (by decide) (fun h => by show ((Places.ofRaw (pl.toRaw.1) (pl.toRaw.2.1) (pl.toRaw.2.2)).bind fun pl => some (Instr.cpyx pl (BitVec.ofNat 6 (gn.toNat)) (BitVec.ofNat 5 (fs.toNat))) : Option Instr) = _; simp)
    (fits_cons pl.toRaw_lt.1 (fits_cons pl.toRaw_lt.2.1 (fits_cons pl.toRaw_lt.2.2 (fits_cons gn.isLt (fits_cons fs.isLt fits_nil)))))
theorem Sys2Proof.Laws.RoundTrip.cpyg (dst : Place) (ad : AReg) (ibank : BitVec 6) (irow : BitVec 11) (gn : GReg) : Sys2Proof.Laws.RoundTrip.Statement (.cpyg dst ad ibank irow gn) :=
  roundTrip_of rfl rfl (Nat.le_of_ble_eq_true rfl) (by decide) (fun h => by show ((Place.ofRaw (dst.toRaw.1) (dst.toRaw.2)).bind fun dst => some (Instr.cpyg dst (BitVec.ofNat 4 (ad.toNat)) (BitVec.ofNat 6 (ibank.toNat)) (BitVec.ofNat 11 (irow.toNat)) (BitVec.ofNat 6 (gn.toNat))) : Option Instr) = _; simp)
    (fits_cons dst.toRaw_lt.1 (fits_cons dst.toRaw_lt.2 (fits_cons ad.isLt (fits_cons ibank.isLt (fits_cons irow.isLt (fits_cons gn.isLt fits_nil))))))
theorem Sys2Proof.Laws.RoundTrip.jsub (ad : AReg) (t : BitVec 1) (imm : BitVec 43) : Sys2Proof.Laws.RoundTrip.Statement (.jsub ad t imm) :=
  roundTrip_of rfl rfl (Nat.le_of_ble_eq_true rfl) (by decide) (fun h => by show (some (Instr.jsub (BitVec.ofNat 4 (ad.toNat)) (BitVec.ofNat 1 (t.toNat)) (BitVec.ofNat 43 (imm.toNat))) : Option Instr) = _; simp)
    (fits_cons ad.isLt (fits_cons t.isLt (fits_cons imm.isLt fits_nil)))
theorem Sys2Proof.Laws.RoundTrip.jcan (gs : GReg) : Sys2Proof.Laws.RoundTrip.Statement (.jcan gs) :=
  roundTrip_of rfl rfl (Nat.le_of_ble_eq_true rfl) (by decide) (fun h => by show (some (Instr.jcan (BitVec.ofNat 6 (gs.toNat))) : Option Instr) = _; simp)
    (fits_cons gs.isLt fits_nil)
theorem Sys2Proof.Laws.RoundTrip.tnew (gd : GReg) (ad : AReg) (imm : BitVec 38) : Sys2Proof.Laws.RoundTrip.Statement (.tnew gd ad imm) :=
  roundTrip_of rfl rfl (Nat.le_of_ble_eq_true rfl) (by decide) (fun h => by show (some (Instr.tnew (BitVec.ofNat 6 (gd.toNat)) (BitVec.ofNat 4 (ad.toNat)) (BitVec.ofNat 38 (imm.toNat))) : Option Instr) = _; simp)
    (fits_cons gd.isLt (fits_cons ad.isLt (fits_cons imm.isLt fits_nil)))
theorem Sys2Proof.Laws.RoundTrip.tfree (gs : GReg) : Sys2Proof.Laws.RoundTrip.Statement (.tfree gs) :=
  roundTrip_of rfl rfl (Nat.le_of_ble_eq_true rfl) (by decide) (fun h => by show (some (Instr.tfree (BitVec.ofNat 6 (gs.toNat))) : Option Instr) = _; simp)
    (fits_cons gs.isLt fits_nil)
theorem Sys2Proof.Laws.RoundTrip.tuse (gs1 : GReg) (gs2 : GReg) : Sys2Proof.Laws.RoundTrip.Statement (.tuse gs1 gs2) :=
  roundTrip_of rfl rfl (Nat.le_of_ble_eq_true rfl) (by decide) (fun h => by show (some (Instr.tuse (BitVec.ofNat 6 (gs1.toNat)) (BitVec.ofNat 6 (gs2.toNat))) : Option Instr) = _; simp)
    (fits_cons gs1.isLt (fits_cons gs2.isLt fits_nil))
theorem Sys2Proof.Laws.RoundTrip.thint (gs : GReg) (hint : Hint) : Sys2Proof.Laws.RoundTrip.Statement (.thint gs hint) :=
  roundTrip_of rfl rfl (Nat.le_of_ble_eq_true rfl) (by decide) (fun h => by show ((Hint.ofCode (hint.toCode)).bind fun hint => some (Instr.thint (BitVec.ofNat 6 (gs.toNat)) hint) : Option Instr) = _; simp)
    (fits_cons gs.isLt (fits_cons hint.toCode_lt fits_nil))
theorem Sys2Proof.Laws.RoundTrip.tpin (gs : GReg) : Sys2Proof.Laws.RoundTrip.Statement (.tpin gs) :=
  roundTrip_of rfl rfl (Nat.le_of_ble_eq_true rfl) (by decide) (fun h => by show (some (Instr.tpin (BitVec.ofNat 6 (gs.toNat))) : Option Instr) = _; simp)
    (fits_cons gs.isLt fits_nil)
theorem Sys2Proof.Laws.RoundTrip.tunpin (gs : GReg) : Sys2Proof.Laws.RoundTrip.Statement (.tunpin gs) :=
  roundTrip_of rfl rfl (Nat.le_of_ble_eq_true rfl) (by decide) (fun h => by show (some (Instr.tunpin (BitVec.ofNat 6 (gs.toNat))) : Option Instr) = _; simp)
    (fits_cons gs.isLt fits_nil)
theorem Sys2Proof.Laws.RoundTrip.tfetch (gs : GReg) (tier : BitVec 1) : Sys2Proof.Laws.RoundTrip.Statement (.tfetch gs tier) :=
  roundTrip_of rfl rfl (Nat.le_of_ble_eq_true rfl) (by decide) (fun h => by show (some (Instr.tfetch (BitVec.ofNat 6 (gs.toNat)) (BitVec.ofNat 1 (tier.toNat))) : Option Instr) = _; simp)
    (fits_cons gs.isLt (fits_cons tier.isLt fits_nil))
theorem Sys2Proof.Laws.RoundTrip.tlock (ad : AReg) (imm : BitVec 32) (gs : GReg) : Sys2Proof.Laws.RoundTrip.Statement (.tlock ad imm gs) :=
  roundTrip_of rfl rfl (Nat.le_of_ble_eq_true rfl) (by decide) (fun h => by show (some (Instr.tlock (BitVec.ofNat 4 (ad.toNat)) (BitVec.ofNat 32 (imm.toNat)) (BitVec.ofNat 6 (gs.toNat))) : Option Instr) = _; simp)
    (fits_cons ad.isLt (fits_cons imm.isLt (fits_cons gs.isLt fits_nil)))
theorem Sys2Proof.Laws.RoundTrip.tunlock (ad : AReg) (imm : BitVec 32) : Sys2Proof.Laws.RoundTrip.Statement (.tunlock ad imm) :=
  roundTrip_of rfl rfl (Nat.le_of_ble_eq_true rfl) (by decide) (fun h => by show (some (Instr.tunlock (BitVec.ofNat 4 (ad.toNat)) (BitVec.ofNat 32 (imm.toNat))) : Option Instr) = _; simp)
    (fits_cons ad.isLt (fits_cons imm.isLt fits_nil))
theorem Sys2Proof.Laws.RoundTrip.tinfo (gd : GReg) (gs : GReg) (sel : TinfoSel) : Sys2Proof.Laws.RoundTrip.Statement (.tinfo gd gs sel) :=
  roundTrip_of rfl rfl (Nat.le_of_ble_eq_true rfl) (by decide) (fun h => by show ((TinfoSel.ofCode (sel.toCode)).bind fun sel => some (Instr.tinfo (BitVec.ofNat 6 (gd.toNat)) (BitVec.ofNat 6 (gs.toNat)) sel) : Option Instr) = _; simp)
    (fits_cons gd.isLt (fits_cons gs.isLt (fits_cons sel.toCode_lt fits_nil)))
theorem Sys2Proof.Laws.RoundTrip.kvnew (gd : GReg) (ad : AReg) (imm : BitVec 38) : Sys2Proof.Laws.RoundTrip.Statement (.kvnew gd ad imm) :=
  roundTrip_of rfl rfl (Nat.le_of_ble_eq_true rfl) (by decide) (fun h => by show (some (Instr.kvnew (BitVec.ofNat 6 (gd.toNat)) (BitVec.ofNat 4 (ad.toNat)) (BitVec.ofNat 38 (imm.toNat))) : Option Instr) = _; simp)
    (fits_cons gd.isLt (fits_cons ad.isLt (fits_cons imm.isLt fits_nil)))
theorem Sys2Proof.Laws.RoundTrip.kvapp (gs : GReg) (bank : BitVec 6) (row : BitVec 11) (tag : BitVec 3) : Sys2Proof.Laws.RoundTrip.Statement (.kvapp gs bank row tag) :=
  roundTrip_of rfl rfl (Nat.le_of_ble_eq_true rfl) (by decide) (fun h => by show (some (Instr.kvapp (BitVec.ofNat 6 (gs.toNat)) (BitVec.ofNat 6 (bank.toNat)) (BitVec.ofNat 11 (row.toNat)) (BitVec.ofNat 3 (tag.toNat))) : Option Instr) = _; simp)
    (fits_cons gs.isLt (fits_cons bank.isLt (fits_cons row.isLt (fits_cons tag.isLt fits_nil))))
theorem Sys2Proof.Laws.RoundTrip.kvret (gs1 : GReg) (gs2 : GReg) (mask : BitVec 8) : Sys2Proof.Laws.RoundTrip.Statement (.kvret gs1 gs2 mask) :=
  roundTrip_of rfl rfl (Nat.le_of_ble_eq_true rfl) (by decide) (fun h => by show (some (Instr.kvret (BitVec.ofNat 6 (gs1.toNat)) (BitVec.ofNat 6 (gs2.toNat)) (BitVec.ofNat 8 (mask.toNat))) : Option Instr) = _; simp)
    (fits_cons gs1.isLt (fits_cons gs2.isLt (fits_cons mask.isLt fits_nil)))
theorem Sys2Proof.Laws.RoundTrip.kvpos (gd : GReg) (gs1 : GReg) (gs2 : GReg) (sel : KvposSel) : Sys2Proof.Laws.RoundTrip.Statement (.kvpos gd gs1 gs2 sel) :=
  roundTrip_of rfl rfl (Nat.le_of_ble_eq_true rfl) (by decide) (fun h => by show ((KvposSel.ofCode (sel.toCode)).bind fun sel => some (Instr.kvpos (BitVec.ofNat 6 (gd.toNat)) (BitVec.ofNat 6 (gs1.toNat)) (BitVec.ofNat 6 (gs2.toNat)) sel) : Option Instr) = _; simp)
    (fits_cons gd.isLt (fits_cons gs1.isLt (fits_cons gs2.isLt (fits_cons sel.toCode_lt fits_nil))))
theorem Sys2Proof.Laws.RoundTrip.kvinfo (gd : GReg) (gs : GReg) (sel : KvinfoSel) : Sys2Proof.Laws.RoundTrip.Statement (.kvinfo gd gs sel) :=
  roundTrip_of rfl rfl (Nat.le_of_ble_eq_true rfl) (by decide) (fun h => by show ((KvinfoSel.ofCode (sel.toCode)).bind fun sel => some (Instr.kvinfo (BitVec.ofNat 6 (gd.toNat)) (BitVec.ofNat 6 (gs.toNat)) sel) : Option Instr) = _; simp)
    (fits_cons gd.isLt (fits_cons gs.isLt (fits_cons sel.toCode_lt fits_nil)))
theorem Sys2Proof.Laws.RoundTrip.wait (z : BitVec 4) (lsel : BitVec 2) (lval : BitVec 6) : Sys2Proof.Laws.RoundTrip.Statement (.wait z lsel lval) :=
  roundTrip_of rfl rfl (Nat.le_of_ble_eq_true rfl) (by decide) (fun h => by show (some (Instr.wait (BitVec.ofNat 4 (z.toNat)) (BitVec.ofNat 2 (lsel.toNat)) (BitVec.ofNat 6 (lval.toNat))) : Option Instr) = _; simp)
    (fits_cons z.isLt (fits_cons lsel.isLt (fits_cons lval.isLt fits_nil)))
theorem Sys2Proof.Laws.RoundTrip.bari (pd : PReg) (gs : GReg) : Sys2Proof.Laws.RoundTrip.Statement (.bari pd gs) :=
  roundTrip_of rfl rfl (Nat.le_of_ble_eq_true rfl) (by decide) (fun h => by show (some (Instr.bari (BitVec.ofNat 7 (pd.toNat)) (BitVec.ofNat 6 (gs.toNat))) : Option Instr) = _; simp)
    (fits_cons pd.isLt (fits_cons gs.isLt fits_nil))
theorem Sys2Proof.Laws.RoundTrip.bara (bar : BitVec 11) : Sys2Proof.Laws.RoundTrip.Statement (.bara bar) :=
  roundTrip_of rfl rfl (Nat.le_of_ble_eq_true rfl) (by decide) (fun h => by show (some (Instr.bara (BitVec.ofNat 11 (bar.toNat))) : Option Instr) = _; simp)
    (fits_cons bar.isLt fits_nil)
theorem Sys2Proof.Laws.RoundTrip.barw (bar : BitVec 11) (gs : GReg) : Sys2Proof.Laws.RoundTrip.Statement (.barw bar gs) :=
  roundTrip_of rfl rfl (Nat.le_of_ble_eq_true rfl) (by decide) (fun h => by show (some (Instr.barw (BitVec.ofNat 11 (bar.toNat)) (BitVec.ofNat 6 (gs.toNat))) : Option Instr) = _; simp)
    (fits_cons bar.isLt (fits_cons gs.isLt fits_nil))
theorem Sys2Proof.Laws.RoundTrip.baraw (bar : BitVec 11) : Sys2Proof.Laws.RoundTrip.Statement (.baraw bar) :=
  roundTrip_of rfl rfl (Nat.le_of_ble_eq_true rfl) (by decide) (fun h => by show (some (Instr.baraw (BitVec.ofNat 11 (bar.toNat))) : Option Instr) = _; simp)
    (fits_cons bar.isLt fits_nil)
theorem Sys2Proof.Laws.RoundTrip.bfree (bar : BitVec 11) : Sys2Proof.Laws.RoundTrip.Statement (.bfree bar) :=
  roundTrip_of rfl rfl (Nat.le_of_ble_eq_true rfl) (by decide) (fun h => by show (some (Instr.bfree (BitVec.ofNat 11 (bar.toNat))) : Option Instr) = _; simp)
    (fits_cons bar.isLt fits_nil)
theorem Sys2Proof.Laws.RoundTrip.monw (mon : BitVec 12) : Sys2Proof.Laws.RoundTrip.Statement (.monw mon) :=
  roundTrip_of rfl rfl (Nat.le_of_ble_eq_true rfl) (by decide) (fun h => by show (some (Instr.monw (BitVec.ofNat 12 (mon.toNat))) : Option Instr) = _; simp)
    (fits_cons mon.isLt fits_nil)
theorem Sys2Proof.Laws.RoundTrip.acq (scope : Scope) (ad : AReg) : Sys2Proof.Laws.RoundTrip.Statement (.acq scope ad) :=
  roundTrip_of rfl rfl (Nat.le_of_ble_eq_true rfl) (by decide) (fun h => by show ((Scope.ofCode (scope.toCode)).bind fun scope => some (Instr.acq scope (BitVec.ofNat 4 (ad.toNat))) : Option Instr) = _; simp)
    (fits_cons scope.toCode_lt (fits_cons ad.isLt fits_nil))
theorem Sys2Proof.Laws.RoundTrip.rel (scope : Scope) (ad : AReg) : Sys2Proof.Laws.RoundTrip.Statement (.rel scope ad) :=
  roundTrip_of rfl rfl (Nat.le_of_ble_eq_true rfl) (by decide) (fun h => by show ((Scope.ofCode (scope.toCode)).bind fun scope => some (Instr.rel scope (BitVec.ofNat 4 (ad.toNat))) : Option Instr) = _; simp)
    (fits_cons scope.toCode_lt (fits_cons ad.isLt fits_nil))
theorem Sys2Proof.Laws.RoundTrip.fence (gd : GReg) (scope : Scope) : Sys2Proof.Laws.RoundTrip.Statement (.fence gd scope) :=
  roundTrip_of rfl rfl (Nat.le_of_ble_eq_true rfl) (by decide) (fun h => by show ((Scope.ofCode (scope.toCode)).bind fun scope => some (Instr.fence (BitVec.ofNat 6 (gd.toNat)) scope) : Option Instr) = _; simp)
    (fits_cons gd.isLt (fits_cons scope.toCode_lt fits_nil))
theorem Sys2Proof.Laws.RoundTrip.yield : Sys2Proof.Laws.RoundTrip.Statement (.yield) :=
  roundTrip_of rfl rfl (Nat.le_of_ble_eq_true rfl) (by decide) (fun _ => rfl)
    fits_nil
theorem Sys2Proof.Laws.RoundTrip.rdv (pd : PReg) (n : BitVec 11) : Sys2Proof.Laws.RoundTrip.Statement (.rdv pd n) :=
  roundTrip_of rfl rfl (Nat.le_of_ble_eq_true rfl) (by decide) (fun h => by show (some (Instr.rdv (BitVec.ofNat 7 (pd.toNat)) (BitVec.ofNat 11 (n.toNat))) : Option Instr) = _; simp)
    (fits_cons pd.isLt (fits_cons n.isLt fits_nil))
theorem Sys2Proof.Laws.RoundTrip.spawnPost (x : CtxId) (id : Nat) (q : BitVec 4) (lba : BitVec 57) (dbg : Bool) (cookie : Word) : Sys2Proof.Laws.RoundTrip.Statement (.spawnPost x id q lba dbg cookie) :=
  roundTrip_none rfl
theorem Sys2Proof.Laws.RoundTrip.nullBundle : Sys2Proof.Laws.RoundTrip.Statement (.nullBundle) :=
  roundTrip_none rfl
theorem Sys2Proof.Laws.RoundTrip.mldwFillLand (x : CtxId) (ws : CReg) (fill : Nat) : Sys2Proof.Laws.RoundTrip.Statement (.mldwFillLand x ws fill) :=
  roundTrip_none rfl
theorem Sys2Proof.Laws.RoundTrip.scratchpadDrainRow (x : CtxId) (drain : Nat) (row : Nat) : Sys2Proof.Laws.RoundTrip.Statement (.scratchpadDrainRow x drain row) :=
  roundTrip_none rfl
theorem Sys2Proof.Laws.RoundTrip.memoryDrainRow (x : CtxId) (drain : Nat) (row : Nat) : Sys2Proof.Laws.RoundTrip.Statement (.memoryDrainRow x drain row) :=
  roundTrip_none rfl
theorem Sys2Proof.Laws.RoundTrip.engineDc (core : BitVec 8) : Sys2Proof.Laws.RoundTrip.Statement (.engineDc core) :=
  roundTrip_none rfl
theorem Sys2Proof.Laws.RoundTrip.piccoloResidencyResume (x : CtxId) : Sys2Proof.Laws.RoundTrip.Statement (.piccoloResidencyResume x) :=
  roundTrip_none rfl
theorem Sys2Proof.Laws.RoundTrip.pageLanded (core : BitVec 8) (bank : Nat) (row : Nat) (page : BitVec 16) : Sys2Proof.Laws.RoundTrip.Statement (.pageLanded core bank row page) :=
  roundTrip_none rfl
theorem Sys2Proof.Laws.RoundTrip.l1Fill (core : BitVec 8) (line : Nat) (data : LineData) (st : LineSt) (guardTag : Nat) (poison : Bool) : Sys2Proof.Laws.RoundTrip.Statement (.l1Fill core line data st guardTag poison) :=
  roundTrip_none rfl
theorem Sys2Proof.Laws.RoundTrip.refillComplete (item : Item) : Sys2Proof.Laws.RoundTrip.Statement (.refillComplete item) :=
  roundTrip_none rfl
theorem Sys2Proof.Laws.RoundTrip.lineDrain (x : CtxId) (id : Nat) : Sys2Proof.Laws.RoundTrip.Statement (.lineDrain x id) :=
  roundTrip_none rfl
theorem Sys2Proof.Laws.RoundTrip.atomicAtHome (x : CtxId) (id : Nat) (op : AtomicOp) (pa : Nat) (n : Nat) (a : BitVec 128) (b : BitVec 128) (dst : Option GReg) : Sys2Proof.Laws.RoundTrip.Statement (.atomicAtHome x id op pa n a b dst) :=
  roundTrip_none rfl
theorem Sys2Proof.Laws.RoundTrip.replyArrival (x : CtxId) (id : Nat) (r : Reply) : Sys2Proof.Laws.RoundTrip.Statement (.replyArrival x id r) :=
  roundTrip_none rfl
theorem Sys2Proof.Laws.RoundTrip.monitorArm (x : CtxId) (id : Nat) (mon : BitVec 12) (pa : Nat) : Sys2Proof.Laws.RoundTrip.Statement (.monitorArm x id mon pa) :=
  roundTrip_none rfl
theorem Sys2Proof.Laws.RoundTrip.spuriousMonitorEvent (x : CtxId) (mon : BitVec 12) : Sys2Proof.Laws.RoundTrip.Statement (.spuriousMonitorEvent x mon) :=
  roundTrip_none rfl
theorem Sys2Proof.Laws.RoundTrip.copyBlockIssue (x : CtxId) (job : Nat) (block : Nat) : Sys2Proof.Laws.RoundTrip.Statement (.copyBlockIssue x job block) :=
  roundTrip_none rfl
theorem Sys2Proof.Laws.RoundTrip.copyBlockLand (x : CtxId) (job : Nat) (block : Nat) : Sys2Proof.Laws.RoundTrip.Statement (.copyBlockLand x job block) :=
  roundTrip_none rfl
theorem Sys2Proof.Laws.RoundTrip.barrierArrival (g : GangId) (bar : BitVec 11) (src : Option CtxId) (id : Nat) : Sys2Proof.Laws.RoundTrip.Statement (.barrierArrival g bar src id) :=
  roundTrip_none rfl
theorem Sys2Proof.Laws.RoundTrip.relPerform (x : CtxId) (id : Nat) (pa : Nat) : Sys2Proof.Laws.RoundTrip.Statement (.relPerform x id pa) :=
  roundTrip_none rfl
theorem Sys2Proof.Laws.RoundTrip.fenceComplete (x : CtxId) : Sys2Proof.Laws.RoundTrip.Statement (.fenceComplete x) :=
  roundTrip_none rfl
theorem Sys2Proof.Laws.RoundTrip.holdRelease (x : CtxId) : Sys2Proof.Laws.RoundTrip.Statement (.holdRelease x) :=
  roundTrip_none rfl
theorem Sys2Proof.Laws.RoundTrip.holdTimeout (x : CtxId) : Sys2Proof.Laws.RoundTrip.Statement (.holdTimeout x) :=
  roundTrip_none rfl
theorem Sys2Proof.Laws.RoundTrip.memoryTimeout (x : CtxId) : Sys2Proof.Laws.RoundTrip.Statement (.memoryTimeout x) :=
  roundTrip_none rfl
theorem Sys2Proof.Laws.RoundTrip.progressWatchdog (x : CtxId) : Sys2Proof.Laws.RoundTrip.Statement (.progressWatchdog x) :=
  roundTrip_none rfl
theorem Sys2Proof.Laws.RoundTrip.hardWatchdog (x : CtxId) : Sys2Proof.Laws.RoundTrip.Statement (.hardWatchdog x) :=
  roundTrip_none rfl
theorem Sys2Proof.Laws.RoundTrip.shadowLatchSquash (core : BitVec 8) : Sys2Proof.Laws.RoundTrip.Statement (.shadowLatchSquash core) :=
  roundTrip_none rfl
theorem Sys2Proof.Laws.RoundTrip.regulatorSettleEnd (core : BitVec 8) : Sys2Proof.Laws.RoundTrip.Statement (.regulatorSettleEnd core) :=
  roundTrip_none rfl
theorem Sys2Proof.Laws.RoundTrip.takeAsyncRequest (x : CtxId) : Sys2Proof.Laws.RoundTrip.Statement (.takeAsyncRequest x) :=
  roundTrip_none rfl
theorem Sys2Proof.Laws.RoundTrip.preemptRequest (x : CtxId) : Sys2Proof.Laws.RoundTrip.Statement (.preemptRequest x) :=
  roundTrip_none rfl
theorem Sys2Proof.Laws.RoundTrip.pickup (x : CtxId) (task : Nat) : Sys2Proof.Laws.RoundTrip.Statement (.pickup x task) :=
  roundTrip_none rfl
theorem Sys2Proof.Laws.RoundTrip.writeBack (x : CtxId) : Sys2Proof.Laws.RoundTrip.Statement (.writeBack x) :=
  roundTrip_none rfl
theorem Sys2Proof.Laws.RoundTrip.taskRelease (x : CtxId) : Sys2Proof.Laws.RoundTrip.Statement (.taskRelease x) :=
  roundTrip_none rfl
theorem Sys2Proof.Laws.RoundTrip.unitCompletion (u : UnitRef) : Sys2Proof.Laws.RoundTrip.Statement (.unitCompletion u) :=
  roundTrip_none rfl
theorem Sys2Proof.Laws.RoundTrip.completionEntryPost (u : UnitRef) : Sys2Proof.Laws.RoundTrip.Statement (.completionEntryPost u) :=
  roundTrip_none rfl
theorem Sys2Proof.Laws.RoundTrip.doorbell (die : BitVec 2) (q : BitVec 4) : Sys2Proof.Laws.RoundTrip.Statement (.doorbell die q) :=
  roundTrip_none rfl
theorem Sys2Proof.Laws.RoundTrip.schdb (die : BitVec 2) (q : BitVec 4) : Sys2Proof.Laws.RoundTrip.Statement (.schdb die q) :=
  roundTrip_none rfl
theorem Sys2Proof.Laws.RoundTrip.takeCommand (die : BitVec 2) : Sys2Proof.Laws.RoundTrip.Statement (.takeCommand die) :=
  roundTrip_none rfl
theorem Sys2Proof.Laws.RoundTrip.admitGang (die : BitVec 2) : Sys2Proof.Laws.RoundTrip.Statement (.admitGang die) :=
  roundTrip_none rfl
theorem Sys2Proof.Laws.RoundTrip.gangReservation (g : GangId) : Sys2Proof.Laws.RoundTrip.Statement (.gangReservation g) :=
  roundTrip_none rfl
theorem Sys2Proof.Laws.RoundTrip.priorityPromotion (task : Nat) : Sys2Proof.Laws.RoundTrip.Statement (.priorityPromotion task) :=
  roundTrip_none rfl
theorem Sys2Proof.Laws.RoundTrip.migrationRequest (core : BitVec 8) : Sys2Proof.Laws.RoundTrip.Statement (.migrationRequest core) :=
  roundTrip_none rfl
theorem Sys2Proof.Laws.RoundTrip.migration (src : BitVec 8) (dst : BitVec 8) : Sys2Proof.Laws.RoundTrip.Statement (.migration src dst) :=
  roundTrip_none rfl
theorem Sys2Proof.Laws.RoundTrip.dutyTakesEffect (x : CtxId) : Sys2Proof.Laws.RoundTrip.Statement (.dutyTakesEffect x) :=
  roundTrip_none rfl
theorem Sys2Proof.Laws.RoundTrip.thermalDutyUpdate (core : BitVec 8) : Sys2Proof.Laws.RoundTrip.Statement (.thermalDutyUpdate core) :=
  roundTrip_none rfl
theorem Sys2Proof.Laws.RoundTrip.gets (core : BitVec 8) (line : Nat) (coh : Bool) (guardTag : Nat) : Sys2Proof.Laws.RoundTrip.Statement (.gets core line coh guardTag) :=
  roundTrip_none rfl
theorem Sys2Proof.Laws.RoundTrip.getm (core : BitVec 8) (line : Nat) : Sys2Proof.Laws.RoundTrip.Statement (.getm core line) :=
  roundTrip_none rfl
theorem Sys2Proof.Laws.RoundTrip.putm (core : BitVec 8) (line : Nat) : Sys2Proof.Laws.RoundTrip.Statement (.putm core line) :=
  roundTrip_none rfl
theorem Sys2Proof.Laws.RoundTrip.invalidation (core : BitVec 8) (line : Nat) (kind : Recall) : Sys2Proof.Laws.RoundTrip.Statement (.invalidation core line kind) :=
  roundTrip_none rfl
theorem Sys2Proof.Laws.RoundTrip.invalidationAck (core : BitVec 8) (line : Nat) (data : Option LineData) : Sys2Proof.Laws.RoundTrip.Statement (.invalidationAck core line data) :=
  roundTrip_none rfl
theorem Sys2Proof.Laws.RoundTrip.residencyAction (die : BitVec 2) (tier : BitVec 2) : Sys2Proof.Laws.RoundTrip.Statement (.residencyAction die tier) :=
  roundTrip_none rfl
theorem Sys2Proof.Laws.RoundTrip.residencyActionFinish (item : Item) : Sys2Proof.Laws.RoundTrip.Statement (.residencyActionFinish item) :=
  roundTrip_none rfl
theorem Sys2Proof.Laws.RoundTrip.sramThermalShutdown (die : BitVec 2) : Sys2Proof.Laws.RoundTrip.Statement (.sramThermalShutdown die) :=
  roundTrip_none rfl
theorem Sys2Proof.Laws.RoundTrip.loopLost (loopB : Bool) : Sys2Proof.Laws.RoundTrip.Statement (.loopLost loopB) :=
  roundTrip_none rfl
theorem Sys2Proof.Laws.RoundTrip.loopRecovered (loopB : Bool) : Sys2Proof.Laws.RoundTrip.Statement (.loopRecovered loopB) :=
  roundTrip_none rfl
theorem Sys2Proof.Laws.RoundTrip.tableChange : Sys2Proof.Laws.RoundTrip.Statement (.tableChange) :=
  roundTrip_none rfl
theorem Sys2Proof.Laws.RoundTrip.shutdownStop : Sys2Proof.Laws.RoundTrip.Statement (.shutdownStop) :=
  roundTrip_none rfl
theorem Sys2Proof.Laws.RoundTrip.blackboxSquashWindow (core : BitVec 8) : Sys2Proof.Laws.RoundTrip.Statement (.blackboxSquashWindow core) :=
  roundTrip_none rfl
theorem Sys2Proof.Laws.RoundTrip.coldReset : Sys2Proof.Laws.RoundTrip.Statement (.coldReset) :=
  roundTrip_none rfl
theorem Sys2Proof.Laws.RoundTrip.warmReset : Sys2Proof.Laws.RoundTrip.Statement (.warmReset) :=
  roundTrip_none rfl
theorem Sys2Proof.Laws.RoundTrip.maintenanceReset (mode : BitVec 2) : Sys2Proof.Laws.RoundTrip.Statement (.maintenanceReset mode) :=
  roundTrip_none rfl
theorem Sys2Proof.Laws.RoundTrip.laneLendTimeout (die : BitVec 2) (pair : BitVec 5) : Sys2Proof.Laws.RoundTrip.Statement (.laneLendTimeout die pair) :=
  roundTrip_none rfl
theorem Sys2Proof.Laws.RoundTrip.mgnWrite (core : BitVec 8) (val : Word) : Sys2Proof.Laws.RoundTrip.Statement (.mgnWrite core val) :=
  roundTrip_none rfl
theorem Sys2Proof.Laws.RoundTrip.registerWrite (x : CtxId) (num : BitVec 10) (val : Word) : Sys2Proof.Laws.RoundTrip.Statement (.registerWrite x num val) :=
  roundTrip_none rfl
theorem Sys2Proof.Laws.RoundTrip.hostWrite (func : BitVec 2) (bar0 : Bool) (off : Nat) (n : Nat) (data : Nat) : Sys2Proof.Laws.RoundTrip.Statement (.hostWrite func bar0 off n data) :=
  roundTrip_none rfl
theorem Sys2Proof.Laws.RoundTrip.hostRead (func : BitVec 2) (bar0 : Bool) (off : Nat) (n : Nat) : Sys2Proof.Laws.RoundTrip.Statement (.hostRead func bar0 off n) :=
  roundTrip_none rfl
theorem Sys2Proof.Laws.RoundTrip.functionLevelReset (func : BitVec 2) : Sys2Proof.Laws.RoundTrip.Statement (.functionLevelReset func) :=
  roundTrip_none rfl
theorem Sys2Proof.Laws.RoundTrip.acmd (func : BitVec 2) : Sys2Proof.Laws.RoundTrip.Statement (.acmd func) :=
  roundTrip_none rfl
theorem Sys2Proof.Laws.RoundTrip.attestationReportDone (func : BitVec 2) : Sys2Proof.Laws.RoundTrip.Statement (.attestationReportDone func) :=
  roundTrip_none rfl
theorem Sys2Proof.Laws.RoundTrip.lkctlUp (die : BitVec 2) (peer : BitVec 2) : Sys2Proof.Laws.RoundTrip.Statement (.lkctlUp die peer) :=
  roundTrip_none rfl
theorem Sys2Proof.Laws.RoundTrip.dataFlit (src : BitVec 2) (dst : BitVec 2) (m : BitVec 3) (ok : Bool) : Sys2Proof.Laws.RoundTrip.Statement (.dataFlit src dst m ok) :=
  roundTrip_none rfl
theorem Sys2Proof.Laws.RoundTrip.acknowledgement (src : BitVec 2) (dst : BitVec 2) (m : BitVec 3) (ack : BitVec 12) : Sys2Proof.Laws.RoundTrip.Statement (.acknowledgement src dst m ack) :=
  roundTrip_none rfl
theorem Sys2Proof.Laws.RoundTrip.nak (src : BitVec 2) (dst : BitVec 2) (m : BitVec 3) (ack : BitVec 12) : Sys2Proof.Laws.RoundTrip.Statement (.nak src dst m ack) :=
  roundTrip_none rfl
theorem Sys2Proof.Laws.RoundTrip.ackTimer (src : BitVec 2) (dst : BitVec 2) (m : BitVec 3) : Sys2Proof.Laws.RoundTrip.Statement (.ackTimer src dst m) :=
  roundTrip_none rfl
theorem Sys2Proof.Laws.RoundTrip.replayTimeout (src : BitVec 2) (dst : BitVec 2) (m : BitVec 3) : Sys2Proof.Laws.RoundTrip.Statement (.replayTimeout src dst m) :=
  roundTrip_none rfl
theorem Sys2Proof.Laws.RoundTrip.crcWindowClose (src : BitVec 2) (dst : BitVec 2) (m : BitVec 3) : Sys2Proof.Laws.RoundTrip.Statement (.crcWindowClose src dst m) :=
  roundTrip_none rfl
theorem Sys2Proof.Laws.RoundTrip.retrainComplete (src : BitVec 2) (dst : BitVec 2) (m : BitVec 3) (ok : Bool) : Sys2Proof.Laws.RoundTrip.Statement (.retrainComplete src dst m ok) :=
  roundTrip_none rfl
theorem Sys2Proof.Laws.RoundTrip.linkDead (p : BitVec 2) (q : BitVec 2) : Sys2Proof.Laws.RoundTrip.Statement (.linkDead p q) :=
  roundTrip_none rfl
theorem Sys2Proof.Laws.RoundTrip.linkStateUpdate (die : BitVec 2) (live : BitVec 6) (version : BitVec 16) : Sys2Proof.Laws.RoundTrip.Statement (.linkStateUpdate die live version) :=
  roundTrip_none rfl
theorem Sys2Proof.Laws.RoundTrip.drainMarker (die : BitVec 2) (peer : BitVec 2) (m : BitVec 3) (seq : BitVec 12) : Sys2Proof.Laws.RoundTrip.Statement (.drainMarker die peer m seq) :=
  roundTrip_none rfl
theorem Sys2Proof.Laws.RoundTrip.drainRound (die : BitVec 2) (peer : BitVec 2) : Sys2Proof.Laws.RoundTrip.Statement (.drainRound die peer) :=
  roundTrip_none rfl
theorem Sys2Proof.Laws.RoundTrip.illegalEncoding (mask : BitVec 9) : Sys2Proof.Laws.RoundTrip.Statement (.illegalEncoding mask) :=
  roundTrip_none rfl
end

