-- ==== Sys2Proof/Tests/Slice0.lean ====
section
/-! SUPPORT. Tests of the model on fixed values, and for each statement with hypotheses a state and operands that meet
them. -/

open Sys2Proof Sys2Proof.Machine

namespace Sys2Proof.Tests

set_option Elab.async false

/-! ### Ill-formed terms, one per check of WellFormed -/

theorem test_wf_cmp_predicate : (Instr.cmp 96 1 2 .eq).wf = false ∧ (Instr.cmp 95 1 2 .eq).wf = true := by decide
theorem test_wf_cmpi_predicate : (Instr.cmpi 127 1 0 .eq).wf = false := by decide
theorem test_wf_sel_predicate : (Instr.sel 1 96 2 3).wf = false := by decide
theorem test_wf_pand_predicate : (Instr.pand 1 96 2).wf = false ∧ (Instr.pand 1 2 96).wf = false := by decide
theorem test_wf_pmov_predicate : (Instr.pmov 96 1).wf = false ∧ (Instr.pnot 1 96).wf = false := by decide
theorem test_wf_chkp_predicate : (Instr.chkp 1 96).wf = false := by decide
theorem test_wf_loop_offset : (Instr.loop 0 1 0 0).wf = false := by decide
theorem test_wf_chk_register : (Instr.chk 16 1 .a).wf = false ∧ (Instr.chk 1 16 .k).wf = false
    ∧ (Instr.chk 16 1 .g).wf = true := by decide
theorem test_wf_creg_number : (Instr.mfc 1 0x05).wf = false ∧ (Instr.mtc 0x54 1).wf = false
    ∧ (Instr.mfc 1 0x53).wf = true := by decide
theorem test_wf_saturation : (Instr.vmul 1 2 (.reg 3) 0 .ss).wf = false ∧ (Instr.vabs 1 2 0 .us).wf = false
    ∧ (Instr.vadd 1 2 (.reg 3) 0 .us).wf = true := by decide
theorem test_wf_conversion_format : (Instr.vcvt 1 2 0 (.code 28) .i32).wf = false ∧ (Instr.vcvts 1 2 3 0 .u32 (.code 31)).wf = false
    ∧ (Instr.vcvt 1 2 0 (.code 27) .i32).wf = true := by decide
theorem test_wf_field_length : (Instr.vbfx 1 2 (.imm 0) 0 0 0).wf = false ∧ (Instr.vbfi 1 2 (.imm 0) 33 0).wf = false
    ∧ (Instr.vbfx 1 2 (.imm 0) 32 0 0).wf = true := by decide
theorem test_wf_lookup_table : (Instr.vlut 1 2 0 2047 7 0).wf = false ∧ (Instr.vlut 1 2 0 0 5 0).wf = false
    ∧ (Instr.vlut 1 2 0 2046 7 0).wf = true := by decide
theorem test_wf_drain_row : (Instr.mdrain 0 (.sp 0 1985 0) 0).wf = false ∧ (Instr.mdrain 0 (.sp 0 1984 0) 0).wf = true
    ∧ (Instr.mdraina 0 (.sp 0 2000 0) 1 0 0).wf = false := by decide
theorem test_wf_scratchpad_byte : (Instr.lds (.scalar 1 62 2 0) (.direct 0 0) 0).wf = false
    ∧ (Instr.stss 1 (.direct 0 0) 63 1 0).wf = false ∧ (Instr.stss 1 (.direct 0 0) 62 1 0).wf = true := by decide
theorem test_wf_atomic_size : (Instr.atadd 1 2 3 4 0).wf = false ∧ (Instr.atswp 1 2 4 4 0).wf = false
    ∧ (Instr.atcas 2 2 4 7 4 0).wf = false ∧ (Instr.atswp 2 2 4 4 0).wf = true ∧ (Instr.atfadd 1 2 3 3 0).wf = false := by decide
theorem test_wf_converting_copy : (Instr.cpyx ⟨.mem 1, .mem 2⟩ 3 1).wf = false ∧ (Instr.cpyx ⟨.sp 0 0, .sp 1 0⟩ 3 0).wf = false
    ∧ (Instr.cpyx ⟨.mem 1, .mem 2⟩ 3 0).wf = true := by decide
theorem test_wf_synchronisation_predicate : (Instr.bari 96 1).wf = false ∧ (Instr.rdv 96 1).wf = false := by decide

/-! ### Words written out from the encoding tables (05 R91, and the tables of each chapter) -/

/-- S slot: the opcode in [63:56], PNUM in [55:49], PINV in [48]; gd in [47:42], gs1 in [41:36], gs2 in [35:30]. -/
theorem test_decode_add : decodeSlot .S false 0x010E_0C10_8000_0000 = .ok ⟨7, false, .add 3 1 2⟩ := by decide
/-- The guard !p7: PINV is one. -/
theorem test_decode_inverted_guard : decodeSlot .S false 0x010F_0C10_8000_0000 = .ok ⟨7, true, .add 3 1 2⟩ := by decide
theorem test_decode_loop : decodeSlot .S false 0x4500_C600_3400_0000 = .ok ⟨0, false, .loop 3 6 3 2⟩ := by decide
theorem test_decode_mfs : decodeSlot .S false 0x6000_0401_0000_0000 = .ok ⟨0, false, .mfs 1 1⟩ := by decide
theorem test_decode_tret_end : decodeSlot .S false 0x6200_4100_0000_0000 = .ok ⟨0, false, .tretEnd 1⟩ := by decide
theorem test_decode_vlut : decodeSlot .V0 false 0x4300_1852_0323_0000 = .ok ⟨0, false, .vlut 6 5 8 100 6 0⟩ := by decide
theorem test_decode_smux : decodeSlot .V1 false 0x7700_8127_0000_0000 = .ok ⟨0, false, .smux 8 1 2 7⟩ := by decide
theorem test_decode_sand : decodeSlot .V1 false 0x7200_4150_0000_0000 = .ok ⟨0, false, .sand 4 1 5⟩ := by decide
theorem test_decode_sregen : decodeSlot .V1 false 0x7900_6310_0000_0000 = .ok ⟨0, false, .sregen 6 3 1⟩ := by decide
theorem test_decode_mma : decodeSlot .M false 0x0300_0402_8400_0000_0000 = .ok ⟨0, false, .mma 0 (.direct 8 40) 1 0 0⟩ := by decide
/-- The matrix slot is 80 bits wide: its opcode is in [79:72] and PNUM in [71:65]. -/
theorem test_decode_mma_guard :
    decodeSlot .M false 0x03B2_0402_8400_0000_0000 = .ok ⟨89, false, .mma 0 (.direct 8 40) 1 0 0⟩ := by decide
theorem test_decode_ld : decodeSlot .L false 0x0100_0C60_0000_0000 = .ok ⟨0, false, .ld 3 1 2 0 0⟩ := by decide
theorem test_decode_ldsg : decodeSlot .L false 0x0400_0400_7850_0000 = .ok ⟨0, false, .ldsg 1 0 60 10 0 0⟩ := by decide
theorem test_decode_atadd : decodeSlot .L false 0x1000_1446_0180_0008 = .ok ⟨0, false, .atadd 5 1 6 3 8⟩ := by decide
theorem test_decode_ldv : decodeSlot .L false 0x0200_0440_0000_0000 = .ok ⟨0, false, .ldv 1 1 0 0⟩ := by decide
theorem test_decode_st : decodeSlot .W false 0x0400_52C0_0010 = .ok ⟨0, false, .st 5 2 3 16⟩ := by decide
theorem test_decode_cpy : decodeSlot .C false 0x0100_4001_4200_0080 = .ok ⟨0, false, .cpy ⟨.sp 0 10, .mem 1⟩ 2⟩ := by decide
theorem test_decode_kvret : decodeSlot .C false 0x2200_1050_4000_0000 = .ok ⟨0, false, .kvret 4 5 4⟩ := by decide
theorem test_decode_kvapp : decodeSlot .C false 0x2100_0C43_2140_0000 = .ok ⟨0, false, .kvapp 3 4 400 5⟩ := by decide
theorem test_decode_fence : decodeSlot .Y false 0x2800_7400 = .ok ⟨0, false, .fence 7 .die⟩ := by decide

theorem test_decode_refuses_unassigned : decodeSlot .S false 0xFF00_0000_0000_0000 = .error .unassignedOpcode := by decide
theorem test_decode_refuses_zero_field : decodeSlot .S false 0x010E_0C10_8000_0001 = .error .zeroField := by decide
theorem test_decode_refuses_predicate : decodeSlot .S false 0x01C0_0C10_8000_0000 = .error .predicateNumber := by decide
/-- THINT's hints are 0 to 4 (12 R250). -/
theorem test_decode_refuses_hint : decodeSlot .C false 0x1300_0280_0000_0000 = .error .illegalField := by decide
/-- The stream operations stand in V1 with K = 0 alone (05 R93). -/
theorem test_decode_refuses_stream_in_v0 : decodeSlot .V0 false 0x7200_4150_0000_0000 = .error .unassignedOpcode := by decide
theorem test_decode_table_word : decodeTableWord 64 0x010E_0C10_8000_0000 = some (.add 3 1 2) := by decide

/-! ### Helpers: ctx0 of core 0 after reset, with what a test needs -/

abbrev x0 : CtxId := ⟨0, false⟩
/-- The state after reset with ctx0 of core 0 changed. -/
def with0 (f : Ctx → Ctx) : State := State.reset.modCtx x0 f
/-- g1 and g2 hold two values. -/
def twoG (a b : Word) : State := with0 fun c => { c with regs := { c.regs with g := (c.regs.g.set 1 a).set 2 b } }
/-- At system level. -/
def system (a b : Word) : State := (twoG a b).modCtx x0 fun c => { c with sys := { c.sys with pl := true } }
/-- v1 and v2 hold two values. -/
def twoV (a b : VWord) : State := with0 fun c => { c with v := (c.v.set 1 a).set 2 b }
/-- What an instruction puts in flight, with its latency. -/
def results (i : Instr) (s : State) : List (Nat × Res) :=
  match exec i s with
  | .next t => t.cur.flow.inflight.map fun f => (f.left, f.res)
  | _ => []
/-- The causes that an instruction's slot raises. -/
def raised (i : Instr) (s : State) : List (BitVec 16 × Word) :=
  match exec i s with
  | .next t => t.iss.faults.map fun f => (f.code, f.tval)
  | _ => []
/-- A view of the state after an instruction. -/
def view {α : Type} (i : Instr) (s : State) (f : State → α) : Option α :=
  match exec i s with
  | .next t => some (f t)
  | _ => none
/-- A vector of lanes 0, 1, 2, …: lane n holds n. -/
def iota : VWord := ofLanes fun n => BitVec.ofNat 32 n

/-! ### Scalar operations (06) -/

theorem test_add_wraps : results (.add 3 1 2) (twoG (BitVec.allOnes 64) 2) = [(1, .g 3 1)] := by decide +kernel
theorem test_sub_wraps : results (.sub 3 1 2) (twoG 1 2) = [(1, .g 3 (BitVec.allOnes 64))] := by decide +kernel
theorem test_mul_low : results (.mul 3 1 2) (twoG (2 ^ 63) 3) = [(3, .g 3 (2 ^ 63))] := by decide +kernel
theorem test_mulh_signed : results (.mulh 3 1 2) (twoG (BitVec.allOnes 64) 1) = [(3, .g 3 (BitVec.allOnes 64))] := by decide +kernel
theorem test_mulhn_unsigned : results (.mulhn 3 1 2) (twoG (BitVec.allOnes 64) 2) = [(3, .g 3 1)] := by decide +kernel
theorem test_div_truncates : results (.div 3 1 2) (twoG (-7) 2) = [(18, .g 3 (-3))] := by decide +kernel
theorem test_div_by_zero : results (.div 3 1 2) (twoG 5 0) = [(18, .g 3 (BitVec.allOnes 64))] := by decide +kernel
theorem test_divn : results (.divn 3 1 2) (twoG (-1) 2) = [(18, .g 3 0x7FFF_FFFF_FFFF_FFFF)] := by decide +kernel
theorem test_rem_sign_of_dividend : results (.rem 3 1 2) (twoG (-7) 2) = [(18, .g 3 (-1))] := by decide +kernel
theorem test_remn_by_zero : results (.remn 3 1 2) (twoG 9 0) = [(18, .g 3 9)] := by decide +kernel
theorem test_andn : results (.andn 3 1 2) (twoG 0xFF 0x0F) = [(1, .g 3 0xF0)] := by decide +kernel
theorem test_shl_uses_low_six_bits : results (.shl 3 1 2) (twoG 1 65) = [(1, .g 3 2)] := by decide +kernel
theorem test_sha : results (.sha 3 1 2) (twoG (-8) 1) = [(1, .g 3 (-4))] := by decide +kernel
theorem test_rot_left : results (.rot 3 1 2) (twoG (2 ^ 63) 1) = [(1, .g 3 1)] := by decide +kernel
theorem test_min_signed : results (.min 3 1 2) (twoG (-1) 1) = [(1, .g 3 (-1))]
    ∧ results (.minn 3 1 2) (twoG (-1) 1) = [(1, .g 3 1)] := by decide +kernel
theorem test_clz : results (.clz 3 1) (twoG 1 0) = [(1, .g 3 63)] ∧ results (.clz 3 2) (twoG 1 0) = [(1, .g 3 64)] := by decide +kernel
theorem test_ctz : results (.ctz 3 1) (twoG 8 0) = [(1, .g 3 3)] := by decide +kernel
theorem test_popc : results (.popc 3 1) (twoG 0xF1 0) = [(1, .g 3 5)] := by decide +kernel
theorem test_sel_p0 : results (.sel 3 0 1 2) (twoG 8 9) = [(1, .g 3 8)] := by decide +kernel
theorem test_addi_sign_extends : results (.addi 3 1 (-1)) (twoG 8 9) = [(1, .g 3 7)] := by decide +kernel
theorem test_movi_movhi : results (.movi 3 (-1)) (twoG 0 0) = [(1, .g 3 (BitVec.allOnes 64))]
    ∧ results (.movhi 1 1) (twoG 5 0) = [(1, .g 1 (2 ^ 42 + 5))] := by decide +kernel
theorem test_g0_reads_zero : results (.add 3 0 1) (twoG 8 0) = [(1, .g 3 8)] := by decide +kernel
theorem test_cmp_signed : results (.cmp 5 1 2 .lt) (twoG (-1) 1) = [(1, .p 5 true)]
    ∧ results (.cmp 5 1 2 .ltn) (twoG (-1) 1) = [(1, .p 5 false)] := by decide +kernel
theorem test_cmp_bits : results (.cmp 5 1 2 .bs) (twoG 6 2) = [(1, .p 5 true)]
    ∧ results (.cmpi 5 1 9 .bc) (twoG 6 2) = [(1, .p 5 true)] := by decide +kernel
theorem test_pandn : results (.pandn 5 0 1) (twoG 0 0) = [(1, .p 5 true)] := by decide +kernel
/-- Offsets wrap within 40 bits; the identifier stays. -/
theorem test_aadd_wraps :
    results (.aadd 2 1 1 0) (with0 fun c => { c with regs := { c.regs with
      a := c.regs.a.set 1 (mkAddr 7 (BitVec.allOnes 40)), g := c.regs.g.set 1 2 } })
      = [(1, .a 2 (mkAddr 7 1)), (1, .stride 2 0)] := by decide +kernel
theorem test_abind : results (.abind 2 1 2) (twoG 7 16) = [(1, .a 2 (mkAddr 7 16))] := by decide +kernel
theorem test_br_backwards : view (.br (-1)) State.reset (·.iss.target) = some (some (BitVec.allOnes 51)) := by decide +kernel
theorem test_call_links : results (.call 3 4) State.reset = [(1, .g 3 1)] := by decide +kernel
theorem test_loop_of_zero_skips : view (.loop 0 1 3 0) (twoG 0 0) (·.iss.target) = some (some 4)
    ∧ view (.loop 0 1 3 0) (twoG 2 0) (fun t => (t.iss.target, t.cur.regs.loop.act)) = some (none, 1) := by decide +kernel
theorem test_chk_raises : raised (.chk 1 2 .g) (twoG 1 2) = [(0x0012, 0)] ∧ raised (.chk 1 1 .g) (twoG 1 2) = [] := by decide +kernel
theorem test_spawn_misaligned : raised (.spawn 1 0) (twoG 65 0) = [(0x0004, 65)] := by decide +kernel
theorem test_mtc_checks_format : raised (.mtc 0x11 1) (twoG 28 0) = [(0x0005, 0)]
    ∧ results (.mtc 0x11 1) (twoG 27 0) = [(1, .creg 0x11 27)] := by decide +kernel
theorem test_mfs_at_user_level : raised (.mfs 1 1) (twoG 0 0) = [(0x0002, 0)] := by decide +kernel
theorem test_mfs_status : results (.mfs 1 0) (system 0 0) = [(1, .g 1 1)] := by decide +kernel
theorem test_mfs_unassigned : raised (.mfs 1 0x3FF) (system 0 0) = [(0x0001, 0)] := by decide +kernel
theorem test_mts_vector_alignment : raised (.mts 5 1) (system 8 0) = [(0x0001, 0)]
    ∧ results (.mts 5 1) (system 16 0) = [(1, .sreg 5 16)] := by decide +kernel
theorem test_ctxsv_alignment : raised (.ctxsv 1) (system 64 0) = [(0x0004, 64)] := by decide +kernel

/-! ### Hypotheses of the scalar statements -/

/-- A body of bundles 4 to 9 on level 1, its count given. -/
def loopRegs (n : BitVec 32) : Regs :=
  { lc := (Vector.replicate 4 0).set 1 n
    loop := { act := 2, start := (Vector.replicate 4 0).set 1 4, fin := (Vector.replicate 4 0).set 1 9 } }

/-- Levels 0 and 1 end at the same bundle. -/
def nested (n : BitVec 32) : Regs := { loopRegs n with loop := { (loopRegs n).loop with act := 3, fin := Vector.replicate 4 9 } }
/-- Level 1 is pipelined, with three stages, the first live. -/
def piped (n : BitVec 32) (drn : Bool) : Regs :=
  { loopRegs n with p := 1 ||| (1#96 <<< 88), loop := { (loopRegs n).loop with pipe := true, plv := 1, sm1 := 2, drn := drn } }

theorem witness_LoopEngine :
    (∃ off : BitVec 32, ∃ u : BAddr, ((u.toNat : Nat) : Int) = (State.reset.iss.pc.toNat + off.toInt) % 2 ^ 51)
    ∧ (∃ s : State, (s.gval 1).toNat % 2 ^ 32 = 0) ∧ (∃ s : State, ∃ sm1 : BitVec 3, (s.gval 1).toNat % 2 ^ 32 ≠ 0 ∧ sm1 ≠ 0)
    ∧ (∀ drn : Bool, let r := loopRegs 2
       ¬(r.loop.pipe = true ∧ r.loop.plv = 1) ∧ 1 < (r.lc[1]).toNat ∧ { r.loop with drn := drn }.drn = drn)
    ∧ ((loopRegs 1).lc[1].toNat ≤ 1 ∧ ∀ j, ¬ EndsWith (loopRegs 1) 1 j)
    ∧ ((nested 1).lc[1].toNat ≤ 1 ∧ EndsWith (nested 1) 1 0 ∧ ∀ i, EndsWith (nested 1) 1 i → i.toNat ≤ (0 : CReg).toNat)
    ∧ ((piped 2 false).loop.pipe = true ∧ (piped 2 false).loop.plv = 1)
    ∧ (let c : Ctx := { (State.reset.ctx x0) with regs := loopRegs 2, flow := { pc := 9 } }
       c.flow.group = none ∧ c.regs.loop.act.getLsbD 1 = true ∧ (∀ j : CReg, (1 : CReg).toNat < j.toNat → c.regs.loop.act.getLsbD j.toNat = false)
        ∧ c.regs.loop.fin[1] = c.flow.pc) := by
  unfold EndsWith
  exact ⟨⟨-1, BitVec.allOnes 51, by decide +kernel⟩, ⟨State.reset, by decide +kernel⟩, ⟨twoG 1 0, 1, by decide +kernel⟩, by decide +kernel,
    by decide +kernel, by decide +kernel, by decide +kernel, by decide +kernel⟩
/-- With p88 true and two iterations the pass goes on, p88 and p89 true; with no stage live it ends, or restarts after a drain. -/
theorem test_pipelined_pass :
    (((piped 2 false).passEnd 1 4).1.p.extractLsb' 88 3, ((piped 2 false).passEnd 1 4).2) = (3, 4, false)
    ∧ ({ piped 0 false with p := 1 }.passEnd 1 4).2 = (10, false)
    ∧ (({ piped 2 true with p := 1 }.passEnd 1 4).1.p.extractLsb' 88 3, ({ piped 2 true with p := 1 }.passEnd 1 4).2) = (1, 4, true) := by
  decide +kernel
/-- The last pass ends the level and goes on after the body; an earlier one starts again. -/
theorem test_pass_end : (((loopRegs 2).passEnd 1 4).2.1, ((loopRegs 1).passEnd 1 4).2.1) = (4, 10) := by decide +kernel

theorem witness_ControlTransfer :
    (∃ off : BitVec 32, ∃ t : BAddr, ((t.toNat : Nat) : Int) = (State.reset.iss.pc.toNat + off.toInt) % 2 ^ 51)
    ∧ (∃ s : State, ∃ o24 : BitVec 24, ∃ t : BAddr, ((t.toNat : Nat) : Int) = (s.iss.pc.toNat + o24.toInt) % 2 ^ 51
        ∧ condSays .eq (s.gval 1) (s.gval 2))
    ∧ ¬ condSays .ne ((twoG 3 3).gval 1) ((twoG 3 3).gval 2)
    ∧ (5 : BAddr).toNat = ((twoG 5 0).gval 1).toNat % 2 ^ 51
    ∧ ((twoG 64 0).gval 1).toNat % 64 = 0 ∧ (twoG 64 0).cur.ns < 96
    ∧ State.reset.cur.readG 1 = State.reset.cur.readG 2 ∧ State.reset.cur.readV 1 = State.reset.cur.readV 2
    ∧ State.reset.cur.readA 1 = State.reset.cur.readA 2 ∧ State.reset.cur.readStride 1 = State.reset.cur.readStride 2
    ∧ State.reset.cur.readK 1 = State.reset.cur.readK 2 ∧ State.reset.pval 1 = State.reset.pval 2 :=
  ⟨⟨8, 8, by decide +kernel⟩, ⟨State.reset, -1, BitVec.allOnes 51, by decide +kernel, by unfold condSays; decide +kernel⟩,
    by unfold condSays; decide +kernel, by decide +kernel⟩

theorem witness_ScalarFaultCauses :
    ((twoG 65 0).gval 1).toNat % 64 ≠ 0 ∧ (twoG 1 2).cur.readG 1 ≠ (twoG 1 2).cur.readG 2
    ∧ (twoV 1 2).cur.readV 1 ≠ (twoV 1 2).cur.readV 2
    ∧ (with0 fun c => { c with regs := { c.regs with a := c.regs.a.set 1 7, stride := c.regs.stride.set 2 1, k := c.regs.k.set 1 1 } }).cur.readK 1 ≠
        State.reset.cur.readK 2
    ∧ (let c := (with0 fun c => { c with regs := { c.regs with a := c.regs.a.set 1 7, stride := c.regs.stride.set 2 1 } }).cur
       c.readA 1 ≠ c.readA 2 ∧ c.readStride 2 ≠ c.readStride 3)
    ∧ State.reset.pval 0 ≠ State.reset.pval 1
    ∧ (28 ≤ ((twoG 28 0).gval 1).toNat % 32) ∧ 5 ≤ ((twoG (5 * 2 ^ 16) 0).gval 1).toNat / 2 ^ 16 % 8
    ∧ ((twoG 3 0).gval 1).toNat % 4 = 3 ∧ ((twoG 8 5).gval 1).toNat % 8 = 0 ∧ 5 ≤ ((twoG 8 5).gval 2).toNat % 8
    ∧ State.reset.cur.sys.pl = false := by decide +kernel

theorem witness_ControlRegisters :
    (let u := (twoG 0x4_FF1B 0).gval 1
     (u.toNat % 32 < 28 ∧ u.toNat / 2 ^ 16 % 8 < 5) ∧ u.toNat % 4 = 3)
    ∧ ((twoG 2 4).gval 1).toNat % 4 ≠ 3 ∧ ((twoG 2 4).gval 2).toNat % 8 ≠ 0 ∧ ((twoG 2 4).gval 2).toNat % 8 < 5
    ∧ 0x11 ≤ (0x11 : BitVec 8).toNat ∧ (0x2F : BitVec 8).toNat ≤ 0x2F ∧ (0x50 : BitVec 8).toNat ≤ 0x53 := by decide +kernel

theorem witness_SystemRegisters :
    (system 16 4096).cur.sys.pl = true ∧ ((system 8 0).gval 1).toNat % 16 ≠ 0 ∧ ((system 16 4096).gval 1).toNat % 4096 ≠ 0
    ∧ ((system 16 4096).gval 1).toNat % 16 = 0 ∧ ((system 16 4096).gval 2).toNat % 4096 = 0
    ∧ (0x00E : BitVec 10).toNat ≤ 0x00E ∧ (0x00E : BitVec 10) ∉ [(0x005 : BitVec 10), 0x00A, 0x00C] := by decide +kernel

theorem witness_assigned_numbers :
    (∀ n ∈ [(0x00E : BitVec 10), 0x100, 0x102, 0x110, 0x120, 0x140, 0x144, 0x148, 0x14C, 0x160, 0x183, 0x188, 0x189, 0x1A0, 0x1A2, 0x1C0, 0x23F],
      assigned n.toNat ∧ (State.reset.readSreg x0 n).isSome = true)
    ∧ ∀ n ∈ [(0x00F : BitVec 10), 0x0FF, 0x103, 0x10F, 0x121, 0x13F, 0x145, 0x147, 0x14D, 0x15F, 0x184, 0x187, 0x18A, 0x19F, 0x1A3, 0x1BF, 0x240, 0x3FF],
      ¬ assigned n.toNat ∧ (State.reset.readSreg x0 n).isNone = true := by
  unfold assigned
  exact ⟨by decide +kernel, by decide +kernel⟩

/-- A context at system level that waits in a phase. -/
def inPhase (p : Phase) : State :=
  with0 fun c => { c with sys := { c.sys with pl := true }, flow := { c.flow with phase := p }, task := some 0 }
/-- The record of a task: a solo task of no launch. -/
def aTask : Task := { noTask 1 0 with key := 0, state := 2 }
def withTask (s : State) : State := { s with work := { s.work with tasks := [aTask], nextTask := 1 } }

theorem witness_TrapReturns :
    (inPhase (.sys .tretResume)).cur.sys.pl = true ∧ ((inPhase (.sys .tretResume)).ctx x0).sys.mowned = false
    ∧ ((inPhase (.sys .tretResume)).ctx x0).flow.phase = .sys .tretResume
    ∧ ((inPhase (.sys (.tretEnd 9))).ctx x0).flow.phase = .sys (.tretEnd 9)
    ∧ ((inPhase (.sys .tretYield)).ctx x0).flow.phase = .sys .tretYield
    ∧ ((inPhase (.sys (.tretEnd 9))).ctx x0).task = some 0
    ∧ (withTask (inPhase (.sys (.tretEnd 9)))).task? 0 = some aTask := by decide +kernel

/-- A core whose L1 TLB holds one page. -/
def onePage (s : State) : State := s.modCore 0 fun k => { k with tlb := [placedEntry 0 0] }

theorem witness_SystemOperations :
    ((system 64 4096).gval 1).toNat % 4096 ≠ 0 ∧ ((system 64 4096).gval 2).toNat % 4096 = 0
    ∧ ((inPhase (.sys (.tlbi 0 true 0 []))).ctx x0).flow.phase = .sys (.tlbi 0 true 0 [])
    ∧ ((inPhase (.sys (.tlbi 1 true 0 []))).ctx x0).flow.phase = .sys (.tlbi 1 true 0 [])
    ∧ ((inPhase (.sys (.tlbi 2 false 0 []))).ctx x0).flow.phase = .sys (.tlbi 2 false 0 [])
    ∧ (inPhase .run).cur.sys.mowned = false ∧ (inPhase .run).cur.sys.msave.toNat % 4096 = 0 ∧ (inPhase .run).cur.counts.nt = [] := by
  decide +kernel

/-- Die 0 translates the first GiB of space 0 to itself: one leaf in frame 17, which its walk cache reaches (19 R340). -/
def identity (s : State) : State :=
  { s.modDie 0 fun z => { z with walk := [⟨0, 3, 0, BitVec.ofNat 64 (17 * 4096 + 1)⟩] } with
    mem := { s.mem with cells := bytesAt (17 * 4096) (natToBytes 0x3F3 2) } }
/-- A context at system level with a root, its save area at 128 KiB. -/
def rooted (owned : Bool) : State :=
  identity (with0 fun c => { c with sys := { c.sys with pl := true, troot := 1, msave := 0x20000, mowned := owned } })
def isGot : SysRead → Bool
  | .got _ => true
  | _ => false
theorem got_of_isGot (r : State × SysRead) (h : isGot r.2 = true) : ∃ u bs, r = (u, .got bs) := by
  obtain ⟨u, q⟩ := r
  cases q <;> simp_all [isGot]
/-- A result whose second part is known. -/
theorem pair_of {α β : Type} (r : α × β) (b : β) (h : r.2 = b) : r = (r.1, b) := by rw [← h]
theorem second_is {α β : Type} (r : α × β) (b : β) (h : r.2 = b) : ∃ u, r = (u, b) := ⟨r.1, by rw [← h]⟩

/-! Lengths, and writes that end in one way or another whatever their bytes are. -/

theorem natToBytes_len (v : Nat) : ∀ n, (natToBytes v n).length = n
  | 0 => rfl
  | n + 1 => by simp [natToBytes, natToBytes_len (v / 256) n]
theorem flatMap_len {α : Type} (f : α → List Byte) (n : Nat) (l : List α) (h : ∀ a, (f a).length = n) : (l.flatMap f).length = l.length * n := by
  induction l with
  | nil => simp
  | cons a t ih => rw [List.flatMap_cons, List.length_append, h, ih, List.length_cons, Nat.succ_mul, Nat.add_comm]
theorem padTo_len (n : Nat) (l : List Byte) : (padTo n l).length = n := by simp [padTo]; omega
theorem tileBytes_len (r : Regs) : (tileBytes r).length = 4 * 16384 := by
  rw [tileBytes, flatMap_len _ 16384 _ (fun i => natToBytes_len _ _), List.length_range]
theorem weightDesc_len (c : Ctx) : c.weightDesc.length = 128 := padTo_len _ _
/-- The lines of a write of n bytes over its segments. -/
def wlines (va n : Nat) (segs : List (Nat × Nat)) : List Nat := segs.flatMap fun p => linesOf (p.2 + max va (p.1 * 4096) % 4096)
  (min (va + n) (p.1 * 4096 + 4096) - max va (p.1 * 4096))
theorem sysWrite_done (s u : State) (d : BitVec 2) (root : Word) (va : Nat) (bs : List Byte) (again : Act) (segs : List (Nat × Nat))
    (hs : s.sysSegs d root va true (pagesOf [(va, bs.length)]) = (u, .ok segs)) (hc : u.clearLines true again (wlines va bs.length segs) = none) :
    ∃ v, s.sysWrite d root va bs again = (v, .done) := by
  refine second_is _ _ ?_
  simp only [wlines] at hc
  simp only [State.sysWrite, hs, List.flatMap_map, hc]
theorem sysWrite_bad (s : State) (d : BitVec 2) (root : Word) (va : Nat) (bs : List Byte) (again : Act)
    (hs : s.sysSegs d root va true (pagesOf [(va, bs.length)]) = (s, .error .bad)) : s.sysWrite d root va bs again = (s, .bad) := by
  simp [State.sysWrite, hs, State.sysAgain]

def toSave : State := (rooted false).stopWork x0
def saveSegs : List (Nat × Nat) := (List.range 17).map fun i => (i + 32, (i + 32) * 4096)
theorem toSave_segs : (toSave.sysSegs 0 1 0x20000 true (pagesOf [(0x20000, 65664)])).2 = .ok saveSegs := by decide +kernel
theorem toSave_clear : (toSave.sysSegs 0 1 0x20000 true (pagesOf [(0x20000, 65664)])).1.clearLines true (.bitErrors 0 []) (wlines 0x20000 65664 saveSegs)
    = none := Option.isNone_iff_eq_none.mp (by decide +kernel)
theorem toSave_done (bs : List Byte) (h : bs.length = 65664) : ∃ u, toSave.sysWrite 0 1 0x20000 bs (.bitErrors 0 []) = (u, .done) :=
  sysWrite_done _ _ _ _ _ _ _ saveSegs (by rw [h, ← toSave_segs]) (by rw [h]; exact toSave_clear)
theorem witness_ArrayOwnership :
    (let s := rooted false;
      s.cur.sys.pl = true ∧ s.cur.sys.mowned = false ∧ s.cur.sys.msave.toNat % 4096 = 0 ∧ s.cur.counts.nt = []
      ∧ ∃ u, (s.stopWork s.iss.x).sysWrite s.iss.x.die s.cur.sys.troot s.cur.sys.msave.toNat
          (tileBytes (s.stopWork s.iss.x).cur.regs ++ (s.stopWork s.iss.x).cur.weightDesc) (.bitErrors 0 []) = (u, .done))
    ∧ (let s := rooted true;
      s.cur.sys.pl = true ∧ s.cur.sys.mowned = true ∧ s.cur.counts.nt = []
      ∧ ∃ u bs, s.sysRead s.iss.x.die s.cur.sys.troot s.cur.sys.msave.toNat 65664 (.bitErrors 0 []) = (u, .got bs)) :=
  ⟨⟨by decide +kernel, by decide +kernel, by decide +kernel, by decide +kernel, by
    have e1 : (rooted false).iss.x.die = 0 := rfl
    have e2 : (rooted false).cur.sys.troot = 1 := by decide +kernel
    have e3 : (rooted false).cur.sys.msave.toNat = 0x20000 := by decide +kernel
    rw [e1, e2, e3]
    exact toSave_done _ (by rw [List.length_append, tileBytes_len, weightDesc_len])⟩,
    by decide +kernel, by decide +kernel, by decide +kernel, got_of_isGot _ (by decide +kernel)⟩
/-- MOWN with a save area that is on no page, and MOWN and MGIVE with an operation counted that cannot stop. -/
def waitingOn (owned : Bool) : State := (rooted owned).modCtx x0 fun c => { c with counts := { c.counts with nt := [9] } }
theorem witness_ArrayWaits :
    (let s := (rooted false).modCtx x0 fun c => { c with sys := { c.sys with msave := 0x20008 } };
      s.cur.sys.pl = true ∧ s.cur.sys.mowned = false ∧ s.cur.sys.msave.toNat % 4096 ≠ 0)
    ∧ ((waitingOn false).cur.sys.pl = true ∧ (waitingOn false).cur.sys.mowned = false ∧ (waitingOn false).cur.sys.msave.toNat % 4096 = 0
      ∧ (waitingOn false).iss.block = none ∧ 9 ∈ (waitingOn false).cur.counts.nt ∧ (waitingOn false).cur.canStop = false)
    ∧ ((waitingOn true).cur.sys.pl = true ∧ (waitingOn true).cur.sys.mowned = true ∧ (waitingOn true).iss.block = none ∧ (waitingOn true).cur.counts.nt ≠ []) := by decide +kernel

/-! ### Vector, stream, memory and scratchpad operations (07, 13, 09) -/

/-- Lane 1 of the vector results that an instruction puts in flight. -/
def lane1 (i : Instr) (s : State) : List (Nat × BitVec 32) :=
  match exec i s with
  | .next t => t.cur.flow.inflight.filterMap fun f => match f.res with
    | .v _ _ d => some (f.left, lane d 1)
    | _ => none
  | _ => []
/-- Every lane of v1 holds `a`, of v2 `b`. -/
def lanes (a b : BitVec 32) : State := twoV (ofLanes fun _ => a) (ofLanes fun _ => b)

theorem test_vadd_saturates : lane1 (.vadd 3 1 (.reg 2) 0 .ss) (lanes 0x7FFF_FFFF 1) = [(2, 0x7FFF_FFFF)]
    ∧ lane1 (.vadd 3 1 (.imm (-1)) 0 .us) (lanes 0 0) = [(2, 0xFFFF_FFFF)] := by decide +kernel
theorem test_vsub_saturates_unsigned : lane1 (.vsub 3 1 (.reg 2) 0 .us) (lanes 1 2) = [(2, 0)] := by decide +kernel
theorem test_vmulh : lane1 (.vmulh 3 1 (.reg 2) 0 .wrap) (lanes (-1) 2) = [(2, -1)] := by decide +kernel
theorem test_vabs_wraps : lane1 (.vabs 3 1 0 .wrap) (lanes 0x8000_0000 0) = [(2, 0x8000_0000)]
    ∧ lane1 (.vabs 3 1 0 .ss) (lanes 0x8000_0000 0) = [(2, 0x7FFF_FFFF)] := by decide +kernel
theorem test_vsha : lane1 (.vsha 3 1 (.reg 2) 0 .wrap) (lanes 0x8000_0000 31) = [(2, -1)] := by decide +kernel
theorem test_vcmp : results (.vcmp 3 1 (.reg 2) 0 .lt) (twoV iota 0) = [(2, .k 3 0)]
    ∧ results (.vcmp 3 1 (.imm 2) 0 .lt) (twoV iota 0) = [(2, .k 3 3)] := by decide +kernel
/-- 1.0 + 2.0, 3.0 * 0.5, and the canonical NaN. -/
theorem test_vfadd_vfmul : lane1 (.vfadd 3 1 2 0) (lanes 0x3F80_0000 0x4000_0000) = [(4, 0x4040_0000)]
    ∧ lane1 (.vfmul 3 1 2 0) (lanes 0x4040_0000 0x3F00_0000) = [(4, 0x3FC0_0000)]
    ∧ lane1 (.vfadd 3 1 2 0) (lanes 0x7F80_0000 0xFF80_0000) = [(4, 0x7FC0_0000)] := by decide +kernel
theorem test_vfma_rounds_once :
    lane1 (.vfma 3 1 1 2 0) (lanes 0x3F80_0001 0xBF80_0002) = [(4, 0x2880_0000)] := by decide +kernel
theorem test_vfcmp_unordered : results (.vfcmp 3 1 2 0 .un) (lanes 0x7FC0_0000 0) = [(4, .k 3 (BitVec.allOnes 64))]
    ∧ results (.vfcmp 3 1 2 0 .lt) (lanes 0x7FC0_0000 0) = [(4, .k 3 0)] := by decide +kernel
theorem test_vexp2_of_integer : lane1 (.vexp2 3 1 0) (lanes 0x4040_0000 0) = [(8, 0x4100_0000)] := by decide +kernel
theorem test_vrcp_of_zero : lane1 (.vrcp 3 1 0) (lanes 0x8000_0000 0) = [(8, 0xFF80_0000)] := by decide +kernel
/-- −1 as a lane integer converts to −1.0. -/
theorem test_vcvt_from_integer : lane1 (.vcvt 3 1 0 .i32 (.code 7)) (lanes (-1) 0) = [(3, 0xBF80_0000)] := by decide +kernel
theorem test_vbfx_signed : lane1 (.vbfx 3 1 (.imm 4) 4 1 0) (lanes 0x80 0) = [(2, 0xFFFF_FFF8)]
    ∧ lane1 (.vbfx 3 1 (.imm 4) 4 0 0) (lanes 0x80 0) = [(2, 8)] := by decide +kernel
theorem test_vfsh : lane1 (.vfsh 3 1 2 (.imm 4) 0) (lanes 0x10 0x3) = [(2, 0x3000_0001)] := by decide +kernel
theorem test_vslide : lane1 (.vslide 3 1 2 5 0) (twoV iota 0) = [(3, 6)] := by decide +kernel
theorem test_vperm_uses_low_six_bits : lane1 (.vperm 3 1 2 0) (twoV iota (ofLanes fun _ => 69)) = [(3, 5)] := by decide +kernel
theorem test_vradd : results (.vradd 3 1 0) (twoV iota 0) = [(6, .g 3 2016)] := by decide +kernel
theorem test_kpop : results (.kpop 3 0) State.reset = [(2, .g 3 64)] := by decide +kernel

/-! ### Hypotheses of the vector and stream statements -/

theorem witness_PermutationResults : 1 ≤ (32 : BitVec 6).toNat ∧ (32 : BitVec 6).toNat ≤ 32 ∧ 1 ≤ (1 : BitVec 6).toNat := by decide

/-- A mask of lane 0, a number below zero and two that compare. -/
theorem witness_VectorFloatResults :
    (f32 0x7FC0_0000).isNaN = true ∧ (f32 0x3F80_0000).isNaN = false
    ∧ (State.reset.cur.readK 1).getLsbD 0 = false ∧ (State.reset.cur.readK 0).getLsbD 63 = true
    ∧ (∃ x mant ex, f32 x = .fin true mant ex ∧ mant ≠ 0) :=
  ⟨by decide +kernel, by decide +kernel, by decide +kernel, by decide +kernel, 0xBF80_0000, 8388608, -23, by decide +kernel, by decide⟩

theorem witness_LookupResults :
    (∀ r, (100 : BitVec 11).toNat ≤ r → r < (100 : BitVec 11).toNat + 2 ^ ((6 : BitVec 4).toNat - 6) →
      State.reset.rowBarred State.reset.iss.x r = false) ∧ State.reset.iss.ports = [] := by
  refine ⟨fun r h1 h2 => ?_, rfl⟩
  have : r = 100 := by simp at h1 h2; omega
  subst this
  decide +kernel

/-- s1, s2 and s3 of classes 1, 1 and 2 of the current length, s4 of another length. -/
def streams : State :=
  with0 fun c => { c with sreg := (((c.sreg.set 1 ⟨7, 1, 1⟩).set 2 ⟨5, 1, 1⟩).set 3 ⟨9, 2, 1⟩).set 4 ⟨1, 3, 0⟩ }
theorem ready_of (s : State) (ops : List SReg)
    (h : (decide ((s.core s.iss.x.core).ocarina ≤ s.dc) && ops.all fun r => (s.cur.readS r).len == s.cur.regs.slen) = true) :
    StreamReady s ops := by
  simpa [StreamReady] using h
/-- The unit is occupied until dc 3. -/
def busyUnit : State := streams.modCore 0 fun k => { k with ocarina := 3 }
theorem witness_StreamLogic :
    (StreamReady streams [1, 3] ∧ (streams.cur.readS 1).cls ≠ (streams.cur.readS 3).cls)
    ∧ (StreamReady streams [1, 2] ∧ (streams.cur.readS 1).cls = (streams.cur.readS 2).cls)
    ∧ (StreamReady streams [1, 2, 3] ∧ (streams.cur.readS 3).cls ≠ (streams.cur.readS 1).cls
        ∧ (streams.cur.readS 3).cls ≠ (streams.cur.readS 2).cls)
    ∧ (streams.core streams.iss.x.core).ocarina ≤ streams.dc ∧ (streams.cur.readS 4).len ≠ streams.cur.regs.slen
    ∧ (streams.cur.readS 1).len = streams.cur.regs.slen ∧ ((streams.cur.readS 2).cls = (streams.cur.readS 1).cls)
    ∧ (busyUnit.dc < (busyUnit.core busyUnit.iss.x.core).ocarina ∧ busyUnit.iss.block = none) :=
  ⟨⟨ready_of _ _ (by decide +kernel), by decide +kernel⟩, ⟨ready_of _ _ (by decide +kernel), by decide +kernel⟩,
    ⟨ready_of _ _ (by decide +kernel), by decide +kernel, by decide +kernel⟩, by decide +kernel⟩
theorem witness_StreamUnits :
    streams.cur.regs.slen ≠ 3 ∧ StreamReady streams [] ∧ StreamReady streams [1]
    ∧ (f32 (lane (streams.cur.readV 0) 0)).isNaN = false ∧ (f32 (lane ((twoV (ofLanes fun _ => 0x7FC0_0000) 0).cur.readV 1) 0)).isNaN = true :=
  ⟨by decide +kernel, ready_of _ _ (by decide +kernel), ready_of _ _ (by decide +kernel), by decide +kernel, by decide +kernel⟩
/-- A sum of two streams in one class, and a gate of two classes. -/
theorem test_stream_correlation : (raised (.sand 5 1 2) streams).map (·.1) = [0x0010] ∧ raised (.smax 5 1 2) streams = []
    ∧ raised (.sand 5 4 1) streams = [(0x0011, 4)] := by decide +kernel
/-- SSEED waits for the unit too. -/
theorem test_sseed_busy : view (.sseed 1 1 0) busyUnit (fun t => (t.iss.block.isSome, t.cur.flow.inflight.length)) = some (true, 0) := by
  decide +kernel
theorem test_sand :
    view (.sand 5 1 3) streams (fun t => t.cur.flow.inflight.map (·.left)) = some [3] := by decide +kernel

/-! ### Memory: the flat window, one page in the L1 TLB, lines in the L1 -/

/-- Addresses 0 to 2^30 − 1 are the flat window and translate to themselves; a1 names byte 4,096, lines 32 and 33 are in the
L1 (line 32 holds bytes 0x80, 0x81, 0, …), k1 selects lanes 0 and 1. -/
def flat (f : Ctx → Ctx) : State :=
  (with0 fun c => f { c with
    regs := { c.regs with a := c.regs.a.set 1 (mkAddr 0 4096), k := c.regs.k.set 1 3, g := c.regs.g.set 1 0x1234 }
    sys := { c.sys with troot := 1, flats := BitVec.ofNat 40 (2 ^ 30) } }).modCore 0 fun k => { k with
      tlb := [⟨0, 0, 2 ^ 30, 0x3F3, 0⟩], l1 := [⟨32, .s, 0x8180, 0, false⟩, ⟨33, .e, 0, 0, false⟩] }
def flat0 : State := flat id

/-- A result that passes, with a property of what it leaves. -/
theorem passes {α β : Type} (r : α × Option β) (q : α → β → Bool)
    (h : (match r with
      | (a, some b) => q a b
      | _ => false) = true) : ∃ a b, r = (a, some b) ∧ q a b = true := by
  obtain ⟨a, b⟩ := r
  cases b with
  | none => simp at h
  | some b => exact ⟨a, b, rfl, h⟩
def hits (s : State) (pas : List Nat) : Bool :=
  s.cur.sb.isEmpty && pas.all fun pa => !s.owes s.iss.x pa 1 &&
    match (s.core s.iss.x.core).l1Find (pa / 128) with
    | some l => decide (l.st ≠ .nc) && !l.poison
    | none => false
theorem hits_of (s : State) (pas : List Nat) (h : hits s pas = true) : HitsL1 s pas := by
  simp only [hits, Bool.and_eq_true, List.isEmpty_iff, List.all_eq_true] at h
  refine ⟨h.1, fun pa hp => ⟨by simpa using (h.2 pa hp).1, ?_⟩⟩
  have := (h.2 pa hp).2
  split at this
  · rename_i l hl
    exact ⟨l, hl, by simpa using this⟩
  · simp at this
def takes (s : State) (pas : List Nat) : Bool :=
  pas.all (fun pa => !s.storeOwes s.iss.x pa 1) &&
    let new := ((pas.map (· / 128)).eraseDups.filter fun l => (s.joinLine s.iss.x l (putsAt pas)).isNone).length
    decide ((s.cur.sb.filter fun l => !l.committed).length + new ≤ 64 ∧ s.cur.sb.length + new ≤ 64)
theorem takes_of (s : State) (pas : List Nat) (h : takes s pas = true) : BufferTakes s pas := by
  simp only [takes, Bool.and_eq_true, List.all_eq_true, decide_eq_true_eq] at h
  exact ⟨fun pa hp => by simpa using h.1 pa hp, h.2⟩

theorem witness_LoadHitsL1 : ∃ (s u : State) (ad : AReg) (imm : BitVec 35) (va : Nat) (ps : Pages),
    s.operand (s.cur.readA ad) imm.toInt 8 1 ⟨false, true, false⟩ = (u, some (va, ps)) ∧ u.cur.nl < 48
    ∧ HitsL1 u ((List.range 8).map fun i => pagePa ps (va + i)) := by
  obtain ⟨u, ⟨va, ps⟩, h, q⟩ := passes (flat0.operand (flat0.cur.readA 1) 0 8 1 ⟨false, true, false⟩)
    (fun u p => decide (u.cur.nl < 48) && hits u ((List.range 8).map fun i => pagePa p.2 (p.1 + i))) (by decide +kernel)
  simp only [Bool.and_eq_true, decide_eq_true_eq] at q
  exact ⟨flat0, u, 1, 0, va, ps, h, q.1, hits_of _ _ q.2⟩
/-- The load reads the line little-endian, and sign-extends. -/
theorem test_ld_halfword : view (.ld 3 1 1 1 0) flat0 (fun t => t.cur.flow.inflight.map fun f => (f.left, ((t.cur.land f.res).readG 3)))
    = some [(14, 0xFFFF_FFFF_FFFF_8180)] := by decide +kernel

/-! Loads that the store buffer answers, and loads that miss. -/

/-- A result that passes, with a decidable property of what it leaves. -/
theorem meets {α β : Type} (r : α × Option β) (P : α → β → Prop) [∀ a b, Decidable (P a b)]
    (h : (match r with
      | (a, some b) => decide (P a b)
      | _ => false) = true) : ∃ a b, r = (a, some b) ∧ P a b := by
  obtain ⟨a, b, e, q⟩ := passes r (fun a b => decide (P a b)) h
  exact ⟨a, b, e, of_decide_eq_true q⟩
/-- Lines of the store buffer over bytes 4,096 to 4,223: those of the first n bytes, each 0x55. -/
def bufLine (id n : Nat) (done : Bool) : SbLine :=
  ⟨id, 32, BitVec.ofNat 256 (4 ^ n - 1), BitVec.ofNat 1024 (0x55 * (256 ^ n - 1) / 255), done, true, 0, 0, false, [(id, BitVec.ofNat 256 (4 ^ n - 1))]⟩
def buffered (l : List SbLine) : State := flat fun c => { c with sb := l }
/-- The eight bytes at a1. -/
def eightAt (va : Nat) (ps : Pages) : List Nat := (List.range 8).map fun i => pagePa ps (va + i)
def ready8 (u : State) (pas : List Nat) : Bool :=
  decide (u.cur.nl < 48) && decide (u.iss.block = none) && pas.all fun pa => decide (pa / 128 = 32 ∧ u.owes u.iss.x pa 1 = false)
/-- Whether the lines of the buffer hold all of some bytes, or none. -/
def holdsAll (l : SbLine) (pas : List Nat) : Bool := pas.all fun pa => decide (unitBits l.mask (pa % 128) = 3)
def holdsNone (l : SbLine) (pas : List Nat) : Bool := pas.all fun pa => decide (unitBits l.mask (pa % 128) = 0)
def reads8 (s : State) : State × Option (Nat × Pages) := s.operand (s.cur.readA 1) 0 8 1 ⟨false, true, false⟩
theorem witness_LoadForwarded :
    (∃ u p, reads8 (buffered [bufLine 7 8 false]) = (u, some p) ∧ ready8 u (eightAt p.1 p.2) = true
      ∧ u.cur.sb = [bufLine 7 8 false] ∧ holdsAll (bufLine 7 8 false) (eightAt p.1 p.2) = true)
    ∧ (∃ u p, reads8 (buffered [bufLine 7 4 false]) = (u, some p) ∧ ready8 u (eightAt p.1 p.2) = true
      ∧ u.cur.sb = [bufLine 7 4 false] ∧ holdsAll (bufLine 7 4 false) (eightAt p.1 p.2) = false ∧ holdsNone (bufLine 7 4 false) (eightAt p.1 p.2) = false
      ∧ (u.core u.iss.x.core).l1Find 32 = some ⟨32, .s, 0x8180, 0, false⟩)
    ∧ (∃ u p, reads8 (buffered [bufLine 6 8 true, bufLine 7 4 false]) = (u, some p) ∧ ready8 u (eightAt p.1 p.2) = true
      ∧ u.cur.sb = [bufLine 6 8 true, bufLine 7 4 false])
    ∧ (∃ u p, reads8 (buffered [bufLine 5 4 true, bufLine 6 8 true, bufLine 7 0 true, bufLine 8 0 false]) = (u, some p)
      ∧ ready8 u (eightAt p.1 p.2) = true ∧ u.cur.sb = [bufLine 5 4 true, bufLine 6 8 true, bufLine 7 0 true, bufLine 8 0 false]
      ∧ holdsNone (bufLine 7 0 true) (eightAt p.1 p.2) = true ∧ holdsNone (bufLine 8 0 false) (eightAt p.1 p.2) = true
      ∧ holdsAll (bufLine 6 8 true) (eightAt p.1 p.2) = true)
    ∧ (∃ u p, reads8 (buffered [bufLine 5 8 true, bufLine 6 4 true]) = (u, some p) ∧ ready8 u (eightAt p.1 p.2) = true
      ∧ u.cur.sb = [bufLine 5 8 true, bufLine 6 4 true]) :=
  ⟨meets _ _ (by decide +kernel), meets _ _ (by decide +kernel), meets _ _ (by decide +kernel), meets _ _ (by decide +kernel), meets _ _ (by decide +kernel)⟩
/-- The same without its lines in the L1. -/
def missing8 : State := flat0.modCore 0 fun k => { k with l1 := [] }
def waitingLoad : Ctx := { (with0 id).ctx x0 with flow := { ((with0 id).ctx x0).flow with inflight := [⟨3, .L, true, .loadG 3 [⟨4096, none, 0, 0⟩] false⟩] } }
theorem witness_LoadMissesL1 :
    (∃ u p, reads8 missing8 = (u, some p) ∧ u.cur.nl < 48 ∧ u.cur.sb = [] ∧ ∀ pa ∈ eightAt p.1 p.2,
      u.owes u.iss.x pa 1 = false ∧ (u.core u.iss.x.core).l1Find (pa / 128) = none ∧ pa / 128 ∉ (u.core u.iss.x.core).stale)
    ∧ waitingLoad.loadWaits (fun _ => true) = true ∧ waitingLoad.flow.replies = [] ∧ (State.reset.ctx x0).loadWaits (fun _ => true) = false :=
  ⟨meets _ _ (by decide +kernel), by decide +kernel, by decide +kernel, by decide +kernel⟩
/-- A load that the open line answers alone. -/
theorem test_ld_forwarded : view (.ld 3 1 3 0 0) (buffered [bufLine 7 8 false]) (fun t => t.cur.flow.inflight.map fun f => (f.left, ((t.cur.land f.res).readG 3)))
    = some [(14, 0x5555_5555_5555_5555)] := by decide +kernel

/-- The elements of a masked row, and of a gather, in the flat window. -/
theorem witness_VectorMemoryCompletes :
    (∃ u v e f es ps rs, flat0.vecOperand (flat0.cur.readA 1) 4096 true false (rowElts (flat0.cur.readK 1) 4096) = (u, some (e, f, es, ps))
      ∧ u.cur.nl < 48 ∧ u.loadElts e f es ps (BitVec.ofInt 64 (e.base + 4096)) = (v, some rs))
    ∧ (∃ u v e f es ps rs, flat0.vecOperand (flat0.cur.readA 1) 4096 false false
        (gatherElts (flat0.cur.readK 1) 4096 fun i => lane (flat0.cur.readV 2) i) = (u, some (e, f, es, ps))
      ∧ u.cur.nl < 48 ∧ u.loadElts e f es ps (BitVec.ofInt 64 (e.base + 4096)) = (v, some rs))
    ∧ (∃ u e f es ps, flat0.vecOperand (flat0.cur.readA 1) 4096 true true (rowElts (flat0.cur.readK 1) 4096) = (u, some (e, f, es, ps)))
    ∧ (∃ u e f es ps, flat0.vecOperand (flat0.cur.readA 1) 4096 false true
        (gatherElts (flat0.cur.readK 1) 4096 fun i => lane (flat0.cur.readV 2) i) = (u, some (e, f, es, ps))) := by
  refine ⟨?_, ?_, ?_, ?_⟩
  · obtain ⟨u, ⟨e, f, es, ps⟩, h, q⟩ := passes (flat0.vecOperand (flat0.cur.readA 1) 4096 true false (rowElts (flat0.cur.readK 1) 4096))
      (fun u p => decide (u.cur.nl < 48) && (u.loadElts p.1 p.2.1 p.2.2.1 p.2.2.2 (BitVec.ofInt 64 (p.1.base + 4096))).2.isSome)
      (by decide +kernel)
    simp only [Bool.and_eq_true, decide_eq_true_eq, Option.isSome_iff_exists] at q
    obtain ⟨q, rs, hr⟩ := q
    exact ⟨u, _, e, f, es, ps, rs, h, q, Prod.ext rfl hr⟩
  · obtain ⟨u, ⟨e, f, es, ps⟩, h, q⟩ := passes (flat0.vecOperand (flat0.cur.readA 1) 4096 false false
        (gatherElts (flat0.cur.readK 1) 4096 fun i => lane (flat0.cur.readV 2) i))
      (fun u p => decide (u.cur.nl < 48) && (u.loadElts p.1 p.2.1 p.2.2.1 p.2.2.2 (BitVec.ofInt 64 (p.1.base + 4096))).2.isSome)
      (by decide +kernel)
    simp only [Bool.and_eq_true, decide_eq_true_eq, Option.isSome_iff_exists] at q
    obtain ⟨q, rs, hr⟩ := q
    exact ⟨u, _, e, f, es, ps, rs, h, q, Prod.ext rfl hr⟩
  · obtain ⟨u, ⟨e, f, es, ps⟩, h, -⟩ := passes (flat0.vecOperand (flat0.cur.readA 1) 4096 true true (rowElts (flat0.cur.readK 1) 4096))
      (fun _ _ => true) (by decide +kernel)
    exact ⟨u, e, f, es, ps, h⟩
  · obtain ⟨u, ⟨e, f, es, ps⟩, h, -⟩ := passes (flat0.vecOperand (flat0.cur.readA 1) 4096 false true
      (gatherElts (flat0.cur.readK 1) 4096 fun i => lane (flat0.cur.readV 2) i)) (fun _ _ => true) (by decide +kernel)
    exact ⟨u, e, f, es, ps, h⟩

/-- One page of the flat window, and two elements of 4 bits in one byte. -/
def onePages : Pages := [(1, ⟨0, 0, 2 ^ 30, 0x3F3, 0⟩)]
def nibbles : List EltAt := [⟨0, 4096, 1, false, none⟩, ⟨1, 4096, 1, true, none⟩]
theorem witness_VectorLoadDelivers :
    HitsL1 flat0 (nibbles.flatMap fun q => ((List.range q.n).map fun i => pagePa onePages (q.va + i)) ++ q.plane.toList.map (pagePa onePages))
    ∧ HitsL1 flat0 ([(⟨0, 4096, 1, false, some 4224⟩ : EltAt)].flatMap fun q =>
        ((List.range q.n).map fun i => pagePa onePages (q.va + i)) ++ q.plane.toList.map (pagePa onePages)) :=
  ⟨hits_of _ _ (by decide +kernel), hits_of _ _ (by decide +kernel)⟩

theorem witness_StoresToMemory :
    (∃ u va ps, flat0.operand (flat0.cur.readA 1) (0 : BitVec 22).toInt (2 ^ (3 : BitVec 2).toNat) 1 ⟨true, true, false⟩ = (u, some (va, ps))
      ∧ BufferTakes u ((List.range (2 ^ (3 : BitVec 2).toNat)).map fun i => pagePa ps (va + i))
      ∧ ∀ i, i < 2 ^ (3 : BitVec 2).toNat → ∀ j, j < 2 ^ (3 : BitVec 2).toNat → pagePa ps (va + j) = pagePa ps (va + i) → j = i)
    ∧ (∃ u va ps, flat0.operand (flat0.cur.readA 1) (0 : BitVec 30).toInt 128 128 ⟨true, true, false⟩ = (u, some (va, ps))
      ∧ BufferTakes u ((List.range 128).map fun i => pagePa ps (va + i)))
    ∧ (∀ q ∈ nibbles, q.plane = none)
    ∧ BufferTakes flat0 (nibbles.flatMap fun q => (List.range q.n).map fun i => pagePa onePages (q.va + i))
    ∧ (∀ q ∈ nibbles, ∀ r ∈ nibbles, r = q ∨ r.hi ≠ q.hi) := by
  refine ⟨?_, ?_, by decide, takes_of _ _ (by decide +kernel), by decide⟩
  · obtain ⟨u, ⟨va, ps⟩, h, q⟩ := passes (flat0.operand (flat0.cur.readA 1) (0 : BitVec 22).toInt (2 ^ (3 : BitVec 2).toNat) 1 ⟨true, true, false⟩)
      (fun u p => takes u ((List.range (2 ^ (3 : BitVec 2).toNat)).map fun i => pagePa p.2 (p.1 + i))
        && decide (∀ i, i < 2 ^ (3 : BitVec 2).toNat → ∀ j, j < 2 ^ (3 : BitVec 2).toNat → pagePa p.2 (p.1 + j) = pagePa p.2 (p.1 + i) → j = i))
      (by decide +kernel)
    simp only [Bool.and_eq_true, decide_eq_true_eq] at q
    exact ⟨u, va, ps, h, takes_of _ _ q.1, q.2⟩
  · obtain ⟨u, ⟨va, ps⟩, h, q⟩ := passes (flat0.operand (flat0.cur.readA 1) (0 : BitVec 30).toInt 128 128 ⟨true, true, false⟩)
      (fun u p => takes u ((List.range 128).map fun i => pagePa p.2 (p.1 + i))) (by decide +kernel)
    exact ⟨u, va, ps, h, takes_of _ _ q⟩
/-- The low byte of the register stands lowest in the line. -/
theorem test_st_halfword : view (.st 1 1 1 2) flat0 (fun t => t.cur.sb.map fun l => (l.line, l.mask, lineByte l.data 2, lineByte l.data 3))
    = some [(32, 0xF0, 0x34, 0x12)] := by decide +kernel

/-- A row free to the context, a row that core 0 holds for the other context, an indirect position past the last row. -/
def scratch : State := with0 fun c => { c with regs := { c.regs with a := (c.regs.a.set 1 (mkAddr 0 70)).set 2 (mkAddr 0 (2 ^ 20)), g := c.regs.g.set 1 0x1234 } }
def carved : State := flat0.modCore 0 fun k => { k with ctx1 := { k.ctx1 with task := some 1, tregs := { k.ctx1.tregs with spbase := 5, spsize := 3 } } }
theorem witness_ScratchpadAccesses :
    scratch.cur.nl < 48 ∧ scratch.cur.spPos (.direct 3 60) = some (3, 60) ∧ scratch.cur.spPos (.indirect 1) = some (6, 1)
    ∧ SpOpen scratch 3 60 4 1 ∧ SpOpen scratch 3 60 1 1
    ∧ (∀ i, i < 64 → (scratch.cur.readK 1).getLsbD i = true →
        scratch.rowBarred scratch.iss.x ((60 + (lane (scratch.cur.readV 2) i).toNat) % 2048) = false)
    ∧ scratch.iss.spWrites = [] ∧ (62 : BitVec 6).toNat + 2 ^ (1 : BitVec 2).toNat ≤ 64 :=
  ⟨by decide +kernel, by decide +kernel, by decide +kernel, ⟨by decide +kernel, by decide +kernel, fun _ => by decide +kernel⟩,
    ⟨by decide +kernel, by decide +kernel, fun _ => by decide +kernel⟩, by decide +kernel, by decide +kernel, by decide⟩
/-- Two bytes at bank 3, row 60, byte 62. -/
theorem test_stss : view (.stss 1 (.direct 3 60) 62 1 0) scratch (·.iss.spWrites)
    = some [(60 * 4096 + 3 * 64 + 62, 0x34), (60 * 4096 + 3 * 64 + 63, 0x12)] := by decide +kernel

/-- 64 open lines. -/
def fullBuffer : State :=
  flat fun c => { c with sb := (List.range 64).map fun i => ⟨i, 100 + i, 0, 0, false, false, 0, 0, false, []⟩ }
theorem witness_MemoryFaults :
    flat0.extent? x0 (addrId (mkAddr 5 0)) = none
    ∧ (∃ e, flat0.extent? x0 (addrId (flat0.cur.readA 1)) = some e ∧ (e.size : Int) < (addrOff (flat0.cur.readA 1)).toNat + (2 ^ 30 : Int) + 1
        ∧ ((addrOff (flat0.cur.readA 1)).toNat : Int) + -4097 < 0
        ∧ (0 ≤ ((addrOff (flat0.cur.readA 1)).toNat : Int) + 1 ∧ ((addrOff (flat0.cur.readA 1)).toNat : Int) + 1 + 128 ≤ e.size)
        ∧ (e.base + ((addrOff (flat0.cur.readA 1)).toNat + 1)) % 128 ≠ 0)
    ∧ (∃ u va ps, fullBuffer.operand (fullBuffer.cur.readA 1) (0 : BitVec 22).toInt 1 1 ⟨true, true, false⟩ = (u, some (va, ps))
      ∧ (∀ pa ∈ (List.range 1).map fun i => pagePa ps (va + i), u.storeOwes u.iss.x pa 1 = false)
      ∧ 64 < (u.cur.sb.filter fun l => !l.committed).length
          + ((((List.range 1).map fun i => pagePa ps (va + i)).map (· / 128)).eraseDups.filter fun l => (u.joinLine u.iss.x l (putsAt ((List.range 1).map fun i => pagePa ps (va + i)))).isNone).length)
    ∧ (carved.cur.spPos (.direct 0 5) = some (0, 5) ∧ carved.rowBarred carved.iss.x 5 = true) ∧ scratch.cur.spPos (.indirect 2) = none := by
  refine ⟨by decide +kernel, ⟨⟨0, 2 ^ 30, none, 0⟩, by decide +kernel⟩, ?_, by decide +kernel, by decide +kernel⟩
  obtain ⟨u, ⟨va, ps⟩, h, q⟩ := passes (fullBuffer.operand (fullBuffer.cur.readA 1) (0 : BitVec 22).toInt 1 1 ⟨true, true, false⟩)
    (fun u p => decide ((∀ pa ∈ (List.range 1).map fun i => pagePa p.2 (p.1 + i), u.storeOwes u.iss.x pa 1 = false)
      ∧ 64 < (u.cur.sb.filter fun l => !l.committed).length
          + ((((List.range 1).map fun i => pagePa p.2 (p.1 + i)).map (· / 128)).eraseDups.filter fun l => (u.joinLine u.iss.x l (putsAt ((List.range 1).map fun i => pagePa p.2 (p.1 + i)))).isNone).length))
    (by decide +kernel)
  exact ⟨u, va, ps, h, of_decide_eq_true q⟩
theorem test_st_past_the_window : raised (.st 1 1 0 (-4097)) (flat0) = [(0x0003, BitVec.allOnes 64)] := by decide +kernel
theorem test_sixty_fifth_line : raised (.st 1 1 0 0) fullBuffer = [(0x0006, 4096)] := by decide +kernel

theorem witness_AtomicsAndMonitors :
    (∃ u va ps, flat0.operand (flat0.cur.readA 1) (0 : BitVec 23).toInt 8 8 ⟨true, true, false⟩ = (u, some (va, ps))
      ∧ u.engineOwes u.iss.x (pagePa ps va) 8 = false ∧ u.iss.x = flat0.iss.x ∧ u.cur.ns < 96)
    ∧ (∃ u va ps, flat0.operand (flat0.cur.readA 1) (0 : BitVec 32).toInt 1 1 ⟨false, true, false⟩ = (u, some (va, ps)) ∧ u.cur.ns < 96)
    ∧ (0 < 8 ∧ 5 < 2 ^ (8 * 8)) := by
  refine ⟨?_, ?_, by decide⟩
  · obtain ⟨u, ⟨va, ps⟩, h, q⟩ := passes (flat0.operand (flat0.cur.readA 1) (0 : BitVec 23).toInt 8 8 ⟨true, true, false⟩)
      (fun u p => decide (u.engineOwes u.iss.x (pagePa p.2 p.1) 8 = false ∧ u.iss.x = flat0.iss.x ∧ u.cur.ns < 96)) (by decide +kernel)
    exact ⟨u, va, ps, h, of_decide_eq_true q⟩
  · obtain ⟨u, ⟨va, ps⟩, h, q⟩ := passes (flat0.operand (flat0.cur.readA 1) (0 : BitVec 32).toInt 1 1 ⟨false, true, false⟩)
      (fun u _ => decide (u.cur.ns < 96)) (by decide +kernel)
    exact ⟨u, va, ps, h, of_decide_eq_true q⟩
theorem test_atomic_min_signed : AtomicOp.apply .min 1 0x01 0xFF 0 = 0xFF ∧ AtomicOp.apply .minn 1 0x01 0xFF 0 = 0x01
    ∧ AtomicOp.apply .cas 8 5 5 9 = 9 ∧ AtomicOp.apply .add 2 0xFFFF 2 0 = 1 := by decide +kernel
theorem test_atomic_ends_segment : view (.atadd 0 1 1 3 0) flat0 (fun t => (t.iss.ends, t.cur.counts.ns.length)) = some (true, 1) := by
  decide +kernel

/-! ### Matrix engine and copies (08, 10) -/

/-- g1 holds a count of rows or bytes, slot 1 a valid panel of one row of ones in N8, slot 2 fills, slot 3 is bad. -/
def panels : State :=
  flat fun c => { c with w := ((c.w.set 1 { state := 2, rows := 1, data := List.replicate 64 1 }).set 2 { state := 1 }).set 3 { state := 3 }
                         regs := { c.regs with g := (c.regs.g.set 1 1).set 2 4 } }
/-- The bank and row of an MMA's A operand: 64 bytes of twos. -/
def panelsA : State := panels.modCore 0 fun k => { k with sp := bytesAt (60 * 4096) (List.replicate 64 2) }
/-- Engine work of the context. -/
def macroWork (p : WorkPhase) : Work :=
  { id := 9, kind := .mgemm, bank := 3, row := 60, fmts := State.reset.cur.regs.fmt, phase := p, step := 5, born := true }
/-- Work carried by copy job 5; a macro that ended; the same with NT full. -/
def carriedBy (j : Nat) : State := with0 fun c => { c with work := some { macroWork .carried with job := some j } }
def afterMacro : State := with0 fun c => { c with lastMacro := some (3, 60, 7) }
def fullNt : State := with0 fun c => { c with lastMacro := some (3, 60, 7), counts := { c.counts with nt := List.range 32 } }
def atWork (p : WorkPhase) : State := with0 fun c => { c with work := some (macroWork p), counts := { c.counts with nt := [9] } }

theorem witness_MatrixTilesAndStops :
    ArrayFree panels ∧ panels.rowBarred panels.iss.x (60 : BitVec 11).toNat = false ∧ panels.cur.spPos (.direct 0 60) = some (0, 60)
    ∧ (panels.cur.wslot 2).state = 1 ∧ panels.iss.block = none ∧ (panels.cur.wslot 0).state = 0 ∧ (panels.cur.wslot 3).state = 3
    ∧ (panels.cur.wslot 1).state = 2 ∧ (∃ s : State, ∃ fa, (s.cur.readFmt fa).geom ≠ 0)
    ∧ (system 0 0).cur.sys.pl = true ∧ (system 0 0).cur.sys.mowned = false ∧ (atWork .ready).cur.work.isSome = true
    ∧ (atWork .ready).cur.sys.pl = false :=
  ⟨⟨by decide +kernel, by decide +kernel⟩, by decide +kernel, by decide +kernel, by decide +kernel, by decide +kernel, by decide +kernel,
    by decide +kernel, by decide +kernel, ⟨with0 fun c => { c with regs := { c.regs with fmt := c.regs.fmt.set 1 ⟨1, 0, 7⟩ } }, 1, by decide +kernel⟩,
    by decide +kernel⟩
theorem witness_MatrixMultiply :
    ArrayFree panels ∧ panels.cur.spPos (.direct 0 60) = some (0, 60) ∧ panels.rowBarred panels.iss.x 60 = false
    ∧ (panels.cur.wslot 1).state = 2 ∧ (panels.cur.wslot 1).poison = none ∧ (panels.cur.readFmt 0).geom = 0
    ∧ (panels.cur.wslot 1).mode = 0 ∧ (panels.cur.wslot 1).geom = 0 ∧ 63 < 64 :=
  ⟨⟨by decide +kernel, by decide +kernel⟩, by decide +kernel, by decide +kernel, by decide +kernel, by decide +kernel, by decide +kernel,
    by decide +kernel, by decide +kernel, by decide⟩
/-- Rate class of 8 bits: the cursor advances by four rows of B. -/
theorem test_mma : view (.mma 0 (.direct 0 60) 1 0 0) panelsA (fun t => t.cur.regs.cur[1]) = some 4 := by decide +kernel
/-- 1.0 + 2 × 3 + 2^-24 rounds once, to 7.0. -/
theorem test_mac_sum : macSum 0x3F80_0000 [.fin false 6 0, .fin false 1 (-24)] = 0x40E0_0000 := by decide +kernel
theorem test_mma_of_empty_slot : raised (.mma 0 (.direct 0 60) 0 0 0) panelsA = [(0x000A, 0)] := by decide +kernel
theorem test_mzero : view (.mzero 2) panels (fun t => Tile.elt (t.cur.readTile 2) 0 0) = some 0 := by decide +kernel
theorem test_matrix_busy : raised (.mzero 2) (atWork .ready) = [(0x0007, 0)] ∧ raised .mstep (atWork .ready) = [] := by decide +kernel

def isPages : Chk → Bool
  | .ok _ => true
  | _ => false
theorem ok_of_isPages (r : State × Chk) (h : isPages r.2 = true) : ∃ u ps, r = (u, .ok ps) := by
  obtain ⟨u, q⟩ := r
  cases q <;> simp_all [isPages]
theorem witness_WeightLoadIssues :
    ArrayFree panels ∧ panels.extent? panels.iss.x (addrId (panels.cur.readA 1)) = some ⟨0, 2 ^ 30, none, 0⟩
    ∧ panels.slotAt panels.iss.x ⟨0, 2 ^ 30, none, 0⟩ 4096 = {}
    ∧ (panels.gval 1).toNat % 2 ^ 20 = 1 ∧ (panels.gval 2).toNat % 2 ^ 20 % 4 = 0
    ∧ panelBytes 0 (FmtSlot.width {}) 1 0 = 64 ∧ panelBytes 1 (FmtSlot.width {}) 4 0 = 160
    ∧ (∃ v ps, panels.checkScaled panels.iss.x (addrId (panels.cur.readA 1)) 4096 none 0 [(4096, 64)]
        [planeRange ⟨0, 2 ^ 30, none, 0⟩ 0 4096 64] ⟨false, true, false⟩ = (v, .ok ps))
    ∧ panels.cur.nt < 32 :=
  ⟨⟨by decide +kernel, by decide +kernel⟩, by decide +kernel, by decide +kernel, by decide +kernel, by decide +kernel, by decide +kernel,
    by decide +kernel, ok_of_isPages _ (by decide +kernel), by decide +kernel⟩
theorem test_mldw : view (.mldw 0 1 0 1 .dense) panels (fun t => ((t.cur.wslot 0).state, (t.cur.wslot 0).len, t.cur.counts.nt.length))
    = some (1, 64, 1) := by decide +kernel

def isRows : RowsAt → Bool
  | .ok _ _ _ _ => true
  | _ => false
theorem ok_of_isRows (r : State × RowsAt) (h : isRows r.2 = true) : ∃ u f rows sh coh, r = (u, .ok f rows sh coh) := by
  obtain ⟨u, q⟩ := r
  cases q <;> simp_all [isRows]
theorem witness_DrainsIssue :
    ArrayFree flat0 ∧ (∀ r, (1984 : BitVec 11).toNat ≤ r → r < (1984 : BitVec 11).toNat + 64 → flat0.rowBarred flat0.iss.x r = false)
    ∧ (flat0.cur.readFmt 0).geom = 0 ∧ flat0.cur.nt < 32
    ∧ ∃ u f rows sh coh, flat0.drainRows flat0.iss.x (flat0.cur.readA 1) 0 (flat0.cur.readStride 1).toInt flat0.cur.readFmt true
        = (u, .ok f rows sh coh) := by
  refine ⟨⟨by decide +kernel, by decide +kernel⟩, fun r h1 h2 => ?_, by decide +kernel, by decide +kernel, ok_of_isRows _ (by decide +kernel)⟩
  have all : (List.range 64).all (fun i => !flat0.rowBarred flat0.iss.x (1984 + i)) = true := by decide +kernel
  have := List.all_eq_true.mp all (r - 1984) (by simp at h1 h2 ⊢; omega)
  have e : 1984 + (r - 1984) = r := by simp at h1; omega
  simpa [e] using this
theorem test_mdrain : view (.mdrain 0 (.sp 0 1984 0) 1) flat0 (fun t => (t.cur.drains.length, t.agenda.map (·.1))) = some (1, [1]) := by
  decide +kernel

theorem witness_Macros :
    ArrayFree flat0 ∧ flat0.rowBarred flat0.iss.x (60 : BitVec 11).toNat = false ∧ flat0.cur.nt < 32
    ∧ ((atWork .running).cur.sys.pl = true → (atWork .running).cur.sys.mowned = true)
    ∧ (atWork .running).cur.work = some (macroWork .running) ∧ (macroWork .running).kind = .mgemm ∧ (macroWork .running).phase ≠ .carried
    ∧ (macroWork .running).phase ≠ .draining ∧ (atWork .running).cur.nt < 32
    ∧ ((atWork .draining).cur.work = some (macroWork .draining) ∧ (macroWork .draining).phase = .draining)
    ∧ ((carriedBy 5).cur.work = some { macroWork .carried with job := some 5 } ∧ ({ macroWork .carried with job := some 5 } : Work).phase ≠ .draining)
    ∧ State.reset.cur.work = none ∧ State.reset.cur.lastMacro = none
    ∧ (afterMacro.cur.work = none ∧ afterMacro.cur.lastMacro = some (3, 60, 7) ∧ afterMacro.cur.sys.pl = false ∧ afterMacro.cur.nt < 32)
    ∧ (fullNt.cur.work = none ∧ fullNt.cur.lastMacro = some (3, 60, 7) ∧ 32 ≤ fullNt.cur.nt ∧ fullNt.iss.block = none)
    ∧ ((macroWork .running).bank = 3 ∧ (macroWork .running).row = 60 ∧ (atWork .running).copyYields x0.core [(3 : Nat) % 64] = false)
    ∧ State.reset.copyYields x0.core [(3 : Nat) % 64] = false :=
  ⟨⟨by decide +kernel, by decide +kernel⟩, by decide +kernel⟩
/-- MSTEP counts in NT until its word, with the macro's step and its ID, has landed; it writes it with DONE zero. -/
theorem test_mstep : view .mstep (atWork .running) (fun t => (t.cur.counts.nt, t.iss.acts)) =
    some ([9, 0], [.w0 x0 0 3 60 5]) := by decide +kernel
theorem test_mcancel : view .mcancel (atWork .running) (fun t => (t.cur.work.isSome, t.cur.counts.nt)) = some (false, []) := by decide +kernel

/-! Copies. -/

/-- The checks of the sides of a copy, in their order. -/
def sideChecks (s : State) (sides : List Side) : State × List Chk :=
  sides.foldl (fun (acc : State × List Chk) q =>
    let (s, c) := acc.1.checkSide s.iss.x q
    (s, acc.2 ++ [c])) (s, [])
theorem sides_of (s : State) (sides : List Side)
    (h : ((sides.findSome? (s.sideBound s.iss.x)).isNone && (pickFault ((sideChecks s sides).2 ++ [.ok []])).isNone
      && (((sideChecks s sides).2 ++ [Chk.ok []]).findSome? Chk.blocked).isNone) = true) (more : State → State × Chk := nothingMore)
    (hm : more s = (s, .ok []) := by rfl) :
    SidesPass s sides more (sideChecks s sides).1 ((sideChecks s sides).2.map (·.pages)) := by
  intro k
  simp only [Bool.and_eq_true, Option.isNone_iff_eq_none] at h
  obtain ⟨⟨h1, h2⟩, h3⟩ := h
  unfold State.withSides
  simp only [h1, hm]
  have e : (sides.foldl (fun (acc : State × List Chk) q =>
      let (s', c) := acc.1.checkSide s.iss.x q
      (s', acc.2 ++ [c])) (s, [])) = sideChecks s sides := rfl
  simp only [e, h2, h3]
/-- g1 holds the length 64 and, above, 2 rows; g2 holds zero, g3 2^28 + 1, g4 a word that is no command; g5 16,384 rows of 16,385 bytes. -/
def copies : State :=
  flat fun c => { c with regs := { c.regs with
    g := ((((c.regs.g.set 1 0x2_0000_0040).set 2 0).set 3 (BitVec.ofNat 64 (2 ^ 28 + 1))).set 4 1).set 5 0x4000_0000_4001 } }
/-- The sides of a copy of a1's bytes to bank 0, row 60. -/
def copySides : List Side := [⟨copies.cur.placeAt (.mem 1), 64, false, {}, 0⟩, ⟨copies.cur.placeAt (.sp 0 60), 64, true, {}, 0⟩]
def gatherSides : List Side := [⟨.sp (linPos 0 61 0), 8, false, {}, 0⟩, ⟨copies.cur.placeAt (.sp 0 60), 128, true, {}, 0⟩]
theorem witness_CopiesIssue :
    ((copies.gval 2).toNat % 2 ^ 32 = 0 ∧ 2 ^ 28 < (copies.gval 3).toNat % 2 ^ 32)
    ∧ ((copies.gval 2).toNat / 2 ^ 32 % 2 ^ 16 = 0 ∧ 2 ^ 28 < (copies.gval 5).toNat / 2 ^ 32 % 2 ^ 16 * ((copies.gval 5).toNat % 2 ^ 32))
    ∧ (let n := (copies.gval 1).toNat % 2 ^ 32
       n = 64 ∧ (∃ u pss, SidesPass copies copySides nothingMore u pss ∧ JobRoom u)
       ∧ copies.convFmt (copies.cur.placeAt (.mem 1)) 0 = {} ∧ copies.convFmt (copies.cur.placeAt (.sp 0 60)) 0 = {}
       ∧ (∃ w pss, SidesPass copies
          [⟨copies.cur.placeAt (.mem 1), bytesOfN (FmtSlot.width {}) n, false, {}, n⟩,
            ⟨copies.cur.placeAt (.sp 0 60), bytesOfN (FmtSlot.width {}) n, true, {}, n⟩] nothingMore w pss ∧ JobRoom w)
       ∧ (copies.gval 1).toNat / 2 ^ 32 % 2 ^ 16 = 2
       ∧ copies.extent? copies.iss.x (addrId (copies.cur.readA 1)) = some ⟨0, 2 ^ 30, none, 0⟩
       ∧ (∃ u pss, SidesPass copies gatherSides nothingMore u pss ∧ JobRoom u)) :=
  ⟨by decide +kernel, by decide +kernel, by decide +kernel, ⟨_, _, sides_of _ _ (by decide +kernel), by decide +kernel, by decide +kernel⟩, by decide +kernel,
    by decide +kernel, ⟨_, _, sides_of _ _ (by decide +kernel), by decide +kernel, by decide +kernel⟩, by decide +kernel, by decide +kernel,
    ⟨_, _, sides_of _ _ (by decide +kernel), by decide +kernel, by decide +kernel⟩⟩
theorem test_cpy : view (.cpy ⟨.sp 0 60, .mem 1⟩ 1) copies (fun t => (t.cur.counts.nc.length, t.jobs.map fun j => (j.len, j.nblocks)))
    = some (1, [(64, 1)]) ∧ raised (.cpy ⟨.sp 0 60, .mem 1⟩ 3) copies = [(0x0003, 4096)] := by decide +kernel

/-- The line at a1 holds a card, its words given. -/
def carded (l : List Nat) : State :=
  flat0.modCore 0 fun k => { k with l1 := [⟨32, .s, BitVec.ofNat 1024 (bytesToNat (l.flatMap fun w => natToBytes w 8)), 0, false⟩] }
/-- A card read at a1, its words as a statement sees them. -/
def cardAt (s : State) : State × Option (List Byte) :=
  match s.operand (s.cur.readA 1) 0 64 64 ⟨false, true, false⟩ with
  | (u, some (va, ps)) => u.readNow u.iss.x ps (u.guardOf (s.cur.readA 1)) va 64 (BitVec.ofNat 64 va)
  | (u, none) => (u, none)
def cardWord (s : State) (i : Nat) : Nat := bytesToNat ((((cardAt s).2.getD []).drop (8 * i)).take 8)
theorem card_of (s : State) (h : (cardAt s).2.isSome = true) :
    ∃ u va ps bs, s.operand (s.cur.readA 1) 0 64 64 ⟨false, true, false⟩ = (u, some (va, ps))
      ∧ u.readNow u.iss.x ps (u.guardOf (s.cur.readA 1)) va 64 (BitVec.ofNat 64 va) = ((cardAt s).1, some bs)
      ∧ ∀ i, bytesToNat ((bs.drop (8 * i)).take 8) = cardWord s i := by
  unfold cardWord
  generalize e : cardAt s = r at h ⊢
  unfold cardAt at e
  split at e
  · rename_i u va ps hu
    obtain ⟨a, b⟩ := r
    cases b with
    | none => simp at h
    | some bs => exact ⟨u, va, ps, bs, hu, e, fun _ => rfl⟩
  · subst e
    simp at h
/-- A card of a copy of 64 bytes from byte 8,192 of the flat window to linear position 0; and one of KIND 3. -/
def copyCard : State := carded [8192, 0, 0, 64, 0x1000, 0, 0, 0]
/-- The same of length 0; with a completion word at byte 4,096; of a conversion; of a gather of two rows of 64 bytes. -/
def emptyCard : State := carded [8192, 0, 0, 0, 0x1000]
def countedCard : State := carded [8192, 0, 0, 64, 0x3000, 4096]
def convertCard : State := carded [8192, 0, 0, 64, 0x1100]
def gatherCard : State := carded [8192, 0, 4096, 0x2_0000_0040, 0x1200]
/-- What the card at a1 breaks, T being zero, by its words. -/
def cardBreaks (s : State) : Bool :=
  let n := cardWord s
  let ssp := n 4 / 2 ^ 11 % 2 = 1
  let dsp := n 4 / 2 ^ 12 % 2 = 1
  let kind := n 4 / 2 ^ 8 % 8
  decide (3 ≤ kind ∨ n 4 % 2 ^ 8 = 0xFF ∨ (kind = 1 ∧ ssp ∧ dsp) ∨ (kind = 2 ∧ ssp) ∨ (False ↔ dsp) ∨ (ssp ∧ 2 ^ 23 ≤ n 0)
    ∨ (dsp ∧ 2 ^ 23 ≤ n 1) ∨ (kind = 2 ∧ 2 ^ 63 ≤ n 2) ∨ (kind ≠ 2 ∧ n 2 ≠ 0) ∨ 2 ^ 53 ≤ n 3 ∨ 2 ^ 26 ≤ n 4 ∨ n 6 ≠ 0 ∨ n 7 ≠ 0)
/-- The check of the completion word at `a`. -/
def wordCheck (cwe : Bool) (a : Word) (s : State) : State × Chk :=
  let v := s.sideTval s.iss.x (.mem a)
  if cwe && decide (v.toNat % 8 ≠ 0) then (s, .fault 0x0004 v 0) else (s, .ok [])
theorem counted_word : wordCheck true 4096 (cardAt countedCard).1 = ((cardAt countedCard).1, .ok []) := by
  have h : ¬(true && decide (((cardAt countedCard).1.sideTval (cardAt countedCard).1.iss.x (.mem 4096)).toNat % 8 ≠ 0)) = true := by decide +kernel
  unfold wordCheck
  exact if_neg h
theorem witness_JobCardIssues :
    (∀ s ∈ [copyCard, emptyCard, countedCard, convertCard, gatherCard], (cardAt s).2.isSome = true ∧ cardBreaks s = false
      ∧ jobCardBad ((List.range 8).map fun i => BitVec.ofNat 64 (cardWord s i)) 0 = false)
    ∧ (cardWord copyCard 4 / 2 ^ 8 % 8 = 0 ∧ cardWord copyCard 3 = 64 ∧ ∃ w pss, SidesPass (cardAt copyCard).1
        ([⟨.mem 8192, 64, false, {}, 0⟩, ⟨.sp 0, 64, true, {}, 0⟩] ++ []) (wordCheck false 0) w pss ∧ JobRoom w)
    ∧ cardWord emptyCard 3 = 0
    ∧ (cardWord countedCard 4 / 2 ^ 13 % 2 = 1 ∧ ∃ w pss, SidesPass (cardAt countedCard).1
        ([⟨.mem 8192, 64, false, {}, 0⟩, ⟨.sp 0, 64, true, {}, 0⟩] ++ [⟨.mem 4096, 8, true, {}, 0⟩]) (wordCheck true 4096) w pss ∧ JobRoom w)
    ∧ (cardWord convertCard 4 / 2 ^ 8 % 8 = 1 ∧ (cardAt convertCard).1.convFmt (.mem 8192) 0 = {} ∧ ∃ w pss, SidesPass (cardAt convertCard).1
        ([⟨.mem 8192, bytesOfN (FmtSlot.width {}) 64, false, {}, 64⟩, ⟨.sp 0, bytesOfN (FmtSlot.width {}) 64, true, {}, 64⟩] ++ [])
        (wordCheck false 0) w pss ∧ JobRoom w)
    ∧ (cardWord gatherCard 4 / 2 ^ 8 % 8 = 2 ∧ cardWord gatherCard 3 / 2 ^ 32 = 2 ∧ (cardAt gatherCard).1.extent? x0 (addrId 8192) = some ⟨0, 2 ^ 30, none, 0⟩
      ∧ ∃ w pss, SidesPass (cardAt gatherCard).1 ([⟨.sp 4096, 8, false, {}, 0⟩, ⟨.sp 0, 128, true, {}, 0⟩] ++ []) (wordCheck false 0) w pss ∧ JobRoom w)
    ∧ ((cardAt (carded [0, 0, 0, 0, 0x300])).2.isSome = true ∧ cardBreaks (carded [0, 0, 0, 0, 0x300]) = true) :=
  ⟨by decide +kernel, ⟨by decide +kernel, by decide +kernel, _, _, sides_of _ _ (by decide +kernel) _ (by rfl), by decide +kernel, by decide +kernel⟩,
    by decide +kernel,
    ⟨by decide +kernel, _, _, sides_of _ _ (by decide +kernel) (wordCheck true 4096) counted_word, by decide +kernel, by decide +kernel⟩,
    ⟨by decide +kernel, by decide +kernel, _, _, sides_of _ _ (by decide +kernel) _ (by rfl), by decide +kernel, by decide +kernel⟩,
    ⟨by decide +kernel, by decide +kernel, by decide +kernel, _, _, sides_of _ _ (by decide +kernel) _ (by rfl), by decide +kernel, by decide +kernel⟩,
    by decide +kernel⟩
theorem test_jsub : view (.jsub 1 0 0) copyCard (fun t => t.jobs.map (·.len)) = some [64]
    ∧ raised (.jsub 1 0 0) (carded [0, 0, 0, 0, 0x300]) = [(0x000B, 4096)] := by decide +kernel

/-- CPYW's command MGEMM of bank 0, row 0: its command word is zero. -/
theorem witness_CarriedCommandIssues :
    (copies.cur.sys.pl = true → copies.cur.sys.mowned = true) ∧ followCmd .mgemm (copies.gval 4) = none
    ∧ followCmd .mgemm (copies.gval 2) = some (.mgemm 0 0)
    ∧ ((copies.gval 2).toNat % 2 ^ 32 = 0 ∧ (copies.gval 1).toNat % 2 ^ 32 ≠ 0)
    ∧ followCmd .mgemm ((atWork .ready).gval 2) = some (.mgemm 0 0) ∧ (atWork .ready).cur.work.isSome = true
    ∧ copies.cur.work = none
    ∧ (copies.followOf (.mgemm 0 0)).1 = .mgemm ∧ (copies.followOf (.mgemm 0 0)).2.1 = 0 ∧ (copies.followOf (.mgemm 0 0)).2.2.1 = 0
    ∧ copies.cur.nt < 32
    ∧ (∃ v pss, SidesPass ({ copies with nextId := copies.nextId + 1 }.modCur fun c => { c with counts := { c.counts with nt := c.counts.nt ++ [copies.nextId] } })
        copySides (copies.followOf (.mgemm 0 0)).2.2.2.2 v pss ∧ JobRoom v ∧ v.nextId = copies.nextId + 1 ∧ v.iss.x = copies.iss.x) :=
  ⟨by decide +kernel, by decide +kernel, by decide +kernel, by decide +kernel, by decide +kernel, by decide +kernel, by decide +kernel,
    rfl, rfl, rfl, by decide +kernel, ⟨_, _, sides_of _ _ (by decide +kernel) _ (by rfl), ⟨by decide +kernel, by decide +kernel⟩,
      by decide +kernel, by decide +kernel⟩⟩
/-- The status word of a context with nothing at work lands: as the last macro's, of that row or of another, or with none. -/
theorem witness_StatusLands : (State.reset.copyYields 0 [0] = false ∧ (State.reset.ctx x0).work = none ∧ (State.reset.ctx x0).lastMacro = none)
    ∧ (let s := with0 fun c => { c with lastMacro := some (3, 5, 7) };
      s.copyYields 0 [3] = false ∧ (s.ctx x0).work = none ∧ (s.ctx x0).lastMacro = some (3, 5, 7)) := by decide +kernel

/-! ### Synchronisation (10) -/

/-- ctx0 of core 0 runs task 0 of a gang whose other member is given, with barrier 3 of two arrivals and monitor 4. -/
def gang (mate : Task) (pending : Bool) : State :=
  let s := with0 fun c => { c with task := some 0, mons := [⟨4, 64, pending, false, 1⟩], regs := { c.regs with g := (c.regs.g.set 1 5).set 2 6 } }
  { s with work := { s.work with
    tasks := [aTask, { mate with key := 1 }], gangs := [⟨⟨0, 0, 0⟩, 0, 0, 2, 0, true, false, [⟨3, 2, 0, 5, false⟩], [0, 1], true⟩] } }
theorem witness_HoldConditions :
    ((0, 0, 0, 0) = State.reset.iss.counts)
    ∧ (gang aTask false).barrier? ((gang aTask false).gangIdOf x0) 9 = none
    ∧ (gang aTask false).barrier? ((gang aTask false).gangIdOf x0) 3 = some ⟨3, 2, 0, 5, false⟩
    ∧ ((gang aTask false).gval 1).extractLsb' 0 16 = 5 ∧ ((gang aTask false).gval 2).extractLsb' 0 16 ≠ 5
    ∧ (∃ m, (gang aTask false).cur.mons.find? (fun m => m.num == 4) = some m ∧ m.pending = false)
    ∧ (∃ m, (gang aTask true).cur.mons.find? (fun m => m.num == 4) = some m ∧ m.pending = true) :=
  ⟨by decide +kernel, by decide +kernel, by decide +kernel, by decide +kernel, by decide +kernel,
    ⟨_, Option.eq_some_of_isSome (by decide +kernel), by decide +kernel⟩, ⟨_, Option.eq_some_of_isSome (by decide +kernel), by decide +kernel⟩⟩

/-- A mate of the issuing task, as RDV looks for it. -/
theorem mate_of (m : Task) (p : Bool) : Mate (gang m p) { m with key := 1 } :=
  ⟨⟨⟨0, 0, 0⟩, 0, 0, 2, 0, true, false, [⟨3, 2, 0, 5, false⟩], [0, 1], true⟩, 1, rfl, by decide, (by decide : (some 1 : Option Nat) ≠ some 0), rfl⟩
theorem only_mate (m t : Task) (p : Bool) (h : Mate (gang m p) t) : t = { m with key := 1 } := by
  obtain ⟨g, k, hg, hk, hn, ht⟩ := h
  have e : (gang m p).gangOf (gang m p).iss.x = some ⟨⟨0, 0, 0⟩, 0, 0, 2, 0, true, false, [⟨3, 2, 0, 5, false⟩], [0, 1], true⟩ := rfl
  rw [e] at hg
  cases hg
  simp only [List.mem_cons, List.not_mem_nil, or_false] at hk
  rcases hk with rfl | rfl
  · exact absurd rfl hn
  · have e : (gang m p).task? 1 = some { m with key := 1 } := rfl
    rw [e] at ht
    exact (Option.some.inj ht).symm
/-- A failed mate; a mate that rewound and has not passed slot 8; and one that has. -/
theorem witness_rendezvous :
    (∃ t, Mate (gang { aTask with state := 7 } false) t ∧ FailedTask t)
    ∧ ((∀ t, Mate (gang { aTask with rewound := true } false) t → ¬ FailedTask t)
        ∧ ∃ t, Mate (gang { aTask with rewound := true } false) t ∧ t.rewound = true ∧ (8 : BitVec 11).toNat ∉ t.rdvPassed)
    ∧ (∀ t, Mate (gang { aTask with rewound := true, rdvPassed := [8] } false) t →
        ¬ FailedTask t ∧ (t.rewound = true → (8 : BitVec 11).toNat ∈ t.rdvPassed)) := by
  refine ⟨⟨_, mate_of _ _, .inl rfl⟩, ⟨fun t h => ?_, _, mate_of _ _, rfl, by decide⟩, fun t h => ?_⟩
  · rw [only_mate _ _ _ h]
    simp [FailedTask, aTask, noTask]
  · rw [only_mate _ _ _ h]
    simp [FailedTask, aTask, noTask]
/-- A member of a gang returns with TRET.yield: its mate runs in ctx1. -/
def gangReturns : State :=
  { (gang aTask false).modCore 0 fun k => { k with
      ctx0 := { k.ctx0 with sys := { k.ctx0.sys with pl := true }, flow := { k.ctx0.flow with phase := .sys .tretYield } }
      ctx1 := { k.ctx1 with task := some 1, flow := { k.ctx1.flow with phase := .run } } } with occ := [0] }
theorem witness_gang_returns : gangReturns.cur.sys.pl = true ∧ (gangReturns.ctx x0).sys.mowned = false
    ∧ (gangReturns.ctx x0).flow.phase = .sys .tretYield ∧ ((gangReturns.gangOf x0).map (·.solo)) = some false
    ∧ (gangReturns.gangOf x0).map (·.members) = some [0, 1] ∧ gangReturns.ctxOfTask 1 = some ⟨0, true⟩
    ∧ (gangReturns.ctx ⟨0, true⟩).flow.phase = .run
    ∧ (∀ g, (withTask (inPhase (.sys .tretYield))).gangOf x0 = some g → g.solo = true) := by decide +kernel
/-- The rest of the gang is asked to leave. -/
theorem test_gang_returns : ((gangReturns.sysStep x0).ctx x0).flow.phase = .leaving .preempt ∧ ((gangReturns.sysStep x0).ctx ⟨0, true⟩).sys.pre = true := by
  decide +kernel
theorem test_wait_holds : view (.wait 8 3 0) { State.reset with iss := { counts := (1, 0, 0, 0) } } (·.iss.hold)
    = some (some (.wait 8 3 0)) ∧ view (.wait 8 3 0) State.reset (·.iss.hold) = some none := by decide +kernel
theorem test_barw : view (.barw 3 1) (gang aTask false) (·.iss.hold) = some (some (.barw 3 5))
    ∧ view (.barw 3 2) (gang aTask false) (·.iss.hold) = some none ∧ raised (.barw 9 1) (gang aTask false) = [(0x000E, 9)] := by decide +kernel
theorem test_monw_consumes : view (.monw 4) (gang aTask true) (fun t => (t.iss.ends, t.cur.mons.map (·.pending))) = some (true, [false]) := by
  decide +kernel
theorem test_rdv : results (.rdv 5 8) (gang { aTask with state := 7 } false) = [(1, .p 5 false)]
    ∧ results (.rdv 5 8) (gang aTask false) = [(1, .p 5 true)] := by decide +kernel

/-- The window's page lies where no memory is: 2^39 + 2^32 and on. -/
def offMap : State := flat0.modCore 0 fun k => { k with tlb := [⟨0, 0, 2 ^ 30, BitVec.ofNat 64 (2 ^ 39 + 2 ^ 32 + 0x3F3), 0⟩] }
/-- The window's page is compressed: tier 4. -/
def packed : State := flat0.modCore 0 fun k => { k with tlb := [⟨0, 0, 2 ^ 30, 0x9F3, 0⟩] }
theorem witness_SynchronisationIssues :
    State.reset.cur.ns < 96
    ∧ (∀ w : Bool, ∃ u va ps, flat0.operand (flat0.cur.readA 1) 0 64 64 ⟨w, false, false⟩ = (u, some (va, ps))
      ∧ (¬ (∃ p ∈ ps, leafTier p.2.leaf < 4 ∧ memAt (p.2.pa va) = none) ∧ ∀ p ∈ ps, leafTier p.2.leaf < 3) ∧ u.cur.ns < 96)
    ∧ (∀ w : Bool, ∃ u va ps, offMap.operand (offMap.cur.readA 1) 0 64 64 ⟨w, false, false⟩ = (u, some (va, ps))
      ∧ ∃ p ∈ ps, leafTier p.2.leaf < 4 ∧ memAt (p.2.pa va) = none)
    ∧ (∀ w : Bool, ∃ u va ps, packed.operand (packed.cur.readA 1) 0 64 64 ⟨w, false, false⟩ = (u, some (va, ps))
      ∧ ¬ (∃ p ∈ ps, leafTier p.2.leaf < 4 ∧ memAt (p.2.pa va) = none) ∧ ∃ p ∈ ps, 3 ≤ leafTier p.2.leaf) := by
  refine ⟨by decide +kernel, fun w => ?_, fun w => ?_, fun w => ?_⟩
  · obtain ⟨u, ⟨va, ps⟩, h, q⟩ := passes (flat0.operand (flat0.cur.readA 1) 0 64 64 ⟨w, false, false⟩)
      (fun u p => decide ((¬ (∃ q ∈ p.2, leafTier q.2.leaf < 4 ∧ memAt (q.2.pa p.1) = none) ∧ ∀ q ∈ p.2, leafTier q.2.leaf < 3) ∧ u.cur.ns < 96))
      (by cases w <;> decide +kernel)
    exact ⟨u, va, ps, h, of_decide_eq_true q⟩
  · obtain ⟨u, ⟨va, ps⟩, h, q⟩ := passes (offMap.operand (offMap.cur.readA 1) 0 64 64 ⟨w, false, false⟩)
      (fun _ p => decide (∃ q ∈ p.2, leafTier q.2.leaf < 4 ∧ memAt (q.2.pa p.1) = none))
      (by cases w <;> decide +kernel)
    exact ⟨u, va, ps, h, of_decide_eq_true q⟩
  · obtain ⟨u, ⟨va, ps⟩, h, q⟩ := passes (packed.operand (packed.cur.readA 1) 0 64 64 ⟨w, false, false⟩)
      (fun _ p => decide (¬ (∃ q ∈ p.2, leafTier q.2.leaf < 4 ∧ memAt (q.2.pa p.1) = none) ∧ ∃ q ∈ p.2, 3 ≤ leafTier q.2.leaf))
      (by cases w <;> decide +kernel)
    exact ⟨u, va, ps, h, of_decide_eq_true q⟩
theorem test_fence_holds_after_commit : view (.fence 7 .die) State.reset (fun t => (t.iss.ends, t.iss.postHold))
    = some (true, some (.fence 7 .die [])) := by decide +kernel
theorem test_yield : view .yield State.reset (fun t => (t.iss.ends, t.iss.yields)) = some (true, true) := by decide +kernel

/-! ### Tensors and sequences (12) -/

/-- A tensor of two pages in HBM, and a sequence of one page. -/
def aTensor : Tensor :=
  { id := 5, home := 0, st := 2, dirty := false, size := 8192, fmt := 0, geom := 0, pin := 1, lock := 0, base := 65536, guard := 0, ulp := 0
    ulen := 0, cur := 0, nud := 0, rcp := 0, rdep := 0, rmax := 0, hint := 0, rcost := 0, rarg := 0, rin := [], csize := 0, ctier := 0
    wcnt := 0, frames := [(100, 2)], lower := [], cdata := [], alloc := 8192, root := 1, moving := none, refill := none }
def aSeq : KvSeq :=
  { id := 6, home := 0, heads := 1, dimc := 0, code := 0, bias := 0, fmt := 0, guard := 0, maxpg := 4, nextpos := 3, ovf := false, ptp := 0
    inUse := true
    pages := [{ va := 0, ret := false, tag := 2, nocc := 3, closed := false, ctier := 0, firstpos := 0, tier := 2, frames := [], cdata := []
                moving := none, refill := false, want := [] }]
    root := 1 }
/-- g1 names the tensor, g2 the sequence, g3 nothing. -/
def objects (t : Tensor) : State :=
  { flat fun c => { c with regs := { c.regs with g := ((c.regs.g.set 1 5).set 2 6).set 3 7 } } with tensors := [t], kvs := [aSeq] }
def eightLocks : State :=
  flat fun c => { c with locks := [⟨2 ^ 20, 2 ^ 15, (List.range 8).map fun i => ⟨0, 2 ^ 20 + 4096 * i, 4096, 0x3F3, 0⟩, []⟩] }
/-- The window's one page may be locked. -/
def lockable (s : State) : State := s.modCore 0 fun k => { k with tlb := [⟨0, 0, 2 ^ 30, BitVec.ofNat 64 (2 ^ 61 + 0x3F3), 0⟩] }
/-- A translation that passes, its pages in place and room in NS. -/
theorem translates (s : State) (l : List Nat) (h : (match s.translateAll x0 ⟨true, false, false⟩ l with
      | (u, .ok ps) => decide ((∀ p ∈ ps, leafTier p.2.leaf ≠ 7) ∧ u.cur.ns < 96)
      | _ => false) = true) :
    ∃ u ps, s.translateAll x0 ⟨true, false, false⟩ l = (u, .ok ps) ∧ (∀ p ∈ ps, leafTier p.2.leaf ≠ 7) ∧ u.cur.ns < 96 := by
  split at h
  · rename_i u ps e
    exact ⟨u, ps, e, of_decide_eq_true h⟩
  · simp at h
theorem witness_TensorOperationsIssue :
    (objects aTensor).cur.ns < 96 ∧ (objects aTensor).tensorFor 0 5 = some aTensor ∧ (objects aTensor).tensorFor 0 6 = none
    ∧ (objects aTensor).kvFor 0 6 = some aSeq ∧ (objects aTensor).tensorFor 0 7 = none ∧ (objects aTensor).kvFor 0 7 = none
    ∧ (objects aTensor).spRangeFault x0 (0 + 60 * 4096) (2 * aSeq.heads * aSeq.dim) = none ∧ aSeq.num.width = 8
    ∧ (∃ u ps, (objects aTensor).translateAll x0 ⟨true, false, false⟩ (pagesOf (aSeq.nextSlot 2)) = (u, .ok ps)
        ∧ (∀ p ∈ ps, leafTier p.2.leaf ≠ 7) ∧ u.cur.ns < 96)
    ∧ (∃ u ps, (objects aTensor).translateAll x0 ⟨true, false, false⟩
        (pagesOf ((aSeq.pages.filter fun p => p.live && (4 : BitVec 8).getLsbD p.tag.toNat && decide (p.firstpos < (6 : BitVec 32).toNat)).map
          fun p => (p.va, aSeq.storeBytes))) = (u, .ok ps) ∧ (∀ p ∈ ps, leafTier p.2.leaf ≠ 7) ∧ u.cur.ns < 96)
    ∧ flat0.extent? x0 (addrId (flat0.cur.readA 1)) = some ⟨0, 2 ^ 30, none, 0⟩ ∧ (addrOff (flat0.cur.readA 1)).toNat ≤ 2 ^ 30
    ∧ (∃ u va ps, (lockable flat0).operand ((lockable flat0).cur.readA 1) 0 4096 1 ⟨false, true, true⟩ = (u, some (va, ps))
        ∧ (u.cur.locks.map fun l => l.entries.length).foldl (· + ·) 0 + (ps.map (·.2)).eraseDups.length ≤ 8)
    ∧ (∃ u va ps, (lockable eightLocks).operand ((lockable eightLocks).cur.readA 1) 0 4096 1 ⟨false, true, true⟩ = (u, some (va, ps))
        ∧ 8 < (u.cur.locks.map fun l => l.entries.length).foldl (· + ·) 0 + (ps.map (·.2)).eraseDups.length) := by
  refine ⟨by decide +kernel, by decide +kernel, by decide +kernel, by decide +kernel, by decide +kernel, by decide +kernel, by decide +kernel,
    by decide +kernel, translates _ _ (by decide +kernel), translates _ _ (by decide +kernel), by decide +kernel, by decide +kernel, ?_, ?_⟩
  · obtain ⟨u, ⟨va, ps⟩, h, q⟩ := passes ((lockable flat0).operand ((lockable flat0).cur.readA 1) 0 4096 1 ⟨false, true, true⟩)
      (fun u p => decide ((u.cur.locks.map fun l => l.entries.length).foldl (· + ·) 0 + (p.2.map (·.2)).eraseDups.length ≤ 8)) (by decide +kernel)
    exact ⟨u, va, ps, h, of_decide_eq_true q⟩
  · obtain ⟨u, ⟨va, ps⟩, h, q⟩ := passes ((lockable eightLocks).operand ((lockable eightLocks).cur.readA 1) 0 4096 1 ⟨false, true, true⟩)
      (fun u p => decide (8 < (u.cur.locks.map fun l => l.entries.length).foldl (· + ·) 0 + (p.2.map (·.2)).eraseDups.length)) (by decide +kernel)
    exact ⟨u, va, ps, h, of_decide_eq_true q⟩
theorem test_kvret_of_a_tensor : raised (.kvret 1 3 4) (objects aTensor) = [(0x000D, 5)]
    ∧ (raised (.kvret 3 3 4) (objects aTensor)).map (·.1) = [0x0003] ∧ raised (.kvret 2 3 4) (objects aTensor) = [] := by decide +kernel
/-- A TLOCK of length 0 does nothing, whatever its address. -/
theorem test_tlock_of_nothing : raised (.tlock 5 0 4) (objects aTensor) = [] := by decide +kernel
theorem test_tlock_capacity : (raised (.tlock 1 0 1) (lockable eightLocks)).map (·.1) = [0x000F] := by decide +kernel

/-- Cards of a tensor of 64 bytes, of one of no size, of a sequence of one head and of none. -/
theorem witness_CreationCards :
    ((cardAt (carded [64])).2.isSome = true
      ∧ tensorCardBad ((List.range 8).map fun i => BitVec.ofNat 64 (cardWord (carded [64]) i)) ((cardAt (carded [64])).1.cur.readFmt 0)
          ((cardAt (carded [64])).1.cur.readFmt 0) = false)
    ∧ ((cardAt (carded [0])).2.isSome = true ∧ cardWord (carded [0]) 0 % 2 ^ 40 = 0 ∧ cardWord (carded [0]) 0 % 2 ^ 7 = 0)
    ∧ ((cardAt (carded [1 + 2 ^ 17])).2.isSome = true ∧ cardWord (carded [1 + 2 ^ 17]) 0 % 2 ^ 7 = 1
      ∧ cardWord (carded [1 + 2 ^ 17]) 0 / 2 ^ 17 % 2 ^ 16 = 1 ∧ ((cardAt (carded [1 + 2 ^ 17])).1.cur.readFmt 0).geom = 0
      ∧ cardWord (carded [1 + 2 ^ 17]) 1 < 2 ^ 57 ∧ ∀ i, i < 8 → 2 ≤ i → cardWord (carded [1 + 2 ^ 17]) i = 0) := by decide +kernel
theorem test_tnew_card : raised (.tnew 3 1 0) (carded [0]) = [(0x000C, 4096)] ∧ raised (.tnew 3 1 0) (carded [64]) = []
    ∧ raised (.kvnew 3 1 0) (carded [65 + 2 ^ 17]) = [(0x000C, 4096)] := by decide +kernel

theorem witness_TensorHome :
    (objects aTensor).tensorFor x0.die 7 = none ∧ (objects aTensor).kvFor x0.die 7 = none ∧ (objects aTensor).opBehind x0 0 (.tpin 7) = false
    ∧ (objects aTensor).opBehind x0 0 (.tpin 5) = false
    ∧ (objects aTensor).tensorFor x0.die 5 = some aTensor ∧ aTensor.pin ≠ 0 ∧ aTensor.pin ≠ 255
    ∧ (objects { aTensor with pin := 255 }).tensorFor x0.die 5 = some { aTensor with pin := 255 }
    ∧ (objects { aTensor with pin := 0, lock := 1 }).tensorFor x0.die 5 = some { aTensor with pin := 0, lock := 1 }
    ∧ (objects aTensor).kv? 6 = some aSeq := by decide +kernel
/-- A live page of tag 2 that begins below the limit retires; its sequence answers as before. -/
theorem test_retire : (((objects aTensor).kvretAt 6 4 1).kv? 6).map (fun q => (q.pages.map fun p => (p.ret, p.closed), q.nextpos))
    = some ([(true, true)], 3)
    ∧ (((objects aTensor).kvretAt 6 4 0).kv? 6).map (fun q => q.pages.map (·.ret)) = some [false] := by decide +kernel

/-! ### Device events: coherence, writes, replies, holds, watchdogs -/

/-- A directory entry of line 8,192 (byte 2^20, die 0). -/
def entry (st : DirSt) (sharers awaiting : List (BitVec 8)) : DirEntry :=
  { line := 8192, st := st, sharers := sharers, groups := none, awaiting := awaiting, act := none, queue := [] }
def dirWith (e : DirEntry) : State := State.reset.modDie 0 fun z => { z with dir := [e] }
def l1With (st : LineSt) : State := State.reset.modCore 0 fun k => { k with l1 := [⟨8192, st, 7, 0, false⟩] }
/-- Line 8,192 is on its way, asked for before an own write of the core. -/
def staleFill : State := State.reset.modCore 0 fun k => { k with missing := [8192], stale := [8192] }
/-- Core 0 owns the line by the directory; the right to write it is on its way again, or not. -/
def owner (granted : Bool) : State :=
  { (l1With .m).modDie 0 fun z => { z with dir := [entry .e [0] []] } with
    agenda := if granted then [(5, .ev (.l1Fill 0 8192 0 .m 0 false))] else [] }
theorem witness_CoherenceAndFills :
    (State.reset.dirEntry? 8192 = none ∧ ((State.reset.die (homeDie (8192 * 128))).dir.filter fun q => dirSet q.line == dirSet 8192).length < 16
      ∧ (State.reset.memFor (coreDie 0) (8192 * 128)).isSome = true)
    ∧ (dirWith (entry .tm [1] [1])).dirEntry? 8192 = some (entry .tm [1] [1])
    ∧ ((dirWith (entry .s [0, 1] [])).dirEntry? 8192 = some (entry .s [0, 1] []) ∧ (entry .s [0, 1] []).targets.filter (· != 0) ≠ [])
    ∧ ((dirWith (entry .s [0] [])).dirEntry? 8192 = some (entry .s [0] []) ∧ (entry .s [0] []).targets.filter (· != 0) = [])
    ∧ ((dirWith (entry .e [1] [])).dirEntry? 8192 = some (entry .e [1] []) ∧ (entry .e [1] []).targets ≠ [0]
        ∧ (entry .e [1] []).targets.filter (· != 0) ≠ [])
    ∧ (∀ b : Bool, (owner b).dirEntry? 8192 = some (entry .e [0] []) ∧ (entry .e [0] []).targets = [0] ∧ (owner b).granting 8192 = b)
    ∧ (∀ q ∈ (objects aTensor).kvs, ∀ p ∈ q.pages, p.tier ≠ 0 ∨ p.lower = []) ∧ (owner true).kvs = []
    ∧ (State.reset.core 0).l1Find 8192 = none ∧ ((l1With .m).core 0).l1Find 8192 = some ⟨8192, .m, 7, 0, false⟩
    ∧ cellsWf (l1With .m).mem.cells = true ∧ (l1With .m).isDead (8192 * 128) = false ∧ (l1With .m).mem.flips = []
    ∧ (∀ i, i < 128 → ringByte (8192 * 128 + i) = false)
    ∧ ((∃ c ∈ (entry .tm [1, 2] [1, 2]).awaiting, c ≠ 1) ∧ (∀ c ∈ (entry .tm [1] [1]).awaiting, c = 1))
    ∧ ((State.reset.core 0).l1.filter fun l => l1Set l.line == l1Set 8192).length < 16
    ∧ (8192 ∉ (State.reset.core 0).stale ∧ (staleFill.core 0).stale = [8192] ∧ (staleFill.core 0).l1Find 8192 = none) := by decide +kernel
/-- A fill asked for before an own write of the core does not stay. -/
theorem test_stale_fill : view (.l1Fill 0 8192 5 .s 0 false) staleFill (fun t => ((t.core 0).l1Find 8192).isSome) = some false := by decide +kernel
/-- A GETM of a line that another core shares recalls it; the line is then transient. -/
theorem test_getm_recalls : view (.getm 0 8192) (dirWith (entry .s [1] [])) (fun t => (t.dirEntry? 8192).map fun e => (e.st, e.awaiting))
    = some (some (.tm, [1])) := by decide +kernel
/-- A modified line that is written back leaves its bytes in memory. -/
theorem test_putm : view (.putm 0 8192) (l1With .m) (fun t => (cellsRead t.mem.cells (8192 * 128), ((t.core 0).l1Find 8192).isSome))
    = some (7, false) := by decide +kernel

/-- A committed line of the store buffer, all its units written. -/
def committed (coh : Bool) : SbLine := ⟨7, 8192, BitVec.allOnes 256, 5, true, coh, 0, 0, true, [(7, BitVec.allOnes 256)]⟩
def draining (coh : Bool) (st : LineSt) : State :=
  (with0 fun c => { c with sb := [committed coh], counts := { c.counts with ns := [7] } }).modCore 0 fun k => { k with l1 := [⟨8192, st, 0, 0, false⟩] }
/-- The address 2^39 + 2^32 is no memory. -/
def farLine : SbLine := { committed false with line := (2 ^ 39 + 2 ^ 32) / 128 }
/-- ctx0 owes act 7 at its bytes. -/
def owing : State := with0 fun c => { c with pins := [(7, 2 ^ 20, 8)], counts := { c.counts with ns := [7] } }
theorem witness_WritesPerformed :
    cellsWf State.reset.mem.cells = true ∧ (∀ i, i < 8 + 128 → ringByte (2 ^ 20 + i) = false)
    ∧ (State.reset.memFor x0.die (2 ^ 20)).isSome = true ∧ owing.olderOwn x0 7 [(2 ^ 20, 8)] = false
    ∧ (owing.ctx x0).owed 7 = true ∧ (State.reset.ctx x0).owed 7 = false
    ∧ (∀ k ∈ linesOf (2 ^ 20) 8, State.reset.dirEntry? k = none) ∧ State.reset.isDead (2 ^ 20) = false ∧ State.reset.kvs = []
    ∧ (∀ k ∈ blocksOf (2 ^ 20) 8, State.reset.rowDead k = false ∧ k ∉ State.reset.mem.poison) ∧ homeDie (2 ^ 20) = x0.die
    ∧ State.reset.memFor x0.die (2 ^ 39 + 2 ^ 32) = none
    ∧ ((draining false .s).ctx x0).sb.find? (fun z => z.id == 7 && z.committed) = some (committed false)
    ∧ (draining false .s).drainWaits x0 (committed false) = false ∧ (committed false).mask ≠ 0 ∧ (draining false .s).mem.flips = []
    ∧ ((draining true .e).ctx x0).sb.find? (fun z => z.id == 7 && z.committed) = some (committed true)
    ∧ ((draining true .e).core 0).l1Find 8192 = some ⟨8192, .e, 0, 0, false⟩
    ∧ ((draining true .s).core 0).l1Find 8192 = some ⟨8192, .s, 0, 0, false⟩
    ∧ ((with0 fun c => { c with sb := [farLine] }).ctx x0).sb.find? (fun z => z.id == 7 && z.committed) = some farLine
    ∧ (with0 fun c => { c with sb := [farLine] }).drainWaits x0 farLine = false
    ∧ State.reset.memFor x0.die (farLine.line * 128) = none := by decide +kernel
/-- A REL adds one to its word, and does nothing once it counts as failed. -/
theorem test_rel_adds_one : view (.relPerform x0 7 (2 ^ 20)) owing (fun t => cellsReadN t.mem.cells (2 ^ 20) 2) = some [1, 0]
    ∧ view (.relPerform x0 7 (2 ^ 20)) State.reset (fun t => cellsReadN t.mem.cells (2 ^ 20) 2) = some [0, 0] := by decide +kernel
theorem test_line_drain : view (.lineDrain x0 7) (draining false .s) (fun t => (cellsRead t.mem.cells (2 ^ 20), (t.ctx x0).sb.length, (t.ctx x0).counts.ns))
    = some (5, 0, []) := by decide +kernel

/-- ctx0 waits for the reply of act 9; or has nothing to wait for. -/
def replying : State := with0 fun c => { c with flow := { c.flow with replies := [9] } }
/-- ctx0 holds for BARAW at a barrier, its arrival having a number. -/
def atBarrier (bar : BitVec 11) (arrival : Nat) : State :=
  (gang aTask false).modFlow x0 fun f => { f with hold := some (.baraw bar none), arrival := arrival }
theorem witness_SynchronisationEvents :
    9 ∉ (State.reset.ctx x0).flow.replies ∧ (replying.ctx x0).flow.replies = [9] ∧ (replying.ctx x0).loadWaits (fun _ => true) = false
    ∧ State.reset.memFor x0.die (2 ^ 39 + 2 ^ 32) = none ∧ (State.reset.memFor x0.die (2 ^ 20)).isSome = true
    ∧ (State.reset.ctx ⟨0, false⟩).mons.length + (State.reset.ctx ⟨0, true⟩).mons.length < 256
    ∧ (gang aTask false).barrier? ⟨0, 0, 0⟩ 3 = some ⟨3, 2, 0, 5, false⟩ ∧ (gang aTask false).barrier? ⟨0, 0, 0⟩ 9 = none
    ∧ (∀ b ∈ [(3 : BitVec 11), 9], ((atBarrier b 9).ctx x0).flow.hold = some (.baraw b none) ∧ ((atBarrier b 9).ctx x0).flow.arrival = 9
        ∧ ((atBarrier b 9).ctx x0).flow.pendingTrap = none)
    ∧ ((atBarrier 3 8).ctx x0).flow.arrival ≠ 9 ∧ (atBarrier 3 8).barrier? ⟨0, 0, 0⟩ 3 = some ⟨3, 2, 0, 5, false⟩
    ∧ (atBarrier 9 9).barrier? ⟨0, 0, 0⟩ 9 = none := by
  decide +kernel
/-- A BARAW takes the generation of its own arrival only; at a free barrier it takes the fault. -/
theorem test_baraw_own_arrival : view (.barrierArrival ⟨0, 0, 0⟩ 3 (some x0) 9) (atBarrier 3 8) (fun t => (t.ctx x0).flow.hold) = some (some (.baraw 3 none))
    ∧ view (.barrierArrival ⟨0, 0, 0⟩ 9 (some x0) 9) (atBarrier 9 9) (fun t => ((t.ctx x0).flow.pendingTrap.map (·.1))) = some (some 0x000E) := by
  decide +kernel
theorem test_arrival : view (.barrierArrival ⟨0, 0, 0⟩ 3 none 0) (gang aTask false) (fun t => (t.barrier? ⟨0, 0, 0⟩ 3).map fun b => (b.arrivals, b.gen))
    = some (some (1, 5)) := by decide +kernel
theorem test_reply : view (.replyArrival x0 9 (.g 4 6)) replying (fun t => ((t.ctx x0).readG 4, (t.ctx x0).flow.replies)) = some (6, []) := by
  decide +kernel

/-- ctx0 holds, for a time. -/
def holding (h : Hold) (held : Nat) : State :=
  with0 fun c => { c with task := some 0, mons := [⟨4, 64, false, false, 1⟩, ⟨5, 65, true, false, 2⟩], counts := { c.counts with ns := [3] }
                          flow := { c.flow with hold := some h, held := held, phase := .run } }
/-- ctx0 runs frozen, or near its watchdogs. -/
def frozen (n : Nat) : State :=
  with0 fun c => { c with task := some 0, flow := { c.flow with phase := .run, asEntry := false, frozen := n, freeze := some ⟨.reply, .L, 64, 5⟩ } }
def counting (wdc : Nat) (at_ : Option Nat) : State :=
  { with0 fun c => { c with task := some 0, wdc := wdc, wdogAt := at_, flow := { c.flow with phase := .run } } with dc := 2 ^ 16 }
theorem witness_HoldAndWatchdogEvents :
    ((holding (.fence 7 .die [2]) 0).ctx x0).flow.hold = some (.fence 7 .die [2]) ∧ (holding (.fence 7 .die [2]) 0).allDone x0 [2] = true
    ∧ ((holding (.fence 7 .die [2]) 0).ctx x0).flow.replies = [] ∧ (holding (.fence 7 .die [3]) 0).allDone x0 [3] = false
    ∧ ((holding (.monw 5) 0).ctx x0).flow.hold = some (.monw 5) ∧ (holding (.monw 5) 0).holdMet x0 (.monw 5) = true
    ∧ (holding (.monw 4) 0).holdMet x0 (.monw 4) = false
    ∧ (let s := (gang aTask false).modFlow x0 fun f => { f with hold := some (.baraw 3 (some 4)) };
      (s.ctx x0).flow.hold = some (.baraw 3 (some 4)) ∧ s.holdMet x0 (.baraw 3 (some 4)) = true ∧ (s.barrier? (s.gangIdOf x0) 3).isSome = true)
    ∧ (let s := (gang aTask false).modFlow x0 fun f => { f with hold := some (.baraw 9 (some 4)) };
      (s.ctx x0).flow.hold = some (.baraw 9 (some 4)) ∧ s.barrier? (s.gangIdOf x0) 9 = none ∧ (s.ctx x0).flow.pendingTrap = none)
    ∧ 2 ^ 30 ≤ ((holding (.monw 4) (2 ^ 30)).ctx x0).flow.held ∧ ((holding (.monw 4) (2 ^ 30 - 1)).ctx x0).flow.held < 2 ^ 30
    ∧ ((frozen (2 ^ 16 - 1)).ctx x0).flow.frozen < 2 ^ 16 ∧ 2 ^ 16 ≤ ((frozen (2 ^ 16)).ctx x0).flow.frozen
    ∧ ((frozen (2 ^ 16)).ctx x0).flow.freeze = some ⟨.reply, .L, 64, 5⟩ ∧ ((frozen (2 ^ 16)).ctx x0).flow.phase = .run
    ∧ ((frozen (2 ^ 16)).ctx x0).flow.asEntry = false
    ∧ ((counting (2 ^ 22) none).ctx x0).task.isSome = true ∧ ((counting (2 ^ 22) none).ctx x0).sys.wdog = false
    ∧ 2 ^ (counting (2 ^ 22) none).wdlog x0 ≤ ((counting (2 ^ 22) none).ctx x0).wdc
    ∧ ((counting (2 ^ 22 - 1) none).ctx x0).wdc < 2 ^ (counting (2 ^ 22 - 1) none).wdlog x0
    ∧ ((counting 0 (some 0)).ctx x0).wdogAt = some 0 ∧ 0 + 2 ^ 16 ≤ (counting 0 (some 0)).dc := by decide +kernel
theorem test_fence_result : view (.fenceComplete x0) (holding (.fence 7 .die [2]) 0) (fun t => ((t.ctx x0).readG 7, (t.ctx x0).flow.hold))
    = some (1, none) := by decide +kernel
theorem test_hold_timeout : view (.holdTimeout x0) (holding (.monw 4) (2 ^ 30)) (fun t => (t.ctx x0).flow.hold) = some none := by decide +kernel
theorem test_watchdog_requests : view (.progressWatchdog x0) (counting (2 ^ 22) none) (fun t => (t.ctx x0).sys.wdog) = some true := by
  decide +kernel

/-! ### Device events: engine work and copy blocks -/

def aJob (kind : JKind) : Job :=
  { id := 9, x := x0, task := 0, slot := some 0, tblKind := 0, kind := kind, st := .running, born := true, src := .sp 0, dst := .sp 4096, len := 512
    nblocks := 1, todo := [0], landed := [], due := [], preds := [], rd := [], wr := [], tag := 0, cwe := none, bare := none, err := false, sfmt := {}
    dfmt := {}, sshift := [], dshift := [], nelt := 0, selt := 0, delt := 0, idx := 0, rb := 0, sstr := 0, follow := none, words := [], buf := []
    poison := none }
def aDrain (tgt : RowTgt) : Drain :=
  { id := 4, tile := 0, tgt := tgt, fmt := {}, shifts := [], acc := false, clamp := none, next := 0, done := [], held := false, born := true, follow := none }
/-- The array has the given banks in this dc. -/
def taken (banks : BitVec 64) : State := { State.reset.modCore 0 fun k => { k with stepDc := some 0, arrayBanks := banks } with jobs := [aJob .copy] }
/-- A fill of slot 1, a drain to row 10, work that waits for a tensor. -/
def engine (tgt : RowTgt) (busy : Bool) : State :=
  { (with0 fun c => { c with w := c.w.set 1 { state := 1, fill := 9 }, drains := [aDrain tgt], work := some (macroWork (.waiting [.tensor 5])) }).modCore 0 fun k =>
      { k with drainDc := if busy then some 0 else none, drainBanks := 1 } with jobs := [aJob (.fill 1)] }
def rowsAt : RowTgt := .mem [[(2 ^ 20, 64)]] false 0
/-- An earlier drain of the same bank has a row due. -/
def twoDrains : State :=
  { (engine (.sp 0 10) false).modCtx x0 fun c => { c with drains := { aDrain (.sp 0 80) with id := 3 } :: c.drains } with
    agenda := [(0, .ev (.scratchpadDrainRow x0 3 0))] }
theorem witness_EngineEvents :
    (let s := engine (.sp 0 10) false;
      cellsWf s.mem.cells = true ∧ cellsWf (s.core 0).sp = true
      ∧ s.job? 9 = some (aJob (.fill 1)) ∧ ((s.ctx x0).wslot 1).fill = 9 ∧ ((s.ctx x0).wslot 1).state = 1 ∧ ((s.ctx x0).wslot 0).fill ≠ 9
      ∧ (s.ctx x0).drains.find? (fun z => z.id == 4) = some (aDrain (.sp 0 10)) ∧ 0 ∉ (aDrain (.sp 0 10)).done
      ∧ s.banksTaken 0 (bankMask 0 (colBytes (aDrain (.sp 0 10)).fmt.width)) = false
      ∧ (engine (.sp 0 10) true).banksTaken 0 (bankMask 0 (colBytes (aDrain (.sp 0 10)).fmt.width)) = true
      ∧ (s.core 0).stepDc ≠ some s.dc ∧ (s.core 0).engDc ≠ some s.dc
      ∧ (∀ q ∈ s.drainsDue 0, q.1 < 4 → ∀ b ∈ q.2, (bankMask 0 (colBytes (aDrain (.sp 0 10)).fmt.width)).getLsbD b = false)
      ∧ (∃ q ∈ twoDrains.drainsDue 0, q.1 < 4 ∧ ∃ b ∈ q.2, (bankMask 0 (colBytes (aDrain (.sp 0 10)).fmt.width)).getLsbD b = true)
      ∧ (s.ctx x0).work = some (macroWork (.waiting [.tensor 5])) ∧ (macroWork (.waiting [.tensor 5])).deep = false ∧ (∀ v ∈ (s.ctx x0).w.toList, v.pend = false)
      ∧ s.itemSettled (.tensor 5) = true ∧ ({ s with tensors := [{ aTensor with st := 5 }] } : State).itemSettled (.tensor 5) = false)
    ∧ (let s := engine rowsAt false;
      (s.ctx x0).drains.find? (fun z => z.id == 4) = some (aDrain rowsAt) ∧ (aDrain rowsAt).acc = false
      ∧ s.olderOwn x0 (aDrain rowsAt).ord [(2 ^ 20, 64)] = false ∧ s.kvs = [] ∧ (aDrain rowsAt).shifts.getD 0 [] = [] ∧ s.mem.flips = []
      ∧ ∀ i, i < 64 → (s.memFor 0 (2 ^ 20 + i)).isSome = true ∧ s.dirEntry? ((2 ^ 20 + i) / 128) = none ∧ s.isDead (2 ^ 20 + i) = false
          ∧ ringByte (2 ^ 20 + i) = false)
    ∧ (State.reset.copyYields 0 [4, 4] = false ∧ (taken 16).copyYields 0 [4, 4] = true)
    ∧ (((atWork .ready).core 0).ctx0.engineReady = true ∧ ((atWork .ready).core 0).ctx1.engineReady = false
      ∧ (((atWork .ready).modCore 0 fun k => { k with stepDc := some 0 }).core 0).stepDc = some 0) := by decide +kernel
/-- The later drain's row goes behind the earlier one's. -/
theorem test_drains_in_order : view (.scratchpadDrainRow x0 4 0) twoDrains (fun t => t.agenda.map (·.2)) =
    some [.ev (.scratchpadDrainRow x0 3 0), .ev (.scratchpadDrainRow x0 4 0)] := by decide +kernel
theorem test_engine_turn : view (.engineDc 0) ((atWork .ready).modCore 0 fun k => { k with stepDc := some 0 }) (fun t => (t.core 0).engDc)
    = some none := by decide +kernel
/-- The first page landed stands in bytes 104 and 105, and counts one in bytes 96 and 97. -/
theorem test_page_landed : view (.pageLanded 0 3 60 0x0102) State.reset (fun t => [96, 97, 104, 105].map fun i => t.engByte 0 3 60 i)
    = some [1, 0, 2, 1] := by decide +kernel

/-- A copy whose block has been read and is due. -/
def landing : State :=
  { State.reset with jobs := [{ aJob .copy with len := 1024, nblocks := 2, todo := [1], due := [(0, 0)], buf := [(0, 7), (1, 8)] }] }
/-- A block of a copy from memory to the scratchpad, and one from it to memory. -/
def fetching : State := { State.reset with jobs := [{ aJob .copy with src := .mem 0 (2 ^ 20) [⟨0, 2 ^ 20, 512⟩] }] }
def storing : State := { landing with jobs := landing.jobs.map fun j => { j with dst := .mem 0 (2 ^ 20) [⟨0, 2 ^ 20, 1024⟩] } }
theorem witness_memory_blocks :
    (∃ j, fetching.job? 9 = some j ∧ segsAt [⟨0, 2 ^ 20, 512⟩] 0 (min 512 j.len) = some ((List.range 512).map (2 ^ 20 + ·)) ∧ j.kind = .copy
      ∧ j.src = .mem 0 (2 ^ 20) [⟨0, 2 ^ 20, 512⟩] ∧ j.dst = .sp 4096 ∧ 0 ∈ j.todo ∧ 0 ∉ j.held ∧ j.nominal = []
      ∧ fetching.srcWaits j ((List.range 512).map (2 ^ 20 + ·)) = false)
    ∧ (∃ j, storing.job? 9 = some j ∧ segsAt [⟨0, 2 ^ 20, 1024⟩] 0 (min 512 j.len) = some ((List.range 512).map (2 ^ 20 + ·)) ∧ j.kind = .copy
      ∧ j.src = .sp 0 ∧ j.dst = .mem 0 (2 ^ 20) [⟨0, 2 ^ 20, 1024⟩] ∧ j.st = .running ∧ j.todo ≠ [] ∧ 0 ∉ j.landed ∧ 0 ∉ j.held ∧ j.far = []
      ∧ j.due.find? (fun z => z.1 == 0) = some (0, 0) ∧ storing.olderOwn (storing.jobCtx j) 9 (((List.range 512).map (2 ^ 20 + ·)).map fun a => (a, 1)) = false
      ∧ (j.buf.filter fun z => decide (0 ≤ z.1 ∧ z.1 < 512)) = bytesAt 0 [7, 8])
    ∧ (∀ i, i < 512 → homeDie (2 ^ 20 + i) = 0 ∧ (State.reset.memFor 0 (2 ^ 20 + i)).isSome = true ∧ State.reset.dirEntry? ((2 ^ 20 + i) / 128) = none
      ∧ State.reset.isDead (2 ^ 20 + i) = false ∧ ringByte (2 ^ 20 + i) = false) ∧ State.reset.mem.poison = [] ∧ State.reset.mem.flips = []
    ∧ storing.kvs = [] :=
  ⟨⟨_, Option.eq_some_of_isSome (by decide +kernel), by decide +kernel⟩, ⟨_, Option.eq_some_of_isSome (by decide +kernel), by decide +kernel⟩,
    by decide +kernel⟩
theorem test_memory_blocks : view (.copyBlockIssue x0 9 0) fetching (fun t => t.jobs.map fun j => (j.buf.length, j.todo)) = some [(512, [])]
    ∧ view (.copyBlockLand x0 9 0) storing (fun t => cellsReadN t.mem.cells (2 ^ 20) 2) = some [7, 8] := by decide +kernel
theorem witness_CopyBlockEvents :
    cellsWf State.reset.mem.cells = true ∧ cellsWf (State.reset.core 0).sp = true
    ∧ ({ State.reset with jobs := [aJob .copy] } : State).job? 9 = some (aJob .copy) ∧ 0 ∈ (aJob .copy).todo
    ∧ (∃ j, landing.job? 9 = some j ∧ j.kind = .copy ∧ j.src = .sp 0 ∧ j.dst = .sp 4096 ∧ 0 < (j.len + 511) / 512 ∧ j.st = .running ∧ j.todo ≠ []
        ∧ 0 ∉ j.landed ∧ j.due.find? (fun z => z.1 == 0) = some (0, 0)
        ∧ (j.buf.filter fun z => decide (512 * 0 ≤ z.1 ∧ z.1 < 512 * 0 + min 512 (j.len - 512 * 0))) = bytesAt (512 * 0) [7, 8])
    ∧ 0 ≤ landing.dc ∧ landing.copyYields 0 (banksOf 4096 512) = false ∧ (∀ j ∈ landing.jobs, j.far = [])
    ∧ (0 ∉ (aJob .copy).held ∧ (∀ z ∈ (aJob .copy).nominal, z.1 ≠ 0)
        ∧ ({ State.reset with jobs := [aJob .copy] } : State).copyYields 0 (banksOf 0 512) = false
        ∧ (taken 1).job? 9 = some (aJob .copy) ∧ (taken 1).copyYields 0 (banksOf 0 512) = true) :=
  ⟨by decide +kernel, by decide +kernel, by decide +kernel, by decide +kernel, ⟨_, Option.eq_some_of_isSome (by decide +kernel), by decide +kernel⟩,
    by decide +kernel⟩
/-- A block that the array keeps from its bank is tried again in the next dc. -/
theorem test_block_yields : view (.copyBlockIssue x0 9 0) (taken 1) (fun t => (t.agenda.contains (1, .ev (.copyBlockIssue x0 9 0)), t.jobs.map (·.todo)))
    = some (true, [[0]]) := by decide +kernel
theorem test_block_lands : view (.copyBlockLand x0 9 0) landing (fun t => (cellsReadN (t.core 0).sp 4096 2, t.jobs.map (·.landed)))
    = some ([7, 8], [[0]]) := by decide +kernel

/-! ### Device events: queues, completion, tasks, scheduling, residency -/

/-- Die 0's queue 0 has the identity for its root; its descriptor stands at 128 KiB, given bits. -/
def queue (desc : Nat) (z : Die → Die) : State :=
  let s := (identity State.reset).modDie 0 fun d => z { d with qroot := d.qroot.set 0 1, qdbase := 0x20000 }
  { s with mem := { s.mem with cells := cellsWriteAll s.mem.cells (bytesAt 0x20000 (natToBytes desc 64)) } }
/-- EN, RLOG 4, CLOG 4. -/
def enabled : Nat := 4 + 4 * 2 ^ 323 + 4 * 2 ^ 451
def aCmd (n : Nat) : SpawnCmd := ⟨64, false, 5, x0, n, 0⟩
def bits (r : State × SysRead) : BitVec 512 :=
  match r.2 with
  | .got bs => BitVec.ofNat 512 (bytesToNat bs)
  | _ => 0
theorem got_bits (r : State × SysRead) (h : isGot r.2 = true) :
    ∃ u bs, r = (u, .got bs) ∧ BitVec.ofNat 512 (bytesToNat bs) = bits r := by
  obtain ⟨u, bs, e⟩ := got_of_isGot r h
  exact ⟨u, bs, e, by subst e; rfl⟩
def again : Act := .ev (.doorbell 0 0)
theorem witness_QueueEvents :
    ((State.reset.die 0).fifo[0]).length < 16
    ∧ (∃ s : State, 16 ≤ ((s.die 0).fifo[0]).length)
    ∧ (isGot ((queue 0 id).queueDesc 0 0 again).2 = true ∧ (bits ((queue 0 id).queueDesc 0 0 again)).getLsbD 2 = false)
    ∧ (isGot ((queue enabled id).queueDesc 0 0 again).2 = true
        ∧ let b := bits ((queue enabled id).queueDesc 0 0 again);
          b.getLsbD 2 = true ∧ 4 ≤ (b.extractLsb' 323 4).toNat ∧ 4 ≤ (b.extractLsb' 451 4).toNat
            ∧ (b.extractLsb' 307 16 - b.extractLsb' 291 16).toNat ≤ 2 ^ (b.extractLsb' 323 4).toNat)
    ∧ State.reset.commandDue 0 = false
    ∧ (queue enabled fun z => { z with fifo := z.fifo.set 0 [aCmd 1] }).commandDue 0 = true
    ∧ (∃ c : Cmd, c.bad = true) ∧ (∃ c : Cmd, c.bad = false ∧ c.lba.toNat % 64 = 0)
    ∧ (∃ u, ({ queue 0 id with mem := { cells := bytesAt (17 * 4096) (natToBytes 0x5F3 2) } } : State).readBlock 0 ((queue 0 id).queueRoot 0 0) 64 again
        = (u, .away)) :=
  ⟨by decide +kernel, ⟨State.reset.modDie 0 fun z => { z with fifo := z.fifo.set 0 ((List.range 16).map aCmd) }, by decide +kernel⟩,
    by decide +kernel, by decide +kernel, by decide +kernel, by decide +kernel, ⟨⟨64, false, 5, true, true, false⟩, rfl⟩,
    ⟨⟨64, false, 5, false, true, false⟩, rfl, by decide⟩, second_is _ _ (by decide +kernel)⟩
theorem test_doorbell_makes_visible :
    view (.doorbell 0 0) (queue (enabled + 3 * 2 ^ 307) id) (fun t => (t.die 0).visible[0]) = some 3
    ∧ view (.doorbell 0 0) (queue (enabled + 17 * 2 ^ 307) id) (fun t => (t.die 0).visible[0]) = some 0 := by decide +kernel
theorem test_spawn_fifo : view (.spawnPost x0 1 0 64 false 5) State.reset (fun t => ((t.die 0).fifo[0]).map (·.lba)) = some [64] := by
  decide +kernel

/-- A launch of one task of queue 0 of die 0, with bits of its ACT field. -/
def aLaunch (act : Nat) : Launch :=
  { lid := 3, die := 0, queue := 0, cookie := 9, lba := 64, dbg := false, root := 1
    block := BitVec.ofNat 512 (2 ^ 399 + 2 ^ 406 + 2 ^ 344 + 2 ^ 328 + act * 2 ^ 431 + 0x30000 * 2 ^ 256)
    accepted := 0, waves := 1, nfault := 2, errMark := false, nextWave := 0, nextGang := 0, waveLeft := [], passedAt := none }
def finishing (desc act stage : Nat) : State :=
  { queue desc id with work := { launches := [aLaunch act], completing := [⟨.launch 3, stage⟩] } }
/-- A core shares the first line of the completion ring. -/
def shared (desc : Nat) : State := (finishing desc 64 1).modDie 0 fun z => { z with dir := [{ entry .s [3] [] with line := 0 }] }
/-- The completion ring holds 16 entries. -/
def fullRing : State := (finishing enabled 64 1).modDie 0 fun z => { z with cprod := z.cprod.set 0 16 }
theorem witness_CompletionEvents :
    ((finishing 0 0 0).work.completing.find? (fun c => c.unit == .launch 3 && c.stage == 0) ≠ none
      ∧ (∃ r, (finishing 0 0 0).report (.launch 3) = some r ∧ r.w = false)
      ∧ (∃ r, (finishing 0 128 0).report (.launch 3) = some r ∧ r.w = true
          ∧ ∃ v, (finishing 0 128 0).sysWrite r.l.die r.l.root r.word (natToBytes r.value.toNat 8) (.ev (.unitCompletion (.launch 3))) = (v, .done)))
    ∧ ((finishing 0 64 1).work.completing.find? (fun c => c.unit == .launch 3 && c.stage == 1) ≠ none
      ∧ (∃ r, (finishing 0 64 1).report (.launch 3) = some r ∧ r.l.die = 0 ∧ r.l.queue = 0)
      ∧ isGot ((finishing 0 64 1).queueDesc 0 0 again).2 = true ∧ (bits ((finishing 0 64 1).queueDesc 0 0 again)).extractLsb' 451 4 = 0
      ∧ isGot (fullRing.queueDesc 0 0 again).2 = true
      ∧ (let b := bits (fullRing.queueDesc 0 0 again);
         (b.extractLsb' 451 4).toNat = 4 ∧ (b.extractLsb' 435 16 - b.extractLsb' 419 16).toNat = 2 ^ 4)
      ∧ (let b := bits ((finishing enabled 64 1).queueDesc 0 0 again);
         (b.extractLsb' 451 4).toNat = 4 ∧ (b.extractLsb' 435 16 - b.extractLsb' 419 16).toNat ≠ 2 ^ 4
          ∧ ∃ u1 u2 v, ((finishing enabled 64 1).queueDesc 0 0 again).1.sysClear 0 1 (b.extractLsb' 455 57).toNat 16 again = (u1, true)
            ∧ u1.sysClear 0 1 (u1.queueAddr 0 0) 64 again = (u2, true)
            ∧ u2.sysWrite 0 1 (b.extractLsb' 455 57).toNat (natToBytes 5 16) again = (v, .done))
      ∧ (let b := bits ((shared enabled).queueDesc 0 0 again);
         ∃ v, ((shared enabled).queueDesc 0 0 again).1.sysClear 0 1 (b.extractLsb' 455 57).toNat 16 again = (v, false))) := by
  exact ⟨⟨by decide +kernel, ⟨_, Option.eq_some_of_isSome (by decide +kernel), by decide +kernel⟩,
    _, Option.eq_some_of_isSome (by decide +kernel), by decide +kernel, second_is _ _ (by decide +kernel)⟩, by decide +kernel,
    ⟨_, Option.eq_some_of_isSome (by decide +kernel), by decide +kernel⟩, by decide +kernel, by decide +kernel, by decide +kernel, by decide +kernel,
    ⟨by decide +kernel, by decide +kernel, _, _, _, pair_of _ _ (by decide +kernel), pair_of _ _ (by decide +kernel),
      pair_of _ _ (by decide +kernel)⟩,
    second_is _ _ (by decide +kernel)⟩
/-- V, ERR, the launch ID 3 and two faults. -/
theorem test_completion_word : view (.unitCompletion (.launch 3)) (finishing 0 128 0)
    (fun t => (t.peekNat 0x30000 8, t.work.launches.length)) = some (2 ^ 63 + 2 ^ 62 + 3 * 65536 + 2, 0) := by decide +kernel
/-- Queue 0 alone has a command: its FIFO holds one, whose launch block is at byte 64. -/
def oneCommand : State := queue (enabled + 8 + 1) fun z => { z with fifo := z.fifo.set 0 [aCmd 1] }
def taking : Act := .ev (.takeCommand 0)
theorem witness_TakeCommand :
    (oneCommand.commandDue 0 = true ∧ (oneCommand.die 0).fifo[0] = aCmd 1 :: [] ∧ (oneCommand.die 0).visible[0] = (oneCommand.die 0).rcons[0]
      ∧ (∀ p : BitVec 4, p ≠ 0 → (oneCommand.die 0).fifo[p.toNat]'p.isLt = [] ∧ (oneCommand.die 0).visible[p.toNat]'p.isLt = (oneCommand.die 0).rcons[p.toNat]'p.isLt)
      ∧ (let r := oneCommand.queueDesc 0 0 taking;
        isGot r.2 = true ∧ (r.1.die 0).rcons = (oneCommand.die 0).rcons ∧ (r.1.die 0).visible = (oneCommand.die 0).visible
          ∧ (r.1.die 0).fifo = (oneCommand.die 0).fifo ∧ (bits r).extractLsb' 291 16 = (oneCommand.die 0).rcons[0]
          ∧ (r.1.takeFrom 0 0 (bits r) ⟨64, false, 5, false, true, false⟩ taking).2.isSome = true)) := by decide +kernel
/-- Its launch block is that of one task, entered at the bundle at byte 0, whose E bit stands; or is empty. -/
def withBlock (block entry : Nat) : State :=
  let l := cellsWriteAll oneCommand.mem.cells (bytesAt 64 (natToBytes block 64))
  { oneCommand with mem := { oneCommand.mem with cells := cellsWriteAll l (bytesAt 0 (natToBytes entry 64)) } }
def goodBlock : Nat := (aLaunch 0).block.toNat
def bits2 (r : State × BlockRead) : BitVec 512 :=
  match r.2 with
  | .got b => b
  | _ => 0
def isRead : BlockRead → Bool
  | .got _ => true
  | _ => false
theorem readBlock_got (r : State × BlockRead) (h : isRead r.2 = true) : r = (r.1, .got (bits2 r)) := by
  obtain ⟨u, q⟩ := r
  cases q <;> simp_all [isRead, bits2]
def readsIt (s : State) : State × BlockRead := s.readBlock 0 (s.queueRoot 0 0) 64 taking
def readsEntry (s : State) : State × BlockRead := (readsIt s).1.readBlock 0 (s.queueRoot 0 0) (64 * ((bits2 (readsIt s)).extractLsb' 0 51).toNat) taking
/-- The block as the launch holds it, its ID filled in. -/
def heldBlock (s : State) (lid : Nat) : BitVec 512 :=
  (bits2 (readsIt s) &&& ~~~(BitVec.ofNat 512 ((2 ^ 24 - 1) * 2 ^ 360))) ||| BitVec.ofNat 512 (lid * 2 ^ 360)
theorem bad_any (b : BitVec 512) (r : Bool) (h : blkF b 426 4 = 0) (g : blockBad b 0 = r) (m : Nat) : blockBad b m = r := by
  rw [← g]; unfold blockBad; rw [h, Nat.zero_and, Nat.zero_and]
/-- A block that is accepted, and one that is refused; both are read, and so is the bundle at their ENTRY. -/
theorem witness_BlockRead : ∀ n ∈ [goodBlock, 0], let s := withBlock n 2;
    ∃ u v w z lid b h, readsIt s = (u, .got b) ∧ u.readBlock 0 (s.queueRoot 0 0) (64 * (b.extractLsb' 0 51).toNat) taking = (v, .got h)
      ∧ v.sysClear 0 (s.queueRoot 0 0) 64 64 taking = (w, true) ∧ w.removeCmd 0 0 (dPri 0) 0 false taking = (z, lid) ∧ h.getLsbD 1 = true
      ∧ b = bits2 (readsIt s) := by
  intro n hn
  refine ⟨_, _, _, _, _, _, _, readBlock_got _ ?_, readBlock_got _ ?_, pair_of _ _ ?_, rfl, ?_, rfl⟩ <;> (revert n; decide +kernel)
theorem witness_BlockAccepted (m : Nat) : blockBad (heldBlock (withBlock goodBlock 2) 0) m = false ∧ blockBad (heldBlock (withBlock 0 2) 0) m = true :=
  ⟨bad_any _ _ (by decide +kernel) (by decide +kernel) m, bad_any _ _ (by decide +kernel) (by decide +kernel) m⟩

/-! Scheduling. -/

/-- The launch for die 0 alone, its root off. -/
def dieZero (l : Launch) : Launch := { l with root := 0, block := l.block ||| BitVec.ofNat 512 (2 ^ 426) }
/-- A launch whose one gang, a solo task, waits for admission. -/
def admitting : State := { State.reset with work := { launches := [dieZero (aLaunch 0)] } }
def headOf : Head := ⟨0, 0, ⟨3, 0, 0⟩, false⟩
def passed : State :=
  { State.reset with dc := 2 ^ 20, work := { launches := [dieZero { aLaunch 0 with passedAt := some 0 }] } }
/-- Every context but one is taken, and a ready record is enough to use that up. -/
def crowded : State :=
  { admitting with work := { admitting.work with tasks := [{ aTask with state := 1 }], gangs := [⟨⟨0, 0, 0⟩, 0, 0, 1, 0, false, false, [], [0], true⟩], nextTask := 1 }
                   cores := (Vector.replicate 256 ({ ctx0 := { task := some 7 }, ctx1 := { task := some 7 } } : Core)).set 5 { ctx0 := { task := some 7 } } }
def waiting (since pri : Nat) : State :=
  { State.reset with dc := 2 ^ 20 + 16, work := { tasks := [{ aTask with state := 1, since := since, pri := BitVec.ofNat 2 pri }]
                                                  gangs := [⟨⟨0, 0, 0⟩, 0, 0, 1, 0, false, false, [], [0], true⟩] } }
/-- Where a run of frames is free, frames are handed out, whatever the free choice is, and only memory changes. -/
theorem takes_frames (s : State) (d : BitVec 2) (tier n f : Nat) (h : (s.draw .frame).2.firstFit d ((tierFrames d tier).1 + (tierFrames d tier).2) n
    (tierFrames d tier).1 ((s.draw .frame).2.fitTries d) = some f) :
    ∃ g m, s.takeFrames d tier n = some ([(g, n)], { s with fresh := s.fresh + 1, mem := m }) ∧ ((tierFrames d tier).1 ≤ g ∨ g = f) := by
  unfold State.takeFrames
  dsimp only
  split
  · exact ⟨_, _, rfl, .inl (Nat.le_add_right _ _)⟩
  · rw [h]
    exact ⟨_, _, rfl, .inr rfl⟩
/-- A gang of one whose root is off: its record, whatever the free choices are. -/
theorem new_gang (s : State) (l : Launch) (g : GangId) (d : BitVec 2) (f : Nat) (hb : blkSize l.block = 1) (hr : rootEn l.root = false)
    (h : ({ s with fresh := s.fresh + 3 } : State).firstFit d ((tierFrames d 1).1 + (tierFrames d 1).2) 1 (tierFrames d 1).1
      (({ s with fresh := s.fresh + 3 } : State).fitTries d) = some f) :
    ∃ t m n gs, s.newGang l g d = { s with fresh := n, mem := m, work := { s.work with
        nextTask := s.work.nextTask + 1, tasks := s.work.tasks ++ [t], gangs := gs } }
      ∧ t.gang = g ∧ t.key = s.work.nextTask ∧ t.sps = BitVec.ofNat 12 (blkSps l.block) := by
  obtain ⟨g', m, e, -⟩ := takes_frames { s with fresh := s.fresh + 2 } d 1 1 f h
  have p : ({ s with fresh := s.fresh + 2 } : State).placeRecord d l.root
      = (⟨some (framePa [(g', 1)] 0), none, l.root, d, 0⟩, { s with fresh := s.fresh + 3, mem := m }) := by
    simp only [State.placeRecord, e, hr, Bool.not_false, if_true]
  have q : ∀ i, ∃ t, s.makeTask l g d i = (s.work.nextTask, { s with fresh := s.fresh + 3, mem := m, work := { s.work with
      nextTask := s.work.nextTask + 1, tasks := s.work.tasks ++ [t] } }) ∧ t.gang = g ∧ t.key = s.work.nextTask
        ∧ t.sps = BitVec.ofNat 12 (blkSps l.block) := by
    intro i
    simp only [State.makeTask, State.pickSpb, State.draw, Nat.add_assoc, Nat.reduceAdd, p]
    exact ⟨_, rfl, rfl, rfl, rfl⟩
  obtain ⟨t, q, ht⟩ := q 0
  refine ⟨t, m, s.fresh + 3, s.work.gangs ++ [⟨g, d, 0, 1, 0, false, false, [], [s.work.nextTask], false⟩], ?_, ht⟩
  simp only [State.newGang, hb, List.range_one, List.foldl_cons, List.foldl_nil, q, List.nil_append]
/-- The record of a gang of one, and a context for it beside a free one. -/
theorem seat_of (s : State) (l : Launch) (g : GangId) (d : BitVec 2) (f : Nat) (x : CtxId) (hb : blkSize l.block = 1) (hr : rootEn l.root = false)
    (h : ({ s with fresh := s.fresh + 3 } : State).firstFit d ((tierFrames d 1).1 + (tierFrames d 1).2) 1 (tierFrames d 1).1
      (({ s with fresh := s.fresh + 3 } : State).fitTries d) = some f)
    (ht : s.work.tasks = []) (hx : x ∈ s.freeCtxs d) (ho : (s.ctx x.other).task = none)
    (hc : 0 < 2049 - (BitVec.ofNat 12 (blkSps l.block)).toNat ∧ rowsMeet (0, (BitVec.ofNat 12 (blkSps l.block)).toNat) (s.gangClaim g) = false) :
    ∃ t, (s.newGang l g d).task? s.work.nextTask = some t ∧ (s.newGang l g d).seats d t true ≠ [] := by
  obtain ⟨t, m, n, gs, e, h1, h2, h3⟩ := new_gang s l g d f hb hr h
  refine ⟨t, by rw [e]; simp [State.task?, ht, h2], ?_⟩
  have hk : (s.newGang l g d).cores = s.cores := by rw [e]
  have hg : (s.newGang l g d).gangClaim g = s.gangClaim g := by rw [e]; rfl
  have hf : (s.newGang l g d).freeCtxs d = s.freeCtxs d := by rw [e]; rfl
  generalize s.newGang l g d = v at hk hg hf
  have nb : v.neighbour x = none := by
    have : v.ctx x.other = s.ctx x.other := by rw [State.ctx, State.ctx, State.core, State.core, hk]
    simp [State.neighbour, State.taskOf, this, ho]
  have c0 : 0 ∈ v.carveChoices x g t.sps.toNat := by
    rw [h3]
    exact List.mem_filter.mpr ⟨List.mem_range.mpr hc.1, by rw [hg, hc.2, State.carveFits, nb]; rfl⟩
  refine List.ne_nil_of_mem (a := x) (List.mem_filter.mpr ⟨by rw [hf]; exact hx, ?_⟩)
  simp only [if_true, h1, State.claimFits, nb, Bool.true_and, Bool.not_eq_true']
  exact List.isEmpty_eq_false_iff.mpr (List.ne_nil_of_mem c0)
/-- A context can be picked from any that there are, whatever the choice. -/
theorem pick_some (s : State) (l : List CtxId) (h : l ≠ []) : (s.pickCtx l).isSome = true := by
  have hl : 0 < l.length := List.length_pos_iff.mpr h
  simp only [State.pickCtx, Option.isSome_map]
  rw [List.getElem?_eq_getElem (Nat.mod_lt _ hl)]
  rfl
/-- A gang of one that reserves nothing is placed where more contexts stand open to it than waiting records may take. -/
theorem place_solo (s : State) (h : Head) (d : BitVec 2) (l : Launch) (t : Machine.Task) (hb : h.back = false) (hl : s.launch? h.gang.lid = some l)
    (h1 : ¬ (1 < blkSize l.block ∨ (s.work.reserves.any fun r => r.gang == h.gang) = true))
    (ht : (s.newGang l h.gang d).task? s.work.nextTask = some t)
    (hr : ((s.readySolos d).filter fun q => ((s.newGang l h.gang d).seats d t true).any fun x => s.fits x q).length
      < ((s.newGang l h.gang d).seats d t true).length) : (s.tryPlace h d).isSome = true := by
  have hn : (s.newGang l h.gang d).seats d t true ≠ [] := fun e => by simp [e] at hr
  simp only [State.tryPlace, hb, hl, Option.bind_some, if_neg h1, ht, Option.map_some, Option.getD_some, if_pos hr, State.seatFor,
    Option.isSome_map, Bool.false_eq_true, if_false]
  refine pick_some _ _ ?_
  split
  · exact hn
  · rename_i e
    exact fun q => e (by rw [q]; rfl)
/-- With one free context and a waiting record that fits it, a gang of one is passed over. -/
theorem passed_over (s : State) (h : Head) (d : BitVec 2) (l : Launch) (f : Nat) (x : CtxId) (t0 : Machine.Task) (h0 : h.back = false)
    (hl : s.launch? h.gang.lid = some l) (hb : blkSize l.block = 1) (hr : rootEn l.root = false)
    (hf : ({ s with fresh := s.fresh + 3 } : State).firstFit d ((tierFrames d 1).1 + (tierFrames d 1).2) 1 (tierFrames d 1).1
      (({ s with fresh := s.fresh + 3 } : State).fitTries d) = some f)
    (hv : s.work.reserves = []) (hx : s.freeCtxs d = [x]) (hs : s.readySolos d = [t0]) (ht : s.fits x t0 = true) : s.tryPlace h d = none := by
  obtain ⟨t, m, n, gs, e, -, -, -⟩ := new_gang s l h.gang d f hb hr hf
  have key : ∀ o : List CtxId, (o = [] ∨ o = [x]) → ¬ ((s.readySolos d).filter fun t => o.any fun x => s.fits x t).length < o.length := by
    rintro o (rfl | rfl) <;> simp [hs, ht]
  have hn : ¬ (1 < blkSize l.block ∨ (s.work.reserves.any fun r => r.gang == h.gang) = true) := by simp [hb, hv]
  simp only [State.tryPlace, h0, hl, Option.bind_some, if_neg hn, Bool.false_eq_true, if_false]
  refine if_neg (key _ ?_)
  cases hk : (s.newGang l h.gang d).task? s.work.nextTask with
  | none => exact .inl rfl
  | some w =>
    have fr : (s.newGang l h.gang d).freeCtxs d = [x] := by rw [e]; exact hx
    have one : ∀ p : CtxId → Bool, [x].filter p = [] ∨ [x].filter p = [x] := fun p => by cases q : p x <;> simp [q]
    rw [Option.map_some, Option.getD_some, State.seats, fr]
    exact one _
theorem witness_AdmissionEvents :
    State.reset.admitDue 0 = false
    ∧ (admitting.admitDue 0 = true ∧ admitting.heads 0 = [headOf] ∧ admitting.offerDie headOf = some 0 ∧ admitting.reservedFor 0 headOf.gang = true
      ∧ (admitting.tryPlace headOf 0).isSome = true)
    ∧ (headOf.back = false ∧ admitting.launch? 3 = some (dieZero (aLaunch 0)) ∧ blkSize (dieZero (aLaunch 0)).block = 1 ∧ admitting.work.reserves = []
      ∧ admitting.readySolos 0 = [] ∧ ∃ w, (admitting.newGang (dieZero (aLaunch 0)) ⟨3, 0, 0⟩ 0).task? admitting.work.nextTask = some w
        ∧ (admitting.newGang (dieZero (aLaunch 0)) ⟨3, 0, 0⟩ 0).seats 0 w true ≠ [])
    ∧ (crowded.admitDue 0 = true ∧ crowded.heads 0 = [headOf] ∧ crowded.offerDie headOf = some 0 ∧ crowded.reservedFor 0 headOf.gang = true
      ∧ crowded.tryPlace headOf 0 = none)
    ∧ admitting.reservationDue ⟨3, 0, 0⟩ = false
    ∧ (passed.reservationDue ⟨3, 0, 0⟩ = true ∧ passed.passedHead ⟨3, 0, 0⟩ = some (headOf, 0) ∧ passed.wouldOffer headOf = some 0)
    ∧ ((waiting 0 0).task? 0 = some { aTask with state := 1 } ∧ (waiting 0 0).soloTask 0 = true
        ∧ aTask.effPri.toNat < min 3 (aTask.pri.toNat + ((waiting 0 0).dc - aTask.since) / 2 ^ 20))
    ∧ (waiting 0 0).dc % 16 = 0 ∧ ({ State.reset with dc := 1 } : State).dc % 16 ≠ 0
    ∧ (State.reset.core 0).margin.thermal = 16 :=
  have seat := seat_of admitting (dieZero (aLaunch 0)) ⟨3, 0, 0⟩ 0 _ x0 (by decide +kernel) (by decide +kernel)
    (Option.eq_some_of_isSome (by decide +kernel)) rfl (by decide +kernel) (by decide +kernel) (by decide +kernel)
  ⟨by decide +kernel, ⟨by decide +kernel, by decide +kernel, by decide +kernel, by decide +kernel, by
      obtain ⟨t, ht, hs⟩ := seat
      refine place_solo _ _ _ _ t rfl (Option.eq_some_of_isSome (by decide +kernel)) (by decide +kernel) ht ?_
      rw [show admitting.readySolos 0 = [] from by decide +kernel]
      exact List.length_pos_iff.mpr hs⟩,
    ⟨rfl, by decide +kernel, by decide +kernel, rfl, by decide +kernel, seat⟩,
    ⟨by decide +kernel, by decide +kernel, by decide +kernel, by decide +kernel,
      passed_over _ _ _ _ _ ⟨5, true⟩ { aTask with state := 1 } rfl (Option.eq_some_of_isSome (by decide +kernel)) (by decide +kernel) (by decide +kernel)
        (Option.eq_some_of_isSome (by decide +kernel)) rfl (by decide +kernel) (by decide +kernel) (by decide +kernel)⟩,
    by decide +kernel⟩
theorem test_reservation : view (.gangReservation ⟨3, 0, 0⟩) passed (·.work.reserves) = some [⟨⟨3, 0, 0⟩, 0⟩] := by decide +kernel
theorem test_promotion : view (.priorityPromotion 0) (waiting 0 1) (fun t => t.work.tasks.map (·.effPri)) = some [2] := by decide +kernel


/-! Tasks. -/

/-- A ready record at a free context; a context that leaves its task or ends it, no core being listed as occupied. -/
def ready : State :=
  { identity State.reset with work := { tasks := [{ aTask with state := 1, troot := 1, entry := 5, ctxb := 0x20000 }]
                                        gangs := [⟨⟨0, 0, 0⟩, 0, 0, 1, 0, true, false, [], [0], true⟩] } }
def soloIn (p : Phase) : State :=
  let s := identity (with0 fun c => { c with
    task := some 0, flow := { c.flow with phase := p, pc := 5 }, sys := { c.sys with troot := 1, ctxb := 0x20000 } })
  { s with work := { tasks := [aTask], gangs := [⟨⟨0, 0, 0⟩, 0, 0, 1, 0, true, false, [], [0], true⟩] } }
/-! The length of an image, and a write that no monitor watches: what the witness of the write back needs. -/

theorem jobTable_len (s : State) (k : Nat) : (s.jobTable k).length = 24 * 56 := by
  refine (flatMap_len _ 56 _ fun n => ?_).trans (by rw [List.length_range])
  cases s.jobs.find? fun j => j.task == k && j.slot == some n with
  | none => exact List.length_replicate
  | some j => exact padTo_len _ _
theorem image_len (s : State) (x : CtxId) (a : BitVec 57) (b : BitVec 40) : (s.image x a b).length = 53 * 4096 := by
  have hl : ∀ (n : Nat) (l : List Nat), (l.flatMap fun v => natToBytes v n).length = l.length * n := fun n l => flatMap_len _ n l fun v => natToBytes_len v n
  have hf : ∀ f : Nat → List Nat, (∀ i, (f i).length = 2) → ((List.range 8).flatMap f).length = 16 := fun f h => by
    simp [List.length_flatMap, h]
  have hg : ∀ f : Nat → List Nat, (∀ i, (f i).length = 2) → ((List.range 4).flatMap f).length = 8 := fun f h => by
    simp [List.length_flatMap, h]
  have hs : ∀ l : List SVal, (l.flatMap fun v => [v.cls, BitVec.ofNat 8 v.len.toNat]).length = l.length * 2 := fun l => flatMap_len _ 2 l fun v => rfl
  unfold State.image
  extract_lets c r hdr ns cregs loops locks
  have hn : ∀ (l : List Nat) (n : Nat), (ns l n).length = l.length * n := fun l n => hl n l
  have e1 : hdr.length = 64 := natToBytes_len _ _
  have e2 : locks.length = 16 := hf _ (fun i => by split <;> rfl)
  have e3 : loops.length = 8 := hg _ (fun i => rfl)
  have e4 : cregs.length = 84 := by rw [List.length_map, List.length_range]
  have e5 : c.weightDesc.length = 128 := padTo_len _ _
  clear_value hdr ns cregs loops locks
  repeat rw [List.length_append]
  rw [hn, hn, hn, hn, hn, hn, hn, hn, hn, hn, e1, e2, e3, e4, e5]
  rw [natToBytes_len, natToBytes_len, padTo_len, jobTable_len, hs, tileBytes_len, List.length_replicate, List.length_replicate]
  rw [List.length_map, List.length_map, List.length_map, List.length_map, List.length_map, List.length_map, List.length_map,
    List.length_range, List.length_range, Vector.length_toList, Vector.length_toList, Vector.length_toList, Vector.length_toList,
    Vector.length_toList]
theorem ctx_of_cores {s t : State} (h : s.cores = t.cores) (x : CtxId) : s.ctx x = t.ctx x := by rw [State.ctx, State.ctx, State.core, State.core, h]
theorem foldl_home (bs : List Byte) : ∀ (l : List (Nat × Nat × Nat)) (s : State), s.occ = [] →
    SameCores s (l.foldl (fun s r => (s.homeWriteAt r.1 ((bs.drop r.2.1).take r.2.2)).2) s)
  | [], _, _ => ⟨rfl, rfl, rfl⟩
  | r :: t, s, h => by
    have e : SameCores s (s.homeWriteAt r.1 ((bs.drop r.2.1).take r.2.2)).2 := State.homeWrite_cores s _ h
    exact e.trans (foldl_home bs t _ (e.2.2.trans h))
theorem sysWrite_cores (s u : State) (d : BitVec 2) (root : Word) (va : Nat) (bs : List Byte) (again : Act) (segs : List (Nat × Nat))
    (hs : s.sysSegs d root va true (pagesOf [(va, bs.length)]) = (u, .ok segs))
    (hc : u.clearLines true again (wlines va bs.length segs) = none) (ho : u.occ = []) :
    ∃ v, s.sysWrite d root va bs again = (v, .done) ∧ SameCores u v := by
  refine ⟨_, ?_, foldl_home bs (segs.map fun p => (p.2 + max va (p.1 * 4096) % 4096, max va (p.1 * 4096) - va,
      min (va + bs.length) (p.1 * 4096 + 4096) - max va (p.1 * 4096))) u ho⟩
  simp only [wlines] at hc
  simp only [State.sysWrite, hs, List.flatMap_map, hc]
def atHome : State := soloIn (.leaving .yield)
def wb : Act := .ev (.writeBack x0)
/-- The state after the header read that a save begins with. -/
def read1 : State := (atHome.sysRead 0 1 0x20000 64 wb).1
def segs1 : List (Nat × Nat) := (List.range 53).map fun i => (i + 32, (i + 32) * 4096)
theorem read1_got : (atHome.sysRead 0 1 0x20000 64 wb).2 = .got (List.replicate 64 0) := by decide +kernel
theorem read1_segs : (read1.sysSegs 0 1 0x20000 true (pagesOf [(0x20000, 53 * 4096)])).2 = .ok segs1 := by decide +kernel
def segd : State := (read1.sysSegs 0 1 0x20000 true (pagesOf [(0x20000, 53 * 4096)])).1
theorem segd_clear : segd.clearLines true wb (wlines 0x20000 (53 * 4096) segs1) = none := Option.isNone_iff_eq_none.mp (by decide +kernel)
theorem segd_occ : segd.occ = [] := by decide +kernel
theorem segd_ctx : segd.ctx x0 = atHome.ctx x0 := by decide +kernel
theorem segd_work : segd.work = atHome.work := by decide +kernel
theorem saveImage_done (s t u v : State) (x : CtxId) (addr : Nat) (again : Act) (bs : List Byte) (hl : s.landSp x.core = s)
    (ht : t.ctx x = s.ctx x)
    (h0 : s.sysWrite x.die (s.ctx x).sys.troot (s.ctx x).tregs.spovf.toNat (s.spPeek x.core (s.ctx x).carve.1 (s.ctx x).carve.2) again = (t, .done))
    (h1 : t.sysRead x.die (s.ctx x).sys.troot addr 64 again = (u, .got bs))
    (h2 : u.sysWrite x.die (s.ctx x).sys.troot addr (u.image x ((BitVec.ofNat 512 (bytesToNat bs)).extractLsb' 448 57)
      ((BitVec.ofNat 512 (bytesToNat bs)).extractLsb' 384 40)) again = (v, .done)) :
    s.saveImage x addr again = (v.keepMacro x addr, .done) := by
  rw [← ht] at h1 h2
  simp only [State.saveImage, hl, h0, State.writeImage, h1, h2]
theorem save_done : ∃ v, atHome.saveImage x0 0x20000 wb = (v, .done) ∧ v.cores = segd.cores ∧ v.work = atHome.work := by
  have h0 : atHome.sysWrite 0 1 0 [] wb = (atHome, .done) := rfl
  have e1 : x0.die = 0 := rfl
  have e2 : (atHome.ctx x0).sys.troot = 1 := by decide +kernel
  have e3 : (atHome.ctx x0).tregs.spovf.toNat = 0 := by decide +kernel
  have e4 : atHome.spPeek x0.core (atHome.ctx x0).carve.1 (atHome.ctx x0).carve.2 = [] := by decide +kernel
  have hr : atHome.sysRead 0 1 0x20000 64 wb = (read1, .got (List.replicate 64 0)) := Prod.ext (by dsimp only [read1]) read1_got
  have hs (bs : List Byte) (h : bs.length = 53 * 4096) :
      read1.sysSegs 0 1 0x20000 true (pagesOf [(0x20000, bs.length)]) = (segd, .ok segs1) := by
    rw [h]; exact Prod.ext (by dsimp only [segd]) read1_segs
  obtain ⟨v, hv, hf⟩ := sysWrite_cores read1 segd 0 1 0x20000
    (read1.image x0 ((BitVec.ofNat 512 (bytesToNat (List.replicate 64 0))).extractLsb' 448 57)
      ((BitVec.ofNat 512 (bytesToNat (List.replicate 64 0))).extractLsb' 384 40)) wb segs1
    (hs _ (image_len _ _ _ _)) (by rw [image_len]; exact segd_clear) segd_occ
  have hl : atHome.landSp x0.core = atHome := by
    have e : (atHome.core x0.core).spLate.isEmpty = true := by decide +kernel
    simp only [State.landSp, e, if_true]
  have hw : v.work = atHome.work := hf.2.1.trans segd_work
  have hc : v.ctx x0 = atHome.ctx x0 := (ctx_of_cores hf.1 x0).trans segd_ctx
  have hm : (v.keepMacro x0 0x20000).work = atHome.work := by
    have ht : (v.ctx x0).task = some 0 := by rw [hc]; decide +kernel
    rw [State.keepMacro, State.modOwnTask, ht]
    simp only [State.modTask, hw, hc]
    decide +kernel
  exact ⟨_, saveImage_done atHome atHome read1 v x0 0x20000 wb _ hl rfl (by rw [e4, e3, e2, e1]; exact h0) (by rw [e2, e1]; exact hr)
    (by rw [e2, e1]; exact hv), by rw [State.keepMacro, State.modOwnTask_cores]; exact hf.1, hm⟩
theorem witness_TaskEvents :
    ((∃ t, ready.task? 0 = some t ∧ t.key = 0 ∧ t.state = 1 ∧ t.img = false ∧ t.loopw = 0 ∧ t.recipe = none
        ∧ (ready.die x0.die).sramDown = false
        ∧ ∃ z u p rdm, ready.flatHeader x0 t (.ev (.pickup x0 0)) = (z, some p) ∧ z.pickupRdm x0 t (.ev (.pickup x0 0)) = (u, some rdm)
          ∧ u.task? 0 = some t)
      ∧ (ready.ctx x0).task = none ∧ ready.ctxOfTask 0 = none)
    ∧ ((atHome.ctx x0).flow.phase = .leaving .yield ∧ (atHome.ctx x0).task = some 0 ∧ atHome.saveReady x0 = true ∧ atHome.soloTask 0 = true
      ∧ (atHome.ctx x0).locks = []
      ∧ ∃ u, atHome.saveImage x0 (atHome.ctx x0).sys.ctxb.toNat (.ev (.writeBack x0)) = (u, .done)
          ∧ u.ctx x0 = atHome.ctx x0 ∧ u.task? 0 = some aTask ∧ u.soloTask 0 = true)
    ∧ (((soloIn (.ending 5)).ctx x0).flow.phase = .ending 5 ∧ ((soloIn (.ending 5)).ctx x0).task = some 0 ∧ ((soloIn (.ending 5)).ctx x0).ns = 0
      ∧ ((soloIn (.ending 5)).ctx x0).nc = 0 ∧ ((soloIn (.ending 5)).ctx x0).nt = 0 ∧ (soloIn (.ending 5)).soloTask 0 = true
      ∧ ((soloIn (.ending 5)).ctx x0).locks = [] ∧ (soloIn (.ending 5)).task? 0 = some aTask ∧ aTask.recipe = none)
    ∧ (∃ g, (soloIn .run).gangOf x0 = some g ∧ g.solo = true) ∧ ((soloIn .run).ctx x0).flow.phase = .run ∧ ((soloIn .run).ctx x0).task.isSome = true := by
  refine ⟨⟨⟨{ aTask with state := 1, troot := 1, entry := 5, ctxb := 0x20000 }, by decide +kernel, rfl, rfl, rfl, rfl, rfl, by decide +kernel, ?_⟩, by decide +kernel, by decide +kernel⟩,
    ⟨by decide +kernel, by decide +kernel, by decide +kernel, by decide +kernel, by decide +kernel, ?_⟩, by decide +kernel,
    ⟨_, Option.eq_some_of_isSome (by decide +kernel), by decide +kernel⟩, by decide +kernel⟩
  · obtain ⟨z, p, h, q⟩ := passes (ready.flatHeader x0 { aTask with state := 1, troot := 1, entry := 5, ctxb := 0x20000 } (.ev (.pickup x0 0)))
      (fun z _ => let r := z.pickupRdm x0 { aTask with state := 1, troot := 1, entry := 5, ctxb := 0x20000 } (.ev (.pickup x0 0))
        r.2.isSome && decide (r.1.task? 0 = some { aTask with state := 1, troot := 1, entry := 5, ctxb := 0x20000 })) (by decide +kernel)
    simp only [Bool.and_eq_true, decide_eq_true_eq] at q
    exact ⟨z, _, p, _, h, Prod.ext rfl (Option.eq_some_of_isSome q.1), q.2⟩
  · obtain ⟨v, hv, hc, hw⟩ := save_done
    have e : (atHome.ctx x0).sys.ctxb.toNat = 0x20000 := by decide +kernel
    have t : v.task? 0 = some aTask := by rw [State.task?, hw]; decide +kernel
    refine ⟨v, by rw [e]; exact hv, ?_, t, ?_⟩
    · exact (ctx_of_cores hc x0).trans segd_ctx
    · rw [State.soloTask, t]; simp only [Option.bind_some, State.gang?, hw]; decide +kernel
theorem test_pickup : view (.pickup x0 0) ready (fun t => ((t.ctx x0).flow.pc, (t.ctx x0).task, t.work.tasks.map (·.state))) = some (5, some 0, [2]) := by
  decide +kernel
theorem test_release : view (.taskRelease x0) (soloIn (.ending 5)) (fun t => (t.ctx x0).task) = some none := by decide +kernel

/-- Core 0 is occupied; or it moves to core 3, its context ready. -/
def moving (dst : Option (BitVec 8)) (p : Phase) : State :=
  let s := identity (with0 fun c => { c with
    task := some 0, flow := { c.flow with phase := p }, sys := { c.sys with troot := 0, ctxb := 0x20000 } })
  { s.modCore 0 fun k => { k with migrate := dst } with occ := [0], work := { tasks := [aTask] } }
/-- With its root off no page of the image is found: the image goes nowhere and nothing waits. -/
theorem segs_off (s : State) (d : BitVec 2) (va n : Nat) (w : Bool) (h : va / 4096 * 4096 < 2 ^ 57) (t : List Nat)
    (e : pagesOf [(va, n)] = va / 4096 :: t) : s.sysSegs d 0 va w (pagesOf [(va, n)]) = (s, .error .bad) := by
  have k : ¬ 2 ^ 57 ≤ va / 4096 * 4096 := Nat.not_le.mpr h
  have r : (!rootEn 0) = true := rfl
  rw [e]
  simp only [State.sysSegs, State.walk, if_neg k, if_pos r]
theorem writeImage_off (s : State) (x : CtxId) (again : Act) (hr : (s.ctx x).sys.troot = 0) :
    (s.writeImage x 0x20000 again) = (s, .bad) := by
  have h1 : s.sysRead x.die 0 0x20000 64 again = (s, .bad) := by
    simp only [State.sysRead, segs_off s x.die 0x20000 64 false (by decide) [] (by decide)]
    rfl
  have h2 (bs : List Byte) (hb : bs.length = 53 * 4096) : s.sysWrite x.die 0 0x20000 bs again = (s, .bad) :=
    sysWrite_bad _ _ _ _ _ _ (by rw [hb]; exact segs_off s x.die 0x20000 (53 * 4096) true (by decide) _ rfl)
  rw [← hr] at h1 h2
  simp only [State.writeImage, h1, h2 _ (image_len _ _ _ _)]
theorem one_moves (s : State) (x y : CtxId) (again : Act) (hr : (s.ctx x).sys.troot = 0)
    (hc : (s.ctx x).sys.ctxb.toNat = 0x20000) (t : ¬ ((s.ctx x).task.isNone = true ∨ (s.ctx x).flow.phase = .idle))
    (n : (s.ctx y).task.isNone = true ∨ (s.ctx y).flow.phase = .idle) : s.moveImages again [x, y] = (s, true) := by
  have h := writeImage_off s x again hr
  rw [← hc] at h
  simp only [State.moveImages, if_neg t, h, if_pos n]
theorem witness_MigrationEvents :
    (0 ∈ (moving none .run).occ ∧ ((moving none .run).core 0).migrate = none)
    ∧ (dieCores (coreDie 0)).find? (fun e => e != 0 && (moving none .run).coreUsable e && ((moving none .run).core e).ctx0.task.isNone
        && ((moving none .run).core e).ctx1.task.isNone) = some 1
    ∧ ((moving (some 3) .moving).core 0).migrate = some 3 ∧ (moving (some 3) .moving).migrationDue 0 = true
    ∧ (∀ x ∈ ([⟨0, false⟩, ⟨0, true⟩] : List CtxId), (moving (some 3) .moving).moveReady x = true)
    ∧ (∃ u, (([⟨0, false⟩, ⟨0, true⟩] : List CtxId).foldl (fun s x => s.moveServed x) ((moving (some 3) .moving).landSp 0)).moveImages (.ev (.migration 0 3)) [⟨0, false⟩, ⟨0, true⟩] = (u, true)) :=
  ⟨by decide +kernel, by decide +kernel, by decide +kernel, by decide +kernel, by decide +kernel, ⟨_, one_moves _ _ _ _ (by decide +kernel) (by decide +kernel) (by decide +kernel) (by decide +kernel)⟩⟩
theorem test_migration_request : view (.migrationRequest 0) (moving none .run) (fun t => (t.core 0).migrate) = some (some 1) := by decide +kernel


/-! Residency. -/

/-- Tensor 5 in HBM, droppable by its size; in the course of going; compressed. -/
def residing (t : Tensor) : State := identity { State.reset with tensors := [t] }
def freeable : Tensor := { aTensor with pin := 0, tried := some 1 }
def compressed : Tensor := { aTensor with pin := 0, st := 5, csize := 100, ctier := 1, frames := [] }
/-- In LPDDR; of more pages than the pool has frames; of more than LPDDR has. -/
def lower : Tensor := { aTensor with pin := 0, st := 3, frames := [(2 ^ 28, 2)] }
def tooLarge : Tensor := { compressed with ctier := 0, alloc := 2 ^ 30 }
def spilling (act : BitVec 3) : Tensor := { freeable with moving := some (1, act) }
def vast : Tensor := { spilling 1 with frames := [(100, 2 ^ 26 + 1)] }
theorem spill_frames : ∃ g u, (residing (spilling 1)).takeFrames 0 2 2 = some ([(g, 2)], u) ∧ (100 + 2 ≤ g ∨ g + 2 ≤ 100) := by
  obtain ⟨g, m, h, e⟩ := takes_frames (residing (spilling 1)) 0 2 2 (2 ^ 40 / 4096) (by decide +kernel)
  refine ⟨g, _, h, .inl ?_⟩
  have : (tierFrames 0 2).1 = 2 ^ 40 / 4096 := by decide +kernel
  omega
theorem witness_ResidencyEvents :
    (residing { freeable with moving := some (1, 2) }).acting 0 1 = true
    ∧ (State.reset.acting 0 1 = false ∧ ∃ u, State.reset.victim 0 1 (sortCands (State.reset.candidates 0 1)) = (u, none))
    ∧ ((residing freeable).acting 0 1 = false ∧ ∃ u p, (residing freeable).victim 0 1 (sortCands ((residing freeable).candidates 0 1)) = (u, some p)
        ∧ p.1.item = .tensor 5 ∧ u.tensor? 5 = some freeable)
    ∧ State.reset.tensor? 5 = none
    ∧ ((residing { freeable with st := 0 }).tensor? 5 = some { freeable with st := 0 }
      ∧ (residing { freeable with st := 0 }).framesBusy [(100, 2)] = false ∧ (residing { freeable with st := 0 }).jobNames 5 = false
      ∧ (residing { freeable with st := 0 }).clearLines true (.ev (.residencyActionFinish (.tensor 5)))
          ((residing { freeable with st := 0 }).ownedLines [(100, 2)]) = none)
    ∧ ({ residing { freeable with st := 0 } with jobs := [{ aJob .copy with src := .mem 5 65536 [⟨0, 409600, 64⟩] }] } : State).framesBusy [(100, 2)] = true
    ∧ ((residing compressed).tensor? 5 = some compressed ∧ compressed.st = 5 ∧ compressed.moving = none ∧ (residing compressed).framesBusy compressed.frames = false
      ∧ 0 < compressed.csize ∧ ∃ f u, (residing compressed).takeFrames 0 1 compressed.npages = some (f, u))
    ∧ ((residing lower).tensor? 5 = some lower ∧ lower.moving = none ∧ (residing lower).framesBusy lower.frames = false ∧ lower.csize = 0
      ∧ lower.refill ≠ some 0 ∧ ∃ f u, (residing lower).takeFrames 0 1 lower.npages = some (f, u))
    ∧ ((residing tooLarge).tensor? 5 = some tooLarge ∧ (residing tooLarge).takeFrames 0 0 tooLarge.npages = none)
    ∧ ((residing freeable).tensor? 5 = some freeable ∧ freeable.st ≠ 0 ∧ freeable.moving = none)
    ∧ (∀ act ∈ [(1 : BitVec 3), 2, 3], (residing (spilling act)).tensor? 5 = some (spilling act) ∧ (residing (spilling act)).framesBusy [(100, 2)] = false
      ∧ ((residing (spilling act)).clearLines true (.ev (.residencyActionFinish (.tensor 5))) ((residing (spilling act)).ownedLines [(100, 2)])).isNone = true
      ∧ (residing (spilling act)).mem.flips = [] ∧ (residing (spilling act)).mem.dead = [] ∧ cellsWf (residing (spilling act)).mem.cells = true)
    ∧ (∃ g u, (residing (spilling 1)).takeFrames 0 2 2 = some ([(g, 2)], u) ∧ (100 + 2 ≤ g ∨ g + 2 ≤ 100))
    ∧ ({ residing (spilling 1) with jobs := [{ aJob .copy with src := .mem 5 65536 [⟨0, 409600, 64⟩] }] } : State).framesBusy [(100, 2)] = true
    ∧ ((residing { freeable with st := 1, moving := some (0, 1), lower := [(100, 2)], frames := [(2 ^ 27, 2)] }).framesBusy [(2 ^ 27, 2)] = false)
    ∧ ((residing vast).framesBusy vast.frames = false ∧ frameCount vast.frames = 2 ^ 26 + 1 ∧ (residing vast).takeFrames 0 2 (2 ^ 26 + 1) = none)
    ∧ (((soloIn .run).ctx ⟨(0 : BitVec 2) ++ (0 : BitVec 6), false⟩).task.isSome = true) := by
  refine ⟨by decide +kernel, ⟨by decide +kernel, second_is _ _ (by decide +kernel)⟩, ⟨by decide +kernel, ?_⟩, by decide +kernel,
    ⟨by decide +kernel, by decide +kernel, by decide +kernel, Option.isNone_iff_eq_none.mp (by decide +kernel)⟩, by decide +kernel,
    ⟨by decide +kernel, by decide +kernel, by decide +kernel, by decide +kernel, by decide +kernel, ?_⟩,
    ⟨by decide +kernel, by decide +kernel, by decide +kernel, by decide +kernel, by decide +kernel, ?_⟩,
    ⟨by decide +kernel, Option.isNone_iff_eq_none.mp (by decide +kernel)⟩, by decide +kernel, by decide +kernel, spill_frames, by decide +kernel, by decide +kernel,
    ⟨by decide +kernel, by decide +kernel, Option.isNone_iff_eq_none.mp (by decide +kernel)⟩, by decide +kernel⟩
  · obtain ⟨u, p, h, q⟩ := passes ((residing freeable).victim 0 1 (sortCands ((residing freeable).candidates 0 1)))
      (fun u p => decide (p.1.item = .tensor 5 ∧ u.tensor? 5 = some freeable)) (by decide +kernel)
    exact ⟨u, p, h, of_decide_eq_true q⟩
  · obtain ⟨f, u, h, -⟩ := takes_frames (residing compressed) 0 1 compressed.npages _ (Option.eq_some_of_isSome (by decide +kernel))
    exact ⟨_, _, h⟩
  · obtain ⟨f, u, h, -⟩ := takes_frames (residing lower) 0 1 lower.npages _ (Option.eq_some_of_isSome (by decide +kernel))
    exact ⟨_, _, h⟩

/-! ### Device events: power, resets, registers, the host -/

def marginIs (m : Margin) : State := State.reset.modCore 0 fun k => { k with margin := m }
def powerIs (p : Power) : State := { State.reset with power := p }
/-- Each clause of MarginEvents and LoopEvents has a state for it. -/
theorem witness_PowerEvents :
    ((marginIs { settleUntil := some 5 }).core 0).margin.settleUntil = some 5
    ∧ ((marginIs { quar := true }).core 0).margin.quar = true ∧ (State.reset.core 0).margin.quar = false
    ∧ (min ((9 : Word).extractLsb' 0 5).toNat (State.reset.opTable 0).vmax.toNat ≠ (State.reset.core 0).margin.vset.toNat)
    ∧ (State.reset.core 0).margin.windowSquashes = 0
    ∧ State.reset.power.loopB = true ∧ ((powerIs { loopB := false }).power.loopB = false ∧ (powerIs { loopB := false }).power.shutdownAt = none)
    ∧ State.reset.power.pendingTable = none ∧ (powerIs { pendingTable := some 3 }).power.pendingTable = some 3
    ∧ (powerIs { shutdownAt := some 0 }).power.shutdownAt = some 0 ∧ (powerIs { shutdownAt := some 0 }).power.on = true
    ∧ (powerIs { shutdownAt := some 1 }).dc < 1 := by decide +kernel
theorem test_mgn_write : view (.mgnWrite 0 (0x0020_0000 + 9)) State.reset
    (fun t => ((t.core 0).margin.vset, (t.core 0).margin.cduty, (t.core 0).margin.settleUntil)) = some (9, 1, some 16)
    ∧ view (.mgnWrite 0 (0x0008_0000 + 3)) State.reset
    (fun t => ((t.core 0).margin.vset, (t.core 0).margin.cduty, (t.core 0).margin.settleUntil)) = some (3, 8, some 16) := by decide +kernel
theorem test_loops_lost : view (.loopLost true) (powerIs { loopA := false }) (fun t => (t.power.pendingTable, t.power.shutdownAt))
    = some (some 3, some 1200000) := by decide +kernel

def lent : State := State.reset.modDie 0 fun z => { z with lend := [3] }
theorem witness_ResetEvents :
    ((State.reset.bbFlush.loseItems fun f => !keptWarm (f * 4096)).1.mem.cells = State.reset.mem.cells ∧ cellsWf State.reset.mem.cells = true)
    ∧ ((∀ z ∈ (residing freeable).tensors, ∀ f ∈ z.frames, keptWarm (f.1 * 4096) = true)
      ∧ ∀ q ∈ (residing freeable).kvs, ∀ p ∈ q.pages, ∀ f ∈ p.frames, keptWarm (f.1 * 4096) = true)
    ∧ (State.reset.die 0).lend.contains 3 = false ∧ (lent.die 0).lend.contains 3 = true := by decide +kernel
theorem test_lane_lend : view (.laneLendTimeout 0 3) lent (fun t => ((t.die 0).lend, (t.die 0).withheld)) = some ([], [6, 7]) := by
  decide +kernel

theorem witness_RegisterWriteEvents : (1 : BitVec 2) ≠ x0.die ∧ (3 : BitVec 4) ≠ 2 := by decide +kernel
theorem test_qroot_write : view (.registerWrite x0 0x113 (BitVec.allOnes 64)) State.reset (fun t => (t.die 0).qroot.toList.take 4)
    = some [0, 0, 0, 0xFFFFFFFFFFFFF001] := by decide +kernel
theorem test_dduty_write : view (.registerWrite x0 0x1A0 0) State.reset (fun t => (t.die 0).dthm.dduty) = some 1 := by decide +kernel

def hostIs (h : HostFn) : State := State.reset.modHost 0 fun _ => h
theorem witness_HostEvents :
    State.reset.funcDie 1 = none
    ∧ (State.reset.funcDie 0 = some 0 ∧ ((hostIs { queue := [.hostRead 0 true 0 8] }).host 0).queue ≠ [])
    ∧ (State.reset.funcDie 0 = some 0 ∧ (State.reset.host 0).queue = []
      ∧ (∃ u, (State.reset.modHost 0 fun h => { h with queue := h.queue ++ [.hostWrite 0 true 0 8 5] }).hostDo 0 0 (.hostWrite 0 true 0 8 5) = (u, true))
      ∧ ∃ u, (State.reset.modHost 0 fun h => { h with queue := h.queue ++ [.hostRead 0 true 0 8] }).hostDo 0 0 (.hostRead 0 true 0 8) = (u, true))
    ∧ (State.reset.power.bootStep = 8 ∧ State.reset.power.bootFail = none ∧ partOf State.reset.power.mode 2 = (0 : BitVec 2).toNat)
    ∧ (State.reset.host 0).reporting = false ∧ ((hostIs { reporting := true }).host 0).reporting = true :=
  ⟨by decide +kernel, by decide +kernel, ⟨by decide +kernel, by decide +kernel, second_is _ _ (by decide +kernel), second_is _ _ (by decide +kernel)⟩,
    by decide +kernel⟩
/-- BAR2 at byte 2^20, of eight bytes; and functions whose queues are all disabled. -/
def bar2 : State := hostIs { winbase := 0x100000 }
theorem witness_Bar2Write :
    bar2.funcDie 0 = some 0 ∧ (bar2.host 0).queue = [] ∧ bar2.power.bootStep = 8 ∧ bar2.power.bootFail = none ∧ cellsWf bar2.mem.cells = true
      ∧ NoKvCopies bar2 ∧ (let pa := (bar2.host 0).winbase.toNat + 16 % 2 ^ 38;
        pa % 8 = 0 ∧ (bar2.memFor 0 pa).any (·.1 != .cxl) = true ∧ bar2.dirEntry? (pa / 128) = none ∧ bar2.isDead pa = false ∧ ringByte pa = false
          ∧ ∀ p ∈ bar2.mem.flips, p.1 ≠ pa / 512) := by
  unfold NoKvCopies
  decide +kernel
theorem witness_FunctionReset :
    ((hostIs { queue := [.hostRead 0 true 0 8] }).funcDie 0 = some 0 ∧ ((hostIs { queue := [.hostRead 0 true 0 8] }).host 0).queue ≠ [])
    ∧ (State.reset.funcDie 0 = some 0 ∧ (State.reset.host 0).queue = []
      ∧ (∀ e ∈ partDies State.reset.power.mode 0, ∀ i : BitVec 4, (State.reset.queueRoot e i).getLsbD 0 = false)) := by decide +kernel
theorem test_host_doorbell : view (.hostWrite 0 true (0x1000 + 8 * 35) 8 7) State.reset (fun t => t.agenda) = some [(0, .ev (.doorbell 2 3))] := by
  decide +kernel
/-- The descriptor's line is shared, or owned, by core 3. -/
def descLine (k : DirSt) (cores : List (BitVec 8)) : State := queue enabled fun z => { z with dir := [{ entry k cores [] with line := 1024 }] }
def clearing (s : State) : State × SysWrote :=
  let v := (s.queueDesc 0 0 again).1
  v.sysWrite 0 (v.queueRoot 0 0) (v.queueAddr 0 0) [0] again
theorem witness_QueuesDisabled :
    (isGot ((queue enabled id).queueDesc 0 0 again).2 = true ∧ ∃ u, clearing (queue enabled id) = (u, .done))
    ∧ (isGot ((descLine .s [3]).queueDesc 0 0 again).2 = true ∧ ∃ u, clearing (descLine .s [3]) = (u, .wait))
    ∧ (∃ v, (descLine .e [3]).queueDesc 0 0 again = (v, .wait))
    ∧ (∃ v, (queue enabled fun z => { z with qdbase := 2 ^ 40 }).queueDesc 0 0 again = (v, .bad)) :=
  ⟨⟨by decide +kernel, second_is _ _ (by decide +kernel)⟩, ⟨by decide +kernel, second_is _ _ (by decide +kernel)⟩, second_is _ _ (by decide +kernel),
    second_is _ _ (by decide +kernel)⟩
theorem test_flr : view (.functionLevelReset 0) (hostIs { winbase := 5 }) (fun t => (t.host 0).winbase) = some 0 := by decide +kernel

/-! ### Device events: the links -/

/-- The link from die 0 to die 1 with module 0, dead or draining. -/
def linked (q : Module) (dead : Bool) (draining : Option Nat) : State :=
  State.reset.modLink 0 1 fun l => { l with mods := l.mods.set 0 q, dead := dead, draining := draining }
def mod0 (s : State) : Module := (s.link 0 1).mod 0
/-- Flits for die 1. -/
def aFlit (n : BitVec 12) : Flit := ⟨n, 0, 0, 1, .ev (.residencyAction 1 0)⟩
theorem witness_FlitEvents :
    (0 : BitVec 2) ≠ 1
    ∧ ((mod0 State.reset).replay = [] ∧ ((State.reset.link 1 0).mod 0).crcw = 0)
    ∧ ((mod0 (linked { replay := [aFlit 7, aFlit 8] } false none)).replay = aFlit 7 :: [aFlit 8]
      ∧ (mod0 (linked { replay := [aFlit 7, aFlit 8] } false none)).waiting = []
      ∧ (mod0 (linked { replay := [aFlit 7, aFlit 8] } false none)).train = false
      ∧ ((linked { replay := [aFlit 7] } false none).link 0 1).dead = false
      ∧ (linked { replay := [aFlit 7] } false none).dc < (mod0 (linked { replay := [aFlit 7] } false none)).ackedAt + 2048)
    ∧ (mod0 { linked { replay := [aFlit 7] } false none with dc := 2048 }).ackedAt + 2048 ≤ 2048
    ∧ (mod0 State.reset).unacked = false ∧ (mod0 (linked { unacked := true } false none)).unacked = true
    ∧ ((linked { unacked := true } true none).link 0 1).dead = true
    ∧ ((mod0 State.reset).wire = [] ∧ (mod0 (linked { wire := [aFlit 0] } false none)).wire = aFlit 0 :: []
      ∧ (mod0 (linked { wire := [aFlit 0] } false none)).crcw = 0 ∧ (((linked { wire := [aFlit 0] } false none).link 1 0).mod 0).replay = []
      ∧ (aFlit 0).seq = (mod0 (linked { wire := [aFlit 0] } false none)).rxexp ∧ (aFlit 0).ddie = 1)
    ∧ (aFlit 3).seq ≠ (mod0 (linked { wire := [aFlit 3] } false none)).rxexp := by decide +kernel
theorem test_flit_delivered : view (.dataFlit 0 1 0 true) (linked { wire := [aFlit 0] } false none)
    (fun t => ((mod0 t).rxexp, (mod0 t).wire, t.agenda.head?)) = some (1, [], some (0, .ev (.residencyAction 1 0))) := by decide +kernel
theorem test_acknowledged : view (.acknowledgement 0 1 0 7) (linked { replay := [aFlit 7, aFlit 8] } false none) (fun t => (mod0 t).replay)
    = some [aFlit 8] := by decide +kernel

/-- A header of SEQ 0x123, ACK 0x456, TYPE 1, from die 2 to die 1, rerouted, written out from 21 R377. -/
def aHeader : FlitHeader := ⟨0x123, 0x456, .data, 2, 1, true⟩
theorem test_flit_header : aHeader.toNat = 0x1234_5619_8000_0000_0000_0000_0000_0000 := by decide +kernel
/-- The published check value of this CRC with the highest bit first: that of the digits 1 to 9. -/
theorem test_flit_crc : crc64 [0x31, 0x32, 0x33, 0x34, 0x35, 0x36, 0x37, 0x38, 0x39] = 0x62EC59E3F1A4F00A := by decide +kernel
/-- A flit is read back; one with a bit changed, and one of type 6, are CRC failures. -/
theorem test_flit_read : (readFlit (flitBytes aHeader [7])).map (fun p => (p.1, p.2.head?)) = some (aHeader, some 7)
    ∧ readFlit ((flitBytes aHeader [7]).set 20 1) = none ∧ FlitHeader.ofNat (6 * 2 ^ 100) = none := by decide +kernel
/-- A block travels as three packets, with bodies of 224, 224 and 88 bytes (21 R378). -/
theorem test_block_pieces : (blockPieces 5 3 4096 (List.replicate 512 0)).map (fun p => (p.lawful, p.body.length)) =
    [(true, 224), (true, 224), (true, 88)] := by decide +kernel
theorem witness_LinkEvents :
    ((linked {} true none).link 0 1).dead = true
    ∧ ((State.reset.link 0 1).dead = false ∧ ∀ i : BitVec 3, ((State.reset.link 1 0).mod i).narrow = false)
    ∧ (mod0 State.reset).train = false
    ∧ ((mod0 (linked { train := true } false none)).train = true ∧ ((linked { train := true } false none).link 0 1).dead = false
      ∧ (mod0 (linked { train := true } false none)).up = false)
    ∧ (mod0 (linked { train := true, up := true } false none)).up = true
    ∧ (((0 : BitVec 16) - (State.reset.die 0).linkVer).toNat = 0 ∧ 2 ^ 15 ≤ ((0x8000 : BitVec 16) - (State.reset.die 0).linkVer).toNat)
    ∧ (0 < ((1 : BitVec 16) - (State.reset.die 0).linkVer).toNat ∧ ((0x7FFF : BitVec 16) - (State.reset.die 0).linkVer).toNat < 2 ^ 15)
    ∧ ((State.reset.link 0 1).draining = none
      ∧ ((linked {} false (some 2)).link 0 1).draining = some 2 ∧ ((linked {} false (some 3)).link 0 1).draining = some 3)
    ∧ ((1 : BitVec 3) ≠ 0 ∧ (((linked {} false (some 2)).link 0 1).mod 1).marker = none) := by decide +kernel
/-- Every module of a draining link but one has its marker. -/
theorem witness_last_marker :
    let s := State.reset.modLink 0 1 fun l => { l with mods := (Vector.replicate 8 { marker := some 0 }).set 0 {}, draining := some 0 };
    (s.link 0 1).draining = some 0 ∧ ∀ i : BitVec 3, i ≠ 0 → ((s.link 0 1).mod i).marker ≠ none := by decide +kernel
/-- A second flit left after a NAK, timers before and at their end, the seventh and the eighth failure, a flit for another die, links
that a one in LKCTL.UP takes up. -/
theorem witness_FlitTimers :
    (let s := linked { replay := [aFlit 7, aFlit 8] } false none;
      ((s.link 1 0).mod 0).crcw = 0 ∧ (mod0 s).waiting = [] ∧ (mod0 s).train = false ∧ (mod0 s).replay.drop ((7 - (aFlit 7).seq + 1 : BitVec 12)).toNat = aFlit 8 :: [])
    ∧ (let s := { linked { replay := [aFlit 7] } false none with dc := 2048 };
      (mod0 s).replay ≠ [] ∧ (s.link 0 1).dead = false ∧ (mod0 s).ackedAt + 2048 ≤ s.dc ∧ (mod0 s).train = false)
    ∧ (let s := linked { unacked := true } false none;
      (mod0 s).unacked = true ∧ (s.link 0 1).dead = false ∧ s.dc < (mod0 s).unackedAt + 77)
    ∧ (let s := { linked { unacked := true, narrow := true } false none with dc := 154 };
      (mod0 s).unacked = true ∧ (s.link 0 1).dead = false ∧ (mod0 s).unackedAt + 154 ≤ s.dc)
    ∧ (∀ n ∈ [6, 7], let s := linked { wire := [aFlit 0], crcw := n } false none; (mod0 s).wire = aFlit 0 :: [] ∧ ((mod0 s).crcw < 7 ↔ n = 6))
    ∧ (let f : Flit := { aFlit 0 with ddie := 2 };
      let s := linked { wire := [f] } false none;
      let o := (s.link 1 2).mod 0;
      (mod0 s).wire = f :: [] ∧ (mod0 s).crcw = 0 ∧ ((s.link 1 0).mod 0).replay = [] ∧ f.seq = (mod0 s).rxexp ∧ f.ddie ≠ 1 ∧ f.ddie ≠ 0
        ∧ s.reaches 1 2 = true ∧ o.train = false ∧ (s.link 1 2).draining = none ∧ o.replay.length < 4095 ∧ o.waiting = [])
    ∧ (let s := State.reset.modLink 1 0 fun l => { l with mods := l.mods.set 3 { narrow := true } };
      (s.link 0 1).dead = false ∧ ((s.link 1 0).mod 3).narrow = true ∧ ((s.link 1 0).mod 3).train = false ∧ ((s.link 1 0).mod 2).narrow = false) := by
  decide +kernel
theorem test_link_state : view (.linkStateUpdate 0 5 0x8000) State.reset (fun t => (t.die 0).linkVer) = some 0
    ∧ view (.linkStateUpdate 0 5 0x7FFF) State.reset (fun t => ((t.die 0).linkVer, (t.die 0).linkVec)) = some (0x7FFF, 5) := by decide +kernel

/-! ### Bundles, traps, steps, memory -/

/-- A context that runs at an entry, with requests. -/
def askedOf (f : SysRegs → SysRegs) : State := with0 fun c => { c with
  task := some 0, flow := { c.flow with phase := .run, asEntry := true, pc := 5 }, sys := f c.sys }
theorem witness_BundleEvents :
    (¬ MayTake (State.reset.ctx x0)) ∧ MayTake ((askedOf id).ctx x0)
    ∧ (MayTake ((askedOf fun y => { y with wdog := true }).ctx x0) ∧ ((askedOf fun y => { y with wdog := true }).ctx x0).sys.wdog = true)
    ∧ (MayTake ((askedOf fun y => { y with pre := true }).ctx x0) ∧ ((askedOf fun y => { y with pre := true }).ctx x0).sys.wdog = false
      ∧ ((askedOf fun y => { y with pre := true }).ctx x0).sys.pre = true)
    ∧ (MayTake ((askedOf fun y => { y with cperr := 0x800000 }).ctx x0) ∧ ((askedOf fun y => { y with cperr := 0x800000 }).ctx x0).sys.wdog = false
      ∧ ((askedOf fun y => { y with cperr := 0x800000 }).ctx x0).sys.quar = false ∧ ((askedOf fun y => { y with cperr := 0x800000 }).ctx x0).sys.pre = false
      ∧ ((askedOf fun y => { y with cperr := 0x800000 }).ctx x0).sys.cperr.getLsbD 23 = true
      ∧ ∀ i < 23, ((askedOf fun y => { y with cperr := 0x800000 }).ctx x0).sys.cperr.getLsbD i = false) := by
  unfold MayTake
  decide +kernel
/-- The copy error of the lowest set bit traps at the vector of class 5, at user level with TVEC at bundle 100. -/
theorem test_copy_error_trap : view (.takeAsyncRequest x0) (askedOf fun y => { y with cperr := 0xC, tvecEn := true, tvecBase := 100 })
    (fun t => ((t.ctx x0).flow.pc, (t.ctx x0).sys.tcause, (t.ctx x0).sys.tval)) = some (180, 0x2_0200_0501, 2) := by decide +kernel
theorem test_watchdog_ends : view (.takeAsyncRequest x0) (askedOf fun y => { y with wdog := true, pre := true }) (fun t => (t.ctx x0).flow.phase)
    = some (.ending 6) := by decide +kernel

/-- At user level with TVEC enabled, not enabled, and at system level; a code of class 7. -/
theorem witness_TrapEntry :
    (system 0 0 |>.ctx x0).sys.pl = true
    ∧ ((State.reset.ctx x0).sys.pl = false ∧ (State.reset.ctx x0).sys.tvecEn = false)
    ∧ (((askedOf fun y => { y with tvecEn := true }).ctx x0).sys.pl = false ∧ (0x0605 : BitVec 16).toNat / 256 % 16 ≠ 7
      ∧ ((askedOf fun y => { y with tvecEn := true }).ctx x0).sys.tvecEn = true ∧ (0x0701 : BitVec 16).toNat / 256 % 16 = 7)
    ∧ ((askedOf id).ctx x0).flow.asEntry = true ∧ ((with0 fun c => { c with flow := { c.flow with asEntry := false } }).ctx x0).flow.asEntry = false
    ∧ (⟨1, false⟩ : CtxId) ≠ x0 := by decide +kernel
/-- A trap of class 3 with the mask 4 from bundle 8 of a segment that began at bundle 5. -/
theorem test_trap : view (.illegalEncoding 4) ((askedOf fun y => { y with tvecEn := true, tvecBase := 100 }).modCtx x0 fun c => { c with
      flow := { c.flow with asEntry := false, pc := 8 }, seg := { c.seg with entry := 5 } })
    (fun t => ((t.ctx x0).flow.pc, (t.ctx x0).sys.pl, (t.ctx x0).sys.tepc, (t.ctx x0).sys.tcause)) = some (100, true, 5, 0x40001) := by decide +kernel

theorem witness_ResultsLand : ∃ c d : Ctx, c.flow.inflight = [⟨1, .S, false, .g 3 7⟩] ∧ d.flow.inflight = [⟨2, .S, false, .g 3 7⟩]
    ∧ (7 : PReg).toNat < 96 ∧ (5 : Nat) ≠ 1 ∧ (5 : Nat) ≠ 0 :=
  ⟨{ flow := { inflight := [⟨1, .S, false, .g 3 7⟩] } }, { flow := { inflight := [⟨2, .S, false, .g 3 7⟩] } }, by decide +kernel⟩
theorem test_landing : (({ flow := { inflight := [⟨1, .S, false, .g 3 7⟩, ⟨2, .V0, false, .p 1 true⟩] } } : Ctx).advance.readG 3,
    ({ flow := { inflight := [⟨1, .S, false, .g 3 7⟩, ⟨2, .V0, false, .p 1 true⟩] } } : Ctx).advance.flow.inflight)
    = (7, [⟨1, .V0, false, .p 1 true⟩]) := by decide +kernel

/-- The state in which the slots of a bundle have run, with what they left. -/
def ran (i : Iss) : State := { askedOf id with iss := { i with x := x0, pc := 5 } }
def aReady : Ready := ⟨0, decodeBundle 0, []⟩
def sf (sl : Slot) (code : BitVec 16) : SlotFault := ⟨sl, code, 0, 0⟩
theorem witness_BundleEnds :
    ((ran { faults := [sf .V0 0x0301, sf .S 0x0402] }).iss.faults = [sf .V0 0x0301] ++ sf .S 0x0402 :: []
      ∧ (ran { faults := [sf .S 0x0402, sf .V0 0x0301] }).iss.faults = [] ++ sf .S 0x0402 :: [sf .V0 0x0301]
      ∧ ∀ r ∈ [sf .V0 0x0301], (sf .S 0x0402).slot.idx ≤ r.slot.idx)
    ∧ ((ran { misses := [.tensor 5] }).iss.faults = [] ∧ (ran { misses := [.tensor 5] }).iss.misses ≠ [])
    ∧ ((ran { poison := some 512 }).iss.misses = [] ∧ (ran { poison := some 512 }).iss.poison = some 512)
    ∧ ((ran { block := some (.L, 0) }).iss.poison = none ∧ (ran { block := some (.L, 0) }).iss.own = false ∧ (ran { block := some (.L, 0) }).iss.block = some (.L, 0))
    ∧ ((ran { hold := some (.monw 3) }).iss.block = none ∧ (ran { hold := some (.monw 3) }).iss.hold = some (.monw 3))
    ∧ (PlainIss (ran {}).iss ∧ aReady.b.hdr.rep = 0 ∧ ((ran {}).ctx x0).flow.group = none ∧ (∀ w, ((ran {}).ctx x0).flow.phase ≠ .sys w)
      ∧ ([] : List (Slot × SlotOp)).any (fun p => p.2.op.externalAct) = false ∧ (ran {}).iss.target = none
      ∧ (∀ j : CReg, ((ran {}).ctx x0).advance.regs.loop.act.getLsbD j.toNat = true →
          ((ran {}).ctx x0).advance.regs.loop.fin[j.toNat]'j.isLt ≠ ((ran {}).ctx x0).flow.pc))
    ∧ (PlainIss (ran { target := some 9, cost := 2 }).iss ∧ (ran { target := some 9, cost := 2 }).iss.target = some 9) := by
  unfold PlainIss
  refine ⟨by decide +kernel, by decide +kernel, by decide +kernel, by decide +kernel, by decide +kernel, ?_, by decide +kernel⟩
  refine ⟨by decide +kernel, by decide +kernel, by decide +kernel, ?_, by decide +kernel⟩
  intro w h
  have : ((ran {}).ctx x0).flow.phase = .run := by decide +kernel
  rw [this] at h
  cases h
theorem test_bundle_falls_through : (((askedOf id).finishBundle (ran {}) aReady []).1.ctx x0).flow.pc = 6 := by decide +kernel
theorem test_bundle_branches : ((((askedOf id).finishBundle (ran { target := some 9, cost := 2 }) aReady []).1.ctx x0).flow.pc,
    (((askedOf id).finishBundle (ran { target := some 9, cost := 2 }) aReady []).1.ctx x0).flow.stall) = (9, 2) := by decide +kernel
/-- Requests at a settle, and at an entry with a pipelined level active, which is no place for one. -/
theorem witness_MayTake :
    (let c := (with0 fun c => { c with task := some 0, flow := { c.flow with phase := .run, settle := true, asEntry := false, pc := 5 } }).ctx x0;
      MayTake c ∧ c.flow.asEntry = false)
    ∧ (let c := ((askedOf id).modCtx x0 fun c => { c with regs := { c.regs with loop := { c.regs.loop with pipe := true, act := 1 } } }).ctx x0;
      ¬ MayTake c ∧ c.flow.asEntry = true)
    ∧ aReady.ops.any (fun p => p.2.op.closesSegment) = false
    ∧ (let c := ((askedOf fun y => { y with tvecEn := true }).modCtx x0 fun c => { c with flow := { c.flow with pendingTrap := some (0x0601, 0, 0, 0, 5) } }).ctx x0;
      c.sys.pl = false ∧ c.sys.tvecEn = true ∧ c.flow.pendingTrap.isSome = true) := by
  unfold MayTake
  decide +kernel

/-- A word alone in a bundle placed where core 0 fetches. -/
def placed (w : Nat) (f : Ctx → Ctx) : State := (with0 f).withFetchWord 64 w
/-- g3 := g1 + g2. -/
theorem test_step_runs_add : decodeTableWord 64 0x0100_0C10_8000_0000 = some (.add 3 1 2)
    ∧ (match step (placed 0x0100_0C10_8000_0000 fun c => { c with regs := { c.regs with g := (c.regs.g.set 1 5).set 2 6 } }) with
      | .next t => some ((t.ctx x0).flow.pc, (t.ctx x0).flow.inflight.map (·.res), (t.ctx x0).readG 3)
      | _ => none) = some (1, [], 11) := by decide +kernel
/-- MFS at user level ends the task with 0x0002, and an unassigned opcode with 0x0001. -/
theorem test_step_traps :
    (match step (placed 0x6000_0401_0000_0000 id) with
      | .next t => some ((t.ctx x0).flow.phase, t.work.tasks.map (·.fcode))
      | _ => none) = some (.ending 6, [2])
    ∧ (match step (placed 0xFF00_0000_0000_0000 id) with
      | .next t => some ((t.ctx x0).flow.phase, t.work.tasks.map (·.fcode))
      | _ => none) = some (.ending 6, [1]) := by decide +kernel
def gotBundle (r : State × Fetched) : Option Bundle :=
  match r.2 with
  | .got w => some (decodeBundle w.toNat)
  | _ => none
theorem got_bundle (r : State × Fetched) (p : Bundle → Bool) (h : (gotBundle r).any p = true) :
    ∃ u w, r = (u, .got w) ∧ p (decodeBundle w.toNat) = true := by
  obtain ⟨u, q⟩ := r
  cases q <;> simp_all [gotBundle]
theorem alone_of (s : State)
    (h : s.power.on = true ∧ (∀ p ∈ s.inputs, s.dc < p.1) ∧ (∀ p ∈ s.agenda, p.1 ≤ s.dc → s.early p.2 = false) ∧ s.turn = [0]
      ∧ s.lateJob x0 = none ∧ (s.core 0).mayIssue s.dc = true ∧ (s.core 0).latch = false
      ∧ (s.core 0).migrate = none ∧ s.dc % 16 < (s.ctx x0).sys.duty.toNat)
    (g : (s.ctx x0).flow.phase = .run ∧ (s.ctx x0).flow.stall = 0 ∧ (s.ctx x0).flow.freeze = none ∧ (s.ctx x0).flow.hold = none
      ∧ (s.ctx x0).flow.pendingTrap = none ∧ (s.ctx x0).flow.settle = false ∧ (s.ctx x0).flow.group = none ∧ (s.ctx x0).sys.pending = false)
    (t : (s.taskOf x0).all (fun t => t.lost.isNone) = true) (o : (s.ctx ⟨0, true⟩).flow.phase = .idle) : Alone s 0 [] := by
  obtain ⟨g1, g2, g3, g4, g5, g6, g7, g8⟩ := g
  obtain ⟨h1, h2, h3, h4, h5, h6, h7, h8, h9⟩ := h
  refine ⟨h1, h2, h3, h4, h5, h6, h7, h8, h9, g1, g2, g3, g4, g5, g6, g7, g8, ?_, o⟩
  intro q hq
  have : s.taskOf x0 = some q := hq
  rw [this] at t
  simpa using t
/-- ctx0 of core 0 alone offers a bundle: a sum, a privileged read at user level, an unassigned opcode. -/
theorem witness_StepRunsDecoded : ∀ w ∈ [0x0100_0C10_8000_0000, 0x6000_0401_0000_0000, 0xFF00_0000_0000_0000],
    Alone (placed w id) 0 []
    ∧ ((placed w id).ctx x0).flow.inflight = [] ∧ ((placed w id).ctx x0).sys.pl = false ∧ ((placed w id).ctx x0).commitFits = true
    ∧ ((placed w id).ctx x0).regs.loop.act = 0
    ∧ ∃ s2 v, ({ placed w id with turn := [] } : State).fetchBundle x0 ((placed w id).ctx x0).flow.pc = (s2, .got v)
      ∧ (let b := decodeBundle v.toNat;
        decide (b.hdr.rep = 0) && (b.bad != 0) == (w == 0xFF00_0000_0000_0000)
        && b.slots.any (fun p => p.2.op.privileged) == (w == 0x6000_0401_0000_0000) && !b.slots.any (fun p => p.2.op.transfers)
        && (w != 0x0100_0C10_8000_0000 || b.slots == [(.S, ⟨0, false, .add 3 1 2⟩)])) = true := by
  intro w hw
  refine ⟨alone_of _ ?_ ?_ ?_ ?_, ?_, ?_, ?_, ?_, got_bundle _ (fun b => decide (b.hdr.rep = 0) && (b.bad != 0) == (w == 0xFF00_0000_0000_0000)
        && b.slots.any (fun p => p.2.op.privileged) == (w == 0x6000_0401_0000_0000) && !b.slots.any (fun p => p.2.op.transfers)
        && (w != 0x0100_0C10_8000_0000 || b.slots == [(.S, ⟨0, false, .add 3 1 2⟩)])) ?_⟩ <;> (revert w; decide +kernel)

/-- A bundle that is issued again. -/
theorem witness_Reissued : ((placed 0x0100_0C10_8000_0000 fun c => { c with redo := true }).ctx x0).redo = true
    ∧ Alone (placed 0x0100_0C10_8000_0000 fun c => { c with redo := true }) 0 [] :=
  ⟨by decide +kernel, alone_of _ (by decide +kernel) (by decide +kernel) (by decide +kernel) (by decide +kernel)⟩
/-! Decoding, memory, reset. -/

theorem witness_DecodeEncode : (∃ mp opc fs, (Instr.vlut 6 5 8 100 6 0).wf = true ∧ encodeFields (.vlut 6 5 8 100 6 0) = some (mp, opc, fs)
      ∧ Slot.V0.map false opc = mp ∧ Slot.V0.allows false opc = true ∧ ∃ n, encodeSlot ⟨95, true, .vlut 6 5 8 100 6 0⟩ = some n)
    ∧ (0x4500_C600_3400_0000 < 2 ^ Slot.S.width ∧ decodeSlot .S false 0x4500_C600_3400_0000 = .ok ⟨0, false, .loop 3 6 3 2⟩) :=
  ⟨⟨_, _, _, by decide +kernel, rfl, by decide +kernel, by decide +kernel, _, Option.eq_some_of_isSome (by decide +kernel)⟩, by decide +kernel⟩
theorem witness_CanonicalMemory : cellsWf [(3, 1), (7, 255)] = true ∧ (3 ≤ 4 ∧ 4 < 3 + ([9, 0] : List Byte).length)
    ∧ cellsWriteAll [(3, 1), (7, 255)] (bytesAt 3 [9, 0]) = [(3, 9), (7, 255)] := by decide +kernel
/-- Without power, with nothing due that resets, and with a cold reset due. -/
theorem witness_ResetState : ∃ s : State, s.power.on = false ∧ (∀ p ∈ s.inputs, p.2.isReset = false) ∧
    ∃ (t : State) (p : Nat × Act), t.power.on = false ∧ t.inputs = [] ++ p :: [] ∧ p.2.isReset = true :=
  ⟨powerIs { on := false }, by decide +kernel, by decide +kernel, { powerIs { on := false } with inputs := [(0, .ev .coldReset)] }, (0, .ev .coldReset),
    by decide +kernel, rfl, by decide +kernel⟩
theorem test_dark : step (powerIs { on := false }) = .fault .poweredDown := rfl
theorem witness_StepKeepsCanonical : State.reset.Canonical ∧ ∃ t, step State.reset = .next t := by
  refine ⟨⟨by decide +kernel, fun c => ?_⟩, _, rfl⟩
  have : State.reset.core c = {} := by simp [State.core, State.reset]
  rw [this]
  rfl

end Sys2Proof.Tests
end

section
/-! SUPPORT. The scalar results of 06 R113-R120 as plain arithmetic: what the model's word functions compute, and from it the
statements about the S slot's integer, predicate and address-register operations. -/

namespace Sys2Proof

/-! ### Products, quotients and remainders (06 R113, R114) -/

/-- The high half of a 128-bit integer. -/
theorem ofInt_high_half (p : Int) : (BitVec.ofInt 128 p).extractLsb' 64 64 = BitVec.ofInt 64 (p / 2 ^ 64) := by
  apply BitVec.eq_of_toNat_eq
  rw [BitVec.extractLsb'_toNat, BitVec.toNat_ofInt, BitVec.toNat_ofInt, Nat.shiftRight_eq_div_pow]
  omega

theorem mulHigh_eq (a b : Word) : mulHigh a b = (a.signExtend 128 * b.signExtend 128).extractLsb' 64 64 := by
  have product : a.signExtend 128 * b.signExtend 128 = BitVec.ofInt 128 (a.toInt * b.toInt) := (BitVec.ofInt_mul ..).symm
  rw [product, ofInt_high_half, mulHigh]

theorem mulHighN_eq (a b : Word) : mulHighN a b = (a.zeroExtend 128 * b.zeroExtend 128).extractLsb' 64 64 := by
  have fits : a.toNat * b.toNat < 2 ^ 128 :=
    (Nat.mul_lt_mul'' a.isLt b.isLt).trans_eq (by norm_num)
  apply BitVec.eq_of_toNat_eq
  rw [mulHighN, BitVec.extractLsb'_toNat, BitVec.toNat_mul, BitVec.toNat_setWidth_of_le (by decide),
    BitVec.toNat_setWidth_of_le (by decide), Nat.mod_eq_of_lt fits, Nat.shiftRight_eq_div_pow, BitVec.toNat_ofNat]

theorem divS_eq (a b : Word) : divS a b = if b = 0 then BitVec.allOnes 64 else a.sdiv b := by
  have quotient : BitVec.ofInt 64 (a.toInt.tdiv b.toInt) = a.sdiv b :=
    BitVec.eq_of_toInt_eq (by rw [BitVec.toInt_ofInt, BitVec.toInt_sdiv])
  rw [divS, quotient]

theorem divN_eq (a b : Word) : divN a b = if b = 0 then BitVec.allOnes 64 else a / b := by
  rw [divN, BitVec.udiv_def]

theorem remS_eq (a b : Word) : remS a b = if b = 0 then a else a.srem b := by
  rw [remS, ← BitVec.toInt_srem, BitVec.ofInt_toInt]

theorem remN_eq (a b : Word) : remN a b = if b = 0 then a else a % b := by
  rw [remN, BitVec.umod_def]

/-! ### Shifts, rotations and bounds (06 R113) -/

/-- The low bits of a word are its value modulo their range. -/
theorem toNat_lowBits (a : Word) (n : Nat) : (a.extractLsb' 0 n).toNat = a.toNat % 2 ^ n := by
  rw [BitVec.extractLsb'_toNat, Nat.shiftRight_zero]

theorem amt6_eq (b : Word) : amt6 b = (b.extractLsb' 0 6).toNat := (toNat_lowBits b 6).symm

theorem rotL_eq (a b : Word) : rotL a b = a.rotateLeft (b.extractLsb' 0 6).toNat := by
  rw [BitVec.rotateLeft_def, Nat.mod_eq_of_lt (b.extractLsb' 0 6).isLt, ← amt6_eq, rotL]

theorem minS_eq (a b : Word) : minS a b = BitVec.ofInt 64 (min a.toInt b.toInt) := by
  rw [minS]
  split
  case isTrue h => rw [min_eq_left (BitVec.slt_iff_toInt_lt.1 h).le, BitVec.ofInt_toInt]
  case isFalse h => rw [min_eq_right (not_lt.1 (mt BitVec.slt_iff_toInt_lt.2 h)), BitVec.ofInt_toInt]

theorem maxS_eq (a b : Word) : maxS a b = BitVec.ofInt 64 (max a.toInt b.toInt) := by
  rw [maxS]
  split
  case isTrue h => rw [max_eq_right (BitVec.slt_iff_toInt_lt.1 h).le, BitVec.ofInt_toInt]
  case isFalse h => rw [max_eq_left (not_lt.1 (mt BitVec.slt_iff_toInt_lt.2 h)), BitVec.ofInt_toInt]

theorem minN_eq (a b : Word) : minN a b = BitVec.ofNat 64 (min a.toNat b.toNat) := by
  rw [minN]
  split
  case isTrue h => rw [min_eq_left (BitVec.ult_iff_toNat_lt.1 h).le, BitVec.ofNat_toNat, BitVec.setWidth_eq]
  case isFalse h => rw [min_eq_right (not_lt.1 (mt BitVec.ult_iff_toNat_lt.2 h)), BitVec.ofNat_toNat, BitVec.setWidth_eq]

theorem maxN_eq (a b : Word) : maxN a b = BitVec.ofNat 64 (max a.toNat b.toNat) := by
  rw [maxN]
  split
  case isTrue h => rw [max_eq_right (BitVec.ult_iff_toNat_lt.1 h).le, BitVec.ofNat_toNat, BitVec.setWidth_eq]
  case isFalse h => rw [max_eq_left (not_lt.1 (mt BitVec.ult_iff_toNat_lt.2 h)), BitVec.ofNat_toNat, BitVec.setWidth_eq]

/-! ### Counts of bits (06 R113), at every width -/

theorem onesBelow_eq_countP (x n : Nat) : onesBelow x n = (List.range n).countP x.testBit := by
  induction n with
  | zero => rfl
  | succ n ih =>
    have bit : x / 2 ^ n % 2 = if x.testBit n then 1 else 0 := by rw [← Nat.toNat_testBit, Bool.toNat, Bool.cond_eq_ite]
    rw [onesBelow, ih, bit, List.range_succ, List.countP_append, List.countP_singleton]

theorem onesBelow_toNat {w : Nat} (a : BitVec w) (n : Nat) : onesBelow a.toNat n = (List.range n).countP a.getLsbD :=
  onesBelow_eq_countP ..

/-- The equation of `zerosAbove` in bits. -/
theorem zerosAbove_succ (x n : Nat) : zerosAbove x (n + 1) = if x.testBit n then 0 else zerosAbove x n + 1 := by
  simp only [zerosAbove, Nat.testBit_eq_decide_div_mod_eq, decide_eq_true_eq]
/-- The equation of `zerosFrom` in bits. -/
theorem zerosFrom_succ (x k n : Nat) : zerosFrom x k (n + 1) = if x.testBit k then 0 else zerosFrom x (k + 1) n + 1 := by
  simp only [zerosFrom, Nat.testBit_eq_decide_div_mod_eq, decide_eq_true_eq]

theorem zerosAbove_le (x n : Nat) : zerosAbove x n ≤ n := by
  induction n with
  | zero => exact Nat.le_refl 0
  | succ n ih => rw [zerosAbove_succ]; split <;> omega

theorem testBit_of_zerosAbove {x n i : Nat} (h : n - zerosAbove x n ≤ i) (hi : i < n) : x.testBit i = false := by
  induction n with
  | zero => omega
  | succ n ih =>
    rw [zerosAbove_succ] at h
    split at h
    case isTrue => omega
    case isFalse top =>
      rcases Nat.lt_succ_iff_lt_or_eq.1 hi with below | rfl
      · exact ih (by omega) below
      · exact Bool.eq_false_of_not_eq_true top

theorem testBit_below_zerosAbove {x n : Nat} (h : zerosAbove x n < n) : x.testBit (n - 1 - zerosAbove x n) = true := by
  induction n with
  | zero => omega
  | succ n ih =>
    rw [zerosAbove_succ] at h ⊢
    split at h
    case isTrue top => rwa [if_pos top]
    case isFalse top =>
      rw [if_neg top, show n + 1 - 1 - (zerosAbove x n + 1) = n - 1 - zerosAbove x n by omega]
      exact ih (by omega)

theorem zerosFrom_le (x k n : Nat) : zerosFrom x k n ≤ n := by
  induction n generalizing k with
  | zero => exact Nat.le_refl 0
  | succ n ih => have := ih (k + 1); rw [zerosFrom_succ]; split <;> omega

theorem testBit_of_zerosFrom {x k n i : Nat} (h : i < zerosFrom x k n) : x.testBit (k + i) = false := by
  induction n generalizing k i with
  | zero => exact absurd h (Nat.not_lt_zero i)
  | succ n ih =>
    rw [zerosFrom_succ] at h
    split at h
    case isTrue => omega
    case isFalse low =>
      cases i with
      | zero => exact Bool.eq_false_of_not_eq_true low
      | succ i => rw [show k + (i + 1) = k + 1 + i by omega]; exact ih (by omega)

theorem testBit_after_zerosFrom {x k n : Nat} (h : zerosFrom x k n < n) : x.testBit (k + zerosFrom x k n) = true := by
  induction n generalizing k with
  | zero => omega
  | succ n ih =>
    rw [zerosFrom_succ] at h ⊢
    split at h
    case isTrue low => rwa [if_pos low]
    case isFalse low =>
      rw [if_neg low, show k + (zerosFrom x (k + 1) n + 1) = k + 1 + zerosFrom x (k + 1) n by omega]
      exact ih (by omega)

/-! ### Conditions (06 R117) -/

theorem exists_common_bit_iff {w : Nat} (a b : BitVec w) : (∃ i, a.getLsbD i = true ∧ b.getLsbD i = true) ↔ a &&& b ≠ 0#w := by
  constructor
  · rintro ⟨i, ha, hb⟩ zero
    have := congrArg (·.getLsbD i) zero
    simp [ha, hb] at this
  · intro h
    by_contra disjoint
    refine h (BitVec.eq_of_getLsbD_eq fun i _ => ?_)
    rw [BitVec.getLsbD_and, BitVec.getLsbD_zero, ← Bool.not_eq_true, Bool.and_eq_true]
    exact fun both => disjoint ⟨i, both⟩

theorem Cond.holds_iff (c : Cond) (a b : Word) : c.holds a b = true ↔ condSays c a b := by
  cases c with
  | eq => exact beq_iff_eq.trans BitVec.toNat_inj.symm
  | ne => exact bne_iff_ne.trans BitVec.toNat_inj.symm.not
  | lt => exact BitVec.slt_iff_toInt_lt
  | ge => exact BitVec.sle_iff_toInt_le
  | le => exact BitVec.sle_iff_toInt_le
  | gt => exact BitVec.slt_iff_toInt_lt
  | ltn => exact BitVec.ult_iff_toNat_lt
  | gen => exact BitVec.ule_iff_toNat_le
  | len => exact BitVec.ule_iff_toNat_le
  | gtn => exact BitVec.ult_iff_toNat_lt
  | bs => exact bne_iff_ne.trans (exists_common_bit_iff a b).symm
  | bc => exact beq_iff_eq.trans (not_ne_iff.symm.trans ((exists_common_bit_iff a b).symm.not.trans not_exists))

namespace Machine

/-! ### Address registers (06 R120) -/

@[simp] theorem addrId_mkAddr (id : BitVec 24) (off : BitVec 40) : addrId (mkAddr id off) = id :=
  BitVec.extractLsb'_append_eq_left
@[simp] theorem addrOff_mkAddr (id : BitVec 24) (off : BitVec 40) : addrOff (mkAddr id off) = off :=
  BitVec.extractLsb'_append_eq_right

theorem ofInt_lowBits (a : Word) (n : Nat) : a.extractLsb' 0 n = BitVec.ofInt n a.toNat :=
  BitVec.eq_of_toNat_eq (by rw [toNat_lowBits, BitVec.ofInt_natCast, BitVec.toNat_ofNat])

theorem toNat_ofInt_eq_emod (w : Nat) (z : Int) : ((BitVec.ofInt w z).toNat : Int) = z % 2 ^ w := by
  rw [BitVec.toNat_ofInt, Int.toNat_of_nonneg (Int.emod_nonneg _ (by positivity))]
  norm_cast

/-- The offset that AADD computes. -/
theorem aadd_offset (a g : Word) (imm : BitVec 16) (st : BitVec 40) :
    ((addrOff a + g.extractLsb' 0 40 + imm.signExtend 40 * st).toNat : Int)
      = ((addrOff a).toNat + g.toNat + imm.toInt * st.toInt) % 2 ^ 40 := by
  have sum : addrOff a + g.extractLsb' 0 40 + imm.signExtend 40 * st
      = BitVec.ofInt 40 ((addrOff a).toNat + g.toNat + imm.toInt * st.toInt) := by
    rw [BitVec.ofInt_add, BitVec.ofInt_add, BitVec.ofInt_mul, BitVec.ofInt_toInt, ofInt_lowBits g, BitVec.signExtend,
      BitVec.ofInt_natCast 40 (addrOff a).toNat, BitVec.ofNat_toNat, BitVec.setWidth_eq]
  rw [sum, toNat_ofInt_eq_emod]

/-- The stride that ASTR computes. -/
theorem astr_stride (g : Word) (imm : BitVec 24) :
    ((g.extractLsb' 0 40 + imm.signExtend 40).toNat : Int) = (g.toNat + imm.toInt) % 2 ^ 40 := by
  rw [ofInt_lowBits, BitVec.signExtend, ← BitVec.ofInt_add, toNat_ofInt_eq_emod]

/-! ### The integer operations (06 R113-R116) -/

/-- A result in flight, its value rewritten. -/
theorem Posts.of_eq {i : Instr} {s : State} {lat : Nat} {gd : GReg} {v w : Word} (e : v = w) (h : Posts i s lat (.g gd v)) :
    Posts i s lat (.g gd w) := e ▸ h

theorem scalarArithmeticResults : ScalarArithmeticResults := by
  intro s gd r1 r2 ps a b
  refine ⟨rfl, rfl, rfl, ?mulh, ?mulhn, ?div, ?divn, ?rem, ?remn, rfl, rfl, rfl, rfl, ?shl, ?shr, ?sha, ?rot, ?min, ?max, ?minn, ?maxn,
    ?popc, rfl⟩
  case mulh => exact .of_eq (mulHigh_eq a b) rfl
  case mulhn => exact .of_eq (mulHighN_eq a b) rfl
  case div => exact .of_eq (divS_eq a b) rfl
  case divn => exact .of_eq (divN_eq a b) rfl
  case rem => exact .of_eq (remS_eq a b) rfl
  case remn => exact .of_eq (remN_eq a b) rfl
  case shl => exact .of_eq (congrArg (a <<< ·) (amt6_eq b)) rfl
  case shr => exact .of_eq (congrArg (a >>> ·) (amt6_eq b)) rfl
  case sha => exact .of_eq (congrArg a.sshiftRight (amt6_eq b)) rfl
  case rot => exact .of_eq (rotL_eq a b) rfl
  case min => exact .of_eq (minS_eq a b) rfl
  case max => exact .of_eq (maxS_eq a b) rfl
  case minn => exact .of_eq (minN_eq a b) rfl
  case maxn => exact .of_eq (maxN_eq a b) rfl
  case popc => exact .of_eq (congrArg (BitVec.ofNat 64) (onesBelow_toNat a 64)) rfl

theorem scalarZeroCounts : ScalarZeroCounts := by
  intro s gd r1 a
  constructor
  case left =>
    exact ⟨zerosAbove a.toNat 64, rfl, zerosAbove_le .., fun _ => testBit_of_zerosAbove, testBit_below_zerosAbove⟩
  case right =>
    refine ⟨zerosFrom a.toNat 0 64, rfl, zerosFrom_le .., fun i h => ?_, fun h => ?_⟩
    · exact Nat.zero_add i ▸ testBit_of_zerosFrom h
    · exact Nat.zero_add (zerosFrom a.toNat 0 64) ▸ testBit_after_zerosFrom h

theorem scalarImmediateResults : ScalarImmediateResults := by
  intro s gd r1 imm n m h a i
  exact ⟨rfl, rfl, rfl, rfl, rfl, rfl, rfl, rfl, h ++ (s.gval gd).extractLsb' 0 42, rfl,
    BitVec.extractLsb'_append_eq_left, BitVec.extractLsb'_append_eq_right⟩

end Machine

/-- Settles O1: each result is the model's word function of the sources, which is the arithmetic of 06 R113. -/
theorem scalarIntegerResults : Obligations.ScalarIntegerResults :=
  ⟨Machine.scalarArithmeticResults, Machine.scalarZeroCounts, Machine.scalarImmediateResults⟩

namespace Machine

/-! ### Comparisons, predicates and address registers (06 R117-R120) -/

theorem comparisonResults : ComparisonResults := fun s _ r1 r2 imm c =>
  ⟨⟨c.holds (s.gval r1) (s.gval r2), rfl, c.holds_iff ..⟩, ⟨c.holds (s.gval r1) (imm.signExtend 64), rfl, c.holds_iff ..⟩⟩

theorem predicateResults : PredicateResults := fun _ _ _ _ => ⟨rfl, rfl, rfl, rfl, rfl, rfl⟩

theorem addressRegisterResults : AddressRegisterResults := by
  intro s ad asr gd gs g2 imm im a st
  refine ⟨rfl, ?aadd, rfl, ?offset, ?ident, ?stride, ?abind, ?astr⟩
  case aadd =>
    refine ⟨mkAddr (addrId a) (addrOff a + (s.gval gs).extractLsb' 0 40 + imm.signExtend 40 * st), rfl, addrId_mkAddr .., ?_⟩
    rw [addrOff_mkAddr, aadd_offset]
  case offset => exact ⟨(addrOff a).zeroExtend 64, rfl, BitVec.toNat_setWidth_of_le (by decide)⟩
  case ident => exact ⟨(addrId a).zeroExtend 64, rfl, BitVec.toNat_setWidth_of_le (by decide)⟩
  case stride => exact ⟨st.signExtend 64, rfl, BitVec.toInt_signExtend_of_le (by decide)⟩
  case abind =>
    refine ⟨mkAddr ((s.gval gs).extractLsb' 0 24) ((s.gval g2).extractLsb' 0 40), rfl, ?_, ?_⟩
    · rw [addrId_mkAddr, toNat_lowBits]
    · rw [addrOff_mkAddr, toNat_lowBits]
  case astr => exact ⟨(s.gval gs).extractLsb' 0 40 + im.signExtend 40, rfl, astr_stride ..⟩

end Machine

/-- Settles O2: a condition says what its comparison computes, and offsets and strides are sums of integers modulo 2^40. -/
theorem predicateAndAddressResults : Obligations.PredicateAndAddressResults :=
  ⟨Machine.comparisonResults, Machine.predicateResults, Machine.addressRegisterResults⟩

end Sys2Proof
end

section
/-! SUPPORT. The results of the V slots: what the lanes of a posted vector or mask are, the lane functions of 07 R139-R155 as
arithmetic or bit by bit, and from them the statements about integer lanes, masks, bit fields and permutes. -/

namespace Sys2Proof

/-! ### Words as integers, and conditions of lanes (07 R139, R140) -/

theorem ite_neg_eq_natAbs (z : Int) : (if z < 0 then -z else z) = z.natAbs := by
  split <;> omega

/-- The high half of a 64-bit integer. -/
theorem ofInt_high_word (p : Int) : (BitVec.ofInt 64 p).extractLsb' 32 32 = BitVec.ofInt 32 (p / 2 ^ 32) := by
  apply BitVec.eq_of_toNat_eq
  rw [BitVec.extractLsb'_toNat, BitVec.toNat_ofInt, BitVec.toNat_ofInt, Nat.shiftRight_eq_div_pow]
  omega

theorem ofInt_mul_div_eq_high_word (a b : BitVec 32) :
    BitVec.ofInt 32 (a.toInt * b.toInt / 2 ^ 32) = (a.signExtend 64 * b.signExtend 64).extractLsb' 32 32 := by
  rw [← ofInt_high_word, BitVec.ofInt_mul, BitVec.signExtend, BitVec.signExtend]

section
variable {w : Nat} (a b : BitVec w)

theorem ite_slt_eq_ofInt_min : (if a.slt b then a else b) = BitVec.ofInt w (min a.toInt b.toInt) := by
  rw [min_def_lt, apply_ite (BitVec.ofInt w), BitVec.ofInt_toInt, BitVec.ofInt_toInt]
  simp only [BitVec.slt_iff_toInt_lt]

theorem ite_slt_eq_ofInt_max : (if a.slt b then b else a) = BitVec.ofInt w (max a.toInt b.toInt) := by
  rw [max_def_lt, apply_ite (BitVec.ofInt w), BitVec.ofInt_toInt, BitVec.ofInt_toInt]
  simp only [BitVec.slt_iff_toInt_lt]

theorem ite_ult_eq_ofNat_min : (if a.ult b then a else b) = BitVec.ofNat w (min a.toNat b.toNat) := by
  rw [min_def_lt, apply_ite (BitVec.ofNat w), BitVec.ofNat_toNat, BitVec.ofNat_toNat, BitVec.setWidth_eq, BitVec.setWidth_eq]
  simp only [BitVec.ult_iff_toNat_lt]

theorem ite_ult_eq_ofNat_max : (if a.ult b then b else a) = BitVec.ofNat w (max a.toNat b.toNat) := by
  rw [max_def_lt, apply_ite (BitVec.ofNat w), BitVec.ofNat_toNat, BitVec.ofNat_toNat, BitVec.setWidth_eq, BitVec.setWidth_eq]
  simp only [BitVec.ult_iff_toNat_lt]
end

theorem toNat_signExtend_word (a : BitVec 32) :
    (a.signExtend 64).toNat = a.toNat + if 2 ^ 31 ≤ a.toNat then 2 ^ 64 - 2 ^ 32 else 0 := by
  rw [BitVec.toNat_signExtend, BitVec.toNat_setWidth_of_le (by decide), BitVec.msb_eq_decide]
  simp only [decide_eq_true_eq]

theorem slt_signExtend_word (a b : BitVec 32) : (a.signExtend 64).slt (b.signExtend 64) = a.slt b := by
  rw [BitVec.slt, BitVec.slt, BitVec.toInt_signExtend_of_le (by decide), BitVec.toInt_signExtend_of_le (by decide)]

theorem ult_signExtend_word (a b : BitVec 32) : (a.signExtend 64).ult (b.signExtend 64) = a.ult b := by
  have ha := a.isLt
  have hb := b.isLt
  rw [Bool.eq_iff_iff, BitVec.ult_iff_toNat_lt, BitVec.ult_iff_toNat_lt, toNat_signExtend_word, toNat_signExtend_word]
  split_ifs <;> omega

theorem signExtend_word_inj {a b : BitVec 32} : a.signExtend 64 = b.signExtend 64 ↔ a = b := by
  rw [← BitVec.toInt_inj, BitVec.toInt_signExtend_of_le (by decide), BitVec.toInt_signExtend_of_le (by decide), BitVec.toInt_inj]

/-- A condition says the same of two lanes as of their sign extensions, the unsigned ones too. -/
theorem Cond.holds_signExtend_word (c : Cond) (a b : BitVec 32) : c.holds (a.signExtend 64) (b.signExtend 64) = c.holds a b := by
  have common : a.signExtend 64 &&& b.signExtend 64 = 0 ↔ a &&& b = 0 := by
    rw [← BitVec.signExtend_and]
    exact signExtend_word_inj (b := 0)
  cases c with
  | eq => rw [Cond.holds, Cond.holds, Bool.eq_iff_iff, beq_iff_eq, beq_iff_eq, signExtend_word_inj]
  | ne => rw [Cond.holds, Cond.holds, Bool.eq_iff_iff, bne_iff_ne, bne_iff_ne, Ne, signExtend_word_inj]
  | lt | gt => exact slt_signExtend_word ..
  | ge | le => rw [Cond.holds, Cond.holds, BitVec.sle_eq_not_slt, slt_signExtend_word, ← BitVec.sle_eq_not_slt]
  | ltn | gtn => exact ult_signExtend_word ..
  | gen | len => rw [Cond.holds, Cond.holds, BitVec.ule_eq_not_ult, ult_signExtend_word, ← BitVec.ule_eq_not_ult]
  | bs => rw [Cond.holds, Cond.holds, Bool.eq_iff_iff, bne_iff_ne, bne_iff_ne, Ne, common]
  | bc => rw [Cond.holds, Cond.holds, Bool.eq_iff_iff, beq_iff_eq, beq_iff_eq, common]

namespace Machine

/-! ### Lanes and masks put together from their parts (03 R51) -/

theorem natLanes_lt (w : Nat) (f : Nat → Nat) (n : Nat) : natLanes w f n < 2 ^ (w * n) := by
  induction n with
  | zero => exact Nat.one_pos
  | succ n ih =>
    have value : f n % 2 ^ w + 1 ≤ 2 ^ w := Nat.mod_lt _ (Nat.two_pow_pos w)
    calc natLanes w f n + f n % 2 ^ w * 2 ^ (w * n)
      _ < (f n % 2 ^ w + 1) * 2 ^ (w * n) := by rw [Nat.succ_mul, Nat.add_comm]; exact Nat.add_lt_add_left ih _
      _ ≤ 2 ^ w * 2 ^ (w * n) := Nat.mul_le_mul_right _ value
      _ = 2 ^ (w * (n + 1)) := by rw [← pow_add, Nat.mul_succ, Nat.add_comm]

/-- Value i of the ones laid side by side. -/
theorem natLanes_value (w : Nat) (f : Nat → Nat) {i n : Nat} (h : i < n) :
    natLanes w f n / 2 ^ (w * i) % 2 ^ w = f i % 2 ^ w := by
  induction n with
  | zero => exact absurd h (Nat.not_lt_zero i)
  | succ n ih =>
    rw [natLanes]
    rcases Nat.lt_succ_iff_lt_or_eq.1 h with below | rfl
    · obtain ⟨k, rfl⟩ := Nat.exists_eq_add_of_lt below
      have place : 2 ^ (w * (i + k + 1)) = 2 ^ w * 2 ^ (w * k) * 2 ^ (w * i) := by rw [← pow_add, ← pow_add]; congr 1; ring
      rw [place, ← Nat.mul_assoc, Nat.add_mul_div_right _ _ (Nat.two_pow_pos _), Nat.mul_left_comm, Nat.add_mul_mod_self_left, ih below]
    · rw [Nat.add_mul_div_right _ _ (Nat.two_pow_pos _), Nat.div_eq_of_lt (natLanes_lt ..), Nat.zero_add, Nat.mod_mod]

theorem extractLsb'_natLanes (w : Nat) (f : Nat → Nat) {i n size : Nat} (all : w * n = size) (h : i < n) :
    (BitVec.ofNat size (natLanes w f n)).extractLsb' (w * i) w = BitVec.ofNat w (f i) := by
  subst all
  apply BitVec.eq_of_toNat_eq
  rw [BitVec.extractLsb'_toNat, BitVec.toNat_ofNat, Nat.mod_eq_of_lt (natLanes_lt ..), Nat.shiftRight_eq_div_pow, natLanes_value w f h,
    BitVec.toNat_ofNat]

@[simp] theorem lane_ofLanes (f : Nat → BitVec 32) {n : Nat} (h : n < 64) : lane (ofLanes f) n = f n := by
  rw [lane, ofLanes, extractLsb'_natLanes 32 _ rfl h, BitVec.ofNat_toNat, BitVec.setWidth_eq]

@[simp] theorem getLsbD_ofBits (f : Nat → Bool) {n : Nat} (h : n < 64) : (ofBits f).getLsbD n = f n := by
  have bit := natLanes_value 1 (fun i => if f i then 1 else 0) h
  rw [Nat.one_mul, pow_one] at bit
  rw [ofBits, BitVec.getLsbD_ofNat, Nat.testBit_eq_decide_div_mod_eq, bit, decide_eq_true h, Bool.true_and]
  cases f n <;> rfl

/-! ### Vector results in flight -/

section
variable {i : Instr} {s : State} {lat : Nat} {vd : VReg} {m : Mask} {f g : Nat → BitVec 32}

theorem laneResult_ofLanes (h : Posts i s lat (.v vd m (ofLanes f))) : LaneResult i s lat vd m f :=
  ⟨ofLanes f, h, fun _ => lane_ofLanes f⟩

/-- A vector result in flight, its lane function rewritten. -/
theorem laneResult_of_eq (e : ∀ n, f n = g n) (h : Posts i s lat (.v vd m (ofLanes f))) : LaneResult i s lat vd m g :=
  funext e ▸ laneResult_ofLanes h
end

/-! ### Integer lanes (07 R139) -/

theorem satInt_eq_clamp32 (sat : Sat) (x y : Int) : satInt sat x y = clamp32 sat x y := by
  cases sat with
  | wrap => rfl
  | ss =>
    rw [satInt, clamp32]
    split_ifs with low high
    · rw [max_eq_left (by omega)]
    · rw [min_eq_left (by omega), max_eq_right (by norm_num)]
    · rw [min_eq_right (by omega), max_eq_right (by omega)]
  | us =>
    rw [satInt, clamp32]
    split_ifs with low high
    · rw [max_eq_left (by omega)]; rfl
    · rw [min_eq_left (by omega), max_eq_right (by norm_num)]; rfl
    · rw [min_eq_right (by omega), max_eq_right (by omega)]

theorem vectorIntegerResults : VectorIntegerResults := by
  intro s vd v1 src km sat a b m
  refine ⟨?add, ?sub, ?mul, ?mulh, ?min, ?max, ?minn, ?maxn, ?and, ?or, ?xor, ?andn, ?shl, ?shr, ?sha, fun _ => ?abs⟩
  case add => exact laneResult_of_eq (fun n => satInt_eq_clamp32 sat ..) rfl
  case sub => exact laneResult_of_eq (fun n => satInt_eq_clamp32 sat ..) rfl
  case mulh => exact laneResult_of_eq (fun n => ofInt_mul_div_eq_high_word (a n) (b n)) rfl
  case min => exact laneResult_of_eq (fun n => ite_slt_eq_ofInt_min (a n) (b n)) rfl
  case max => exact laneResult_of_eq (fun n => ite_slt_eq_ofInt_max (a n) (b n)) rfl
  case minn => exact laneResult_of_eq (fun n => ite_ult_eq_ofNat_min (a n) (b n)) rfl
  case maxn => exact laneResult_of_eq (fun n => ite_ult_eq_ofNat_max (a n) (b n)) rfl
  case abs =>
    have magnitude n : satInt sat (if (a n).toInt < 0 then -(a n).toInt else (a n).toInt) 0 = clamp32 sat (a n).toInt.natAbs 0 := by
      rw [ite_neg_eq_natAbs, satInt_eq_clamp32]
    exact laneResult_of_eq magnitude rfl
  case mul | and | or | xor | andn | shl | shr | sha => exact laneResult_ofLanes rfl

/-! ### Compares, selects and masks (07 R139, R140, R142, R155) -/

theorem selectCompareMaskResults : SelectCompareMaskResults := by
  intro s vd v1 v2 src kd km k2 c gd gs m m2
  refine ⟨laneResult_ofLanes rfl, ⟨_, rfl, fun n h => ?cmp⟩, rfl, rfl, rfl, rfl, rfl, rfl, rfl, ?kpop⟩
  case cmp => rw [getLsbD_ofBits _ h, Bool.and_eq_true, ← Cond.holds_signExtend_word, Cond.holds_iff]; exact .rfl
  case kpop => exact .of_eq (congrArg (BitVec.ofNat 64) (onesBelow_toNat m 64)) rfl

end Machine

/-- Settles O10: each lane function is the arithmetic of 07 R139, and a compare says of two lanes what 06 R117 says of their
sign extensions. -/
theorem vectorIntegerAndMaskResults : Obligations.VectorIntegerAndMaskResults :=
  ⟨Machine.vectorIntegerResults, Machine.selectCompareMaskResults⟩

namespace Machine

/-! ### Bit fields, bit by bit (07 R149) -/

theorem getLsbD_onesN (n : Nat) {i : Nat} (h : i < 32) : (onesN n).getLsbD i = decide (i < n) := by
  rw [onesN, BitVec.getLsbD_ofNat, Nat.testBit_two_pow_sub_one, decide_eq_true h, Bool.true_and]

/-- The bits of an unsigned field. -/
theorem getLsbD_field (a : BitVec 32) (p len : Nat) {i : Nat} (h : i < 32) :
    ((a >>> p) &&& onesN len).getLsbD i = (decide (i < len) && a.getLsbD (p + i)) := by
  rw [BitVec.getLsbD_and, BitVec.getLsbD_ushiftRight, getLsbD_onesN len h, Bool.and_comm]

theorem getLsbD_bfx_unsigned (a : BitVec 32) (p len : Nat) {i : Nat} (h : i < 32) :
    (bfx a p len false).getLsbD i = (decide (i < len) && a.getLsbD (p + i)) := by
  simp only [bfx, Bool.false_eq_true, false_and, if_false, getLsbD_field a p len h]

/-- A signed field repeats its top bit. -/
theorem getLsbD_bfx_signed (a : BitVec 32) (p : Nat) {len i : Nat} (positive : 1 ≤ len) (fits : len ≤ 32) (h : i < 32) :
    (bfx a p len true).getLsbD i = a.getLsbD (p + min i (len - 1)) := by
  have top : ((a >>> p) &&& onesN len).getLsbD (len - 1) = a.getLsbD (p + (len - 1)) := by
    rw [getLsbD_field a p len (by omega), decide_eq_true (by omega), Bool.true_and]
  have place : p + min i (len - 1) = if i < len then p + i else p + (len - 1) := by split <;> omega
  rw [place, apply_ite a.getLsbD]
  simp only [bfx, true_and, top]
  split
  case isTrue negative =>
    rw [BitVec.getLsbD_or, getLsbD_field a p len h, BitVec.getLsbD_not, getLsbD_onesN len h, decide_eq_true h, negative]
    by_cases inside : i < len <;> simp [inside]
  case isFalse nonneg =>
    rw [getLsbD_field a p len h, Bool.eq_false_of_not_eq_true nonneg]
    by_cases inside : i < len <;> simp [inside]

theorem getLsbD_bfi (old a : BitVec 32) (p len : Nat) {i : Nat} (h : i < 32) :
    (bfi old a p len).getLsbD i = if p ≤ i ∧ i < p + len then a.getLsbD (i - p) else old.getLsbD i := by
  have mask : (onesN len <<< p).getLsbD i = decide (p ≤ i ∧ i < p + len) := by
    rw [BitVec.getLsbD_shiftLeft, getLsbD_onesN len (by omega), decide_eq_true h, Bool.true_and, ← decide_not, ← Bool.decide_and]
    exact decide_eq_decide.2 (by omega)
  rw [bfi, BitVec.getLsbD_or, BitVec.getLsbD_and, BitVec.getLsbD_and, BitVec.getLsbD_not, mask, BitVec.getLsbD_shiftLeft,
    decide_eq_true h]
  split
  case isTrue inside => rw [decide_eq_true inside, decide_eq_false (by omega : ¬i < p)]; simp
  case isFalse outside => rw [decide_eq_false outside]; simp

theorem funnel_eq (a b : BitVec 32) (n : Nat) :
    ((b ++ a) >>> n).extractLsb' 0 32 = BitVec.ofNat 32 ((b.toNat * 2 ^ 32 + a.toNat) / 2 ^ n) := by
  apply BitVec.eq_of_toNat_eq
  rw [BitVec.extractLsb'_toNat, Nat.shiftRight_zero, BitVec.toNat_ushiftRight, BitVec.toNat_append, Nat.shiftRight_eq_div_pow,
    BitVec.toNat_ofNat, ← Nat.shiftLeft_add_eq_or_of_lt a.isLt, Nat.shiftLeft_eq]

/-! ### Lanes that a mask selects (07 R151) -/

/-- An element that a filter keeps stands after the smaller ones that it keeps. -/
theorem getElem?_filter_range {p : Nat → Bool} {j n : Nat} (h : j < n) (kept : p j = true) :
    ((List.range n).filter p)[(List.range j).countP p]? = some j := by
  obtain ⟨k, rfl⟩ := Nat.exists_eq_add_of_lt h
  have split_at : List.range (j + k + 1) = List.range j ++ j :: ((List.range k).map Nat.succ).map (j + ·) := by
    rw [Nat.add_assoc, List.range_add, List.range_succ_eq_map, List.map_cons, Nat.add_zero]
  rw [split_at, List.filter_append, List.filter_cons_of_pos kept, List.countP_eq_length_filter,
    List.getElem?_append_right (Nat.le_refl _), Nat.sub_self, List.getElem?_cons_zero]

theorem nthSet_countP (m : Mask) {j : Nat} (h : j < 64) (sel : m.getLsbD j = true) :
    nthSet m ((List.range j).countP m.getLsbD) = some j := getElem?_filter_range h sel

theorem nthSet_eq_none (m : Mask) {n : Nat} (h : (List.range 64).countP m.getLsbD ≤ n) : nthSet m n = none :=
  List.getElem?_eq_none (List.countP_eq_length_filter ▸ h)

/-! ### Bit fields, permutes and moves (07 R149, R151, R153) -/

theorem permuteAndBitFieldResults : PermuteAndBitFieldResults := by
  intro s vd v1 v2 pos len amt km gs gd n6 ln imm a b m P A L
  refine ⟨fun positive fits => ⟨⟨_, laneResult_ofLanes rfl, fun n i h => ?bfxUnsigned⟩, ⟨_, laneResult_ofLanes rfl, fun n i h => ?bfxSigned⟩,
    ⟨_, laneResult_ofLanes rfl, fun n i h => ?bfi⟩⟩, ?fsh, ?popc, ?clz, ?perm, ?bcastG, ?bcastLane, ?slide, ?mov, ?movi, ?ins, ?bfiReads,
    ?insReads, rfl, rfl⟩
  case bfxUnsigned => exact getLsbD_bfx_unsigned _ _ _ h
  case bfxSigned => exact getLsbD_bfx_signed _ _ positive fits h
  case bfi => exact getLsbD_bfi _ _ _ _ h
  case fsh => exact laneResult_of_eq (fun n => funnel_eq (a n) (b n) (A n)) rfl
  case popc => exact laneResult_of_eq (fun n => congrArg (BitVec.ofNat 32) (onesBelow_toNat (a n) 32)) rfl
  case clz =>
    exact ⟨fun n => zerosAbove (a n).toNat 32, laneResult_ofLanes rfl, fun n => ⟨zerosAbove_le .., fun _ => testBit_of_zerosAbove,
      testBit_below_zerosAbove⟩⟩
  case bfiReads | insReads => exact List.mem_cons_self
  case perm | bcastG | bcastLane | slide | mov | movi | ins => exact laneResult_ofLanes rfl

theorem compressExpandResults : CompressExpandResults := by
  intro s vd v1 km a m below
  have lanes : LaneResult (.vcomp vd v1 km) s 3 vd (BitVec.allOnes 64) fun n => (nthSet m n).elim 0 a :=
    laneResult_of_eq (fun n => by cases nthSet m n <;> rfl) rfl
  refine ⟨⟨_, lanes, fun j h sel => ?packed, fun n h => ?rest⟩, ?spread⟩
  case packed => exact congrArg (Option.elim · 0 a) (nthSet_countP m h sel)
  case rest => exact congrArg (Option.elim · 0 a) (nthSet_eq_none m h)
  case spread => exact laneResult_of_eq (fun n => congrArg (if m.getLsbD n then a · else 0) (onesBelow_toNat m n)) rfl

end Machine

/-- Settles O13: each field is stated bit by bit, and a lane that VCOMP selects goes to the place that VEXPD reads it from. -/
theorem permutationResults : Obligations.PermutationResults :=
  ⟨Machine.permuteAndBitFieldResults, Machine.compressExpandResults⟩

end Sys2Proof
end
